-- ==== Sys2Proof/Word.lean ====
section
/-! DEFINITION. Words and banks: the byte, the two-byte and the four-byte figure of the link (R195), the tick
range (Time in This Manual, spec/00), and a bank, which is a fixed number of like things reached by number. -/
namespace Sys2Proof

/-- One byte of the link and of phrase memory. -/
abbrev Byte := BitVec 8

/-- A two-byte figure of a request or a reply (R195). -/
abbrev Half := BitVec 16

/-- A four-byte figure of a request or a reply (R195). -/
abbrev Quad := BitVec 32

/-- The highest timeline position (R5). -/
def maxTick : Nat := 4294967295

/-- How many values a 32-bit count has: the wall count and the arrival numbers wrap at it. -/
def span32 : Nat := 4294967296

/-- A fixed number of like things, numbered from 0. -/
abbrev Bank (α : Type) (n : Nat) := Vector α n

/-- The member numbered `i` of a bank. -/
def Bank.look {α : Type} {n : Nat} (v : Bank α n) (i : Fin n) : α := v[i.1]'i.2

/-- The bank with its member numbered `i` replaced by `x`. -/
def Bank.put {α : Type} {n : Nat} (v : Bank α n) (i : Fin n) (x : α) : Bank α n := v.set i.1 x i.2

/-- The bank with every member replaced by what `f` makes of its number and its value. -/
def Bank.mapWith {α β : Type} {n : Nat} (f : Fin n → α → β) (v : Bank α n) : Bank β n :=
  ⟨(List.zipWith f (List.finRange n) v.toList).toArray, by simp⟩

/-- A bank whose members are all `x`. -/
def Bank.fill {α : Type} (n : Nat) (x : α) : Bank α n := Vector.replicate n x

/-- Some number of the bank, none where `k` lies beyond its numbering (R177). -/
def numbered (n k : Nat) : Option (Fin n) := if h : k < n then some ⟨k, h⟩ else none

end Sys2Proof
end

