-- ==== Sys2Proof/Syntax.lean ====
section
/-! DEFINITION. The commands of the part: one constructor for each row of spec/opcode_table.json.
A command is a request, or an event of the link, of a pin or of one of the part's timers, with the moment at which it is
taken (log entries 1 and 2). A request carries the raw fields of its payload in the widths of R195, so that every value a
master can send is a command. -/
namespace Sys2Proof

/-- Numbered resources count from 0 (spec/00, Names and Typography). -/
abbrev PortId := Fin 4
abbrev VoiceId := Fin 16
abbrev BarId := Fin 128
abbrev StrikerId := Fin 96
abbrev RailId := Fin 6
abbrev UnitId := Fin 4
abbrev TableId := Fin 8
abbrev PickupId := Fin 24
abbrev SlotId := Fin 256

/-- When an arbiter takes the decision that an entry's joining its set leads to (R36, R37, R68): as soon as the entry has
joined, when the block that released it has finished its work at this expiry, or after all of them have. -/
inductive DecisionTime where
  | join | block | last
  deriving DecidableEq, Repr, Inhabited

/-- The orders inside one command that the spec leaves open (R9, R36, R80, R101, R121; log entry 3). `blocks` numbers an
order of the neighbours of one tick expiry, `players` an order of the sixteen players at it, and `deciding` says when the
arbiters decide. Every value is allowed: the command carries the choice, nothing in the model makes it. -/
structure Interleaving where
  blocks : Nat := 0
  players : Nat := 0
  deciding : DecisionTime := .block
  deriving DecidableEq, Repr, Inhabited

/-- The moment of a command: the wall time at which it is taken, in µs counted from power-on without wrapping (log entry 1),
and the open orders inside it. -/
structure When where
  time : Nat
  order : Interleaving := {}
  deriving DecidableEq, Repr

/-- One command, a row of spec/opcode_table.json each. `w` is the moment, `p` the port. -/
inductive Instr where
  -- power and the RESET pin (R163, R164)
  | powerOn (w : When)
  | phraseMemoryFillEnd (w : When)
  | resetAssert (w : When)
  | resetRelease (w : When)
  -- the serial line of one port (R166 to R170, R174)
  | framingError (w : When) (p : PortId)
  | lineBreak (w : When) (p : PortId)
  | breakEnd (w : When) (p : PortId)
  | frameGapTimeout (w : When) (p : PortId)
  | frameLengthAbandon (w : When) (p : PortId) (length : Byte)
  | startByteOverflow (w : When) (p : PortId)
  | checkByteMismatch (w : When) (p : PortId)
  | unknownKind (w : When) (p : PortId)
  | replySent (w : When) (p : PortId)
  | silenceExpiry (w : When) (p : PortId)
  -- stage-bound setup (R179, R180)
  | setRail (w : When) (p : PortId) (rail fitted : Byte) (spacing : Half) (window : Quad) (count : Byte)
      (nominal : Half) (floor : Byte)
  | setStriker (w : When) (p : PortId) (striker : Byte) (recovery : Quad) (minPulse : Byte) (maxPulse : Half)
      (table : Byte) (soft hard : Half) (lock : Byte)
  | setBar (w : When) (p : PortId) (bar cls first second damper pickup : Byte) (threshold : Half)
  | setClass (w : When) (p : PortId) (cls : Byte) (lead slip : Half)
  | setDamper (w : When) (p : PortId) (unit : Byte) (lift clamp : Half) (minOpen : Quad)
  | setCharge (w : When) (p : PortId) (settle timeout : Half)
  | setQuota (w : When) (p : PortId) (port : Byte) (quota : Half)
  -- every-stage setup (R181)
  | setCurve (w : When) (p : PortId) (table first : Byte) (points : List Half)
  | curveMode (w : When) (p : PortId) (mode : Byte)
  | commit (w : When) (p : PortId) (table : Byte)
  | setScan (w : When) (p : PortId) (pickup gain : Byte) (length : Quad)
  | setPort (w : When) (p : PortId) (enables watermark : Byte) (silence : Half)
  -- conductor and timeline (R182)
  | conduct (w : When) (p : PortId) (release : Byte)
  | tempo (w : When) (p : PortId) (c : Half)
  | ramp (w : When) (p : PortId) (target : Half) (beats : Byte)
  | meter (w : When) (p : PortId) (beats : Byte)
  | run (w : When) (p : PortId)
  | stop (w : When) (p : PortId)
  | locate (w : When) (p : PortId) (position : Quad)
  | source (w : When) (p : PortId) (mode : Byte)
  -- voices (R183)
  | openVoice (w : When) (p : PortId) (voice priority low high : Byte)
  | closeVoice (w : When) (p : PortId) (voice : Byte)
  -- strokes (R184)
  | strike (w : When) (p : PortId) (voice bar form : Byte) (due : Quad) (strength tag : Byte) (sustain : Half)
  | roll (w : When) (p : PortId) (voice bar form : Byte) (due : Quad) (strength tag : Byte) (sustain : Half)
      (count spacing : Byte)
  | press (w : When) (p : PortId) (voice bar form : Byte) (due : Quad) (strength tag : Byte) (sustain : Half)
      (hold : Half) (duty : Byte)
  -- acting on entries and strikers (R185)
  | chop (w : When) (p : PortId) (voice tag : Byte)
  | cancel (w : When) (p : PortId) (voice tag : Byte)
  | flush (w : When) (p : PortId) (voice : Byte)
  | unlock (w : When) (p : PortId) (striker : Byte)
  -- phrase memory (R186)
  | seek (w : When) (p : PortId) (address : Half)
  | load (w : When) (p : PortId) (data : List Byte)
  | peek (w : When) (p : PortId) (address : Half) (count : Byte)
  | setArea (w : When) (p : PortId) (voice : Byte) (first last : Half)
  -- players (R187, R188)
  | cue (w : When) (p : PortId) (voice mode loops form : Byte) (start : Quad) (horizon : Half)
  | chime (w : When) (p : PortId) (address : Half) (loops form : Byte) (start : Quad) (horizon : Half)
  | halt (w : When) (p : PortId) (voice option : Byte)
  | push (w : When) (p : PortId) (voice : Byte) (steps : List Byte)
  | clear (w : When) (p : PortId) (voice : Byte)
  -- dampers (R189) and the stage (R190)
  | pedal (w : When) (p : PortId) (voice unit direction : Byte)
  | up (w : When) (p : PortId)
  | play (w : When) (p : PortId)
  | rest (w : When) (p : PortId)
  | down (w : When) (p : PortId)
  -- echo records and notices (R191)
  | echoRead (w : When) (p : PortId) (count : Byte)
  | notices (w : When) (p : PortId)
  -- status (R192 to R194)
  | timeStatus (w : When) (p : PortId)
  | calendarStatus (w : When) (p : PortId)
  | entryStatus (w : When) (p : PortId) (slot : Byte)
  | voiceStatus (w : When) (p : PortId) (voice : Byte)
  | barStatus (w : When) (p : PortId) (bar : Byte)
  | strikerStatus (w : When) (p : PortId) (striker : Byte)
  | railStatus (w : When) (p : PortId) (rail : Byte)
  | curveStatus (w : When) (p : PortId) (table : Byte)
  | damperStatus (w : When) (p : PortId) (unit : Byte)
  | senseStatus (w : When) (p : PortId) (pickup : Byte)
  | stageStatus (w : When) (p : PortId)
  -- the timeline's events (R5, R16, R19, R20)
  | tickExpiry (w : When)
  | syncOutPulseEnd (w : When)
  | syncInPulse (w : When)
  | lossTimerExpiry (w : When)
  -- rails, strikers and the calendar's deadlines (R56 to R58, R64, R68, R72, R89)
  | targetFireTimeReached (w : When) (slot : SlotId)
  | deadlineExpiry (w : When) (slot : SlotId)
  | spacingEnd (w : When) (rail : RailId)
  | windowSlotFreeing (w : When) (rail : RailId)
  | driveEnd (w : When) (striker : StrikerId)
  | holdEnd (w : When) (striker : StrikerId)
  | recoveryEnd (w : When) (striker : StrikerId)
  | coolingStep (w : When)
  -- dampers (R99, R101, R102)
  | liftEnd (w : When) (unit : UnitId)
  | minimumOpenExpiry (w : When) (unit : UnitId)
  | clampEnd (w : When) (unit : UnitId)
  -- players (R121)
  | playerStallResume (w : When) (voice : VoiceId)
  -- the sense unit (R131 to R139): what the environment puts on the inputs comes with the conversion
  | scanPacerFiring (w : When)
  | railConversionComplete (w : When) (millivolts : Half)
  | windowSampleDue (w : When) (pickup : PickupId)
  | pickupConversionComplete (w : When) (input : Int)
  | windowClose (w : When) (pickup : PickupId)
  -- the stage controller (R153, R157, R158)
  | chargeExpiry (w : When)
  | dischargeExpiry (w : When)
  | guardEdge (w : When) (closed : Bool)
  -- one byte of a request frame (R167)
  | byteTaken (w : When) (p : PortId) (value : Byte)
  deriving DecidableEq, Repr

end Sys2Proof
end

