-- ==== Sys2Proof/Config.lean ====
section
/-! DEFINITION. What the spec leaves open: free values. Each is opaque, so no proof can see which value it is.
`supplyWithoutSample` stands in a meaning; the rest are read by the idle step alone (Machine/Due.lean), which has to supply
what comes from outside the part. -/
namespace Sys2Proof.Config

/-- The supply stage (R86) for a rail whose last sample is absent or 0, where R86's quotient does not exist.
Arguments: the curve result and the nominal voltage. No reachable grant meets this case (log entry 6). -/
opaque supplyWithoutSample : Nat → Nat → Nat

/-- The analog level of a rail sense at a wall time, in mV: from the environment. -/
opaque railLevel : RailId → Nat → Half

/-- The analog level of a pickup at a wall time, in eighths of a gain-1 count: from the environment. -/
opaque pickupLevel : PickupId → Nat → Int

/-- The open orders inside an event that the part raises by itself at a wall time. -/
opaque interleaving : Nat → Interleaving

/-- Which of several events due at one wall time the part takes first. -/
opaque tieBreak : Nat → Nat

end Sys2Proof.Config
end

