-- ==== Sys2Proof/WellFormed.lean ====
section
/-! DEFINITION. Which commands a sender can give: the fields of fixed width always can be sent, the fields of varying
length must have a length their kind allows (R195's payload lengths), and a pickup's input lies within its span (pin table). -/
namespace Sys2Proof

/-- SET_CURVE carries 1 to 16 points (R181). -/
def pointsAllowed (points : List Half) : Bool := 1 ≤ points.length && points.length ≤ 16

/-- LOAD carries 1 to 56 bytes (R186). -/
def dataAllowed (data : List Byte) : Bool := 1 ≤ data.length && data.length ≤ 56

/-- PUSH carries 1 to 7 whole steps of 8 bytes (R188). -/
def stepsAllowed (steps : List Byte) : Bool :=
  1 ≤ steps.length && steps.length ≤ 56 && steps.length % 8 == 0

/-- ±2.5 V spans −32,768 to 32,767 counts at gain 1 (pin table); `input` is in eighths of a count. -/
def inputAllowed (input : Int) : Bool := -262144 ≤ input && input ≤ 262143

/-- A command that a sender can give. -/
def Instr.wellFormed : Instr → Bool
  | .setCurve _ _ _ _ points => pointsAllowed points
  | .load _ _ data => dataAllowed data
  | .push _ _ _ steps => stepsAllowed steps
  | .pickupConversionComplete _ input => inputAllowed input
  | _ => true

end Sys2Proof
end

