-- ==== Sys2Proof/Decode.lean ====
section
/-! DEFINITION. Reading and writing the link's bytes: byte order (R195), the CRC-8 of a frame (R168), a request's kind code
and payload read into a command, and a command written as the kind and payload of its request frame.
spec/opcode_table.json gives no row any bits, so `decodeTableWord` answers none (log entry 4). -/
namespace Sys2Proof

/-- The two-byte figure stored as `b0 b1`, least significant byte first (R195). -/
def half (b0 b1 : Byte) : Half := b1 ++ b0

/-- The four-byte figure stored as `b0 b1 b2 b3`, least significant byte first (R195). -/
def quad (b0 b1 b2 b3 : Byte) : Quad := ((b3 ++ b2) ++ b1) ++ b0

/-- The bytes of a two-byte figure, least significant first (R195). -/
def halfBytes (h : Half) : List Byte := [h.extractLsb' 0 8, h.extractLsb' 8 8]

/-- The bytes of a four-byte figure, least significant first (R195). -/
def quadBytes (q : Quad) : List Byte :=
  [q.extractLsb' 0 8, q.extractLsb' 8 8, q.extractLsb' 16 8, q.extractLsb' 24 8]

/-- The two-byte figures stored one after another; a byte left over is dropped. -/
def halvesOf : List Byte → List Half
  | b0 :: b1 :: rest => half b0 b1 :: halvesOf rest
  | _ => []

/-- The bytes of two-byte figures stored one after another. -/
def bytesOfHalves : List Half → List Byte
  | [] => []
  | h :: rest => halfBytes h ++ bytesOfHalves rest

/-- One bit of the CRC-8 register shifted out: polynomial x⁸ + x² + x + 1 (R168). -/
def crcShift (c : Byte) : Byte := if c.msb then (c <<< 1) ^^^ 0x07#8 else c <<< 1

/-- The CRC-8 register after one byte, fed most significant bit first (R168). -/
def crcByte (c b : Byte) : Byte :=
  crcShift (crcShift (crcShift (crcShift (crcShift (crcShift (crcShift (crcShift (c ^^^ b))))))))

/-- The CRC-8 of some bytes: starting value 0, no inversion at the end (R168). -/
def crc8 (bytes : List Byte) : Byte := bytes.foldl crcByte 0#8

/-- The start byte of a frame (R167). -/
def startByte : Byte := 0xC5#8

/-- A whole frame: start byte, length, kind, payload, check byte over length, kind and payload (R168). -/
def frameBytes (kind : Byte) (payload : List Byte) : List Byte :=
  let body := BitVec.ofNat 8 payload.length :: kind :: payload
  startByte :: body ++ [crc8 body]

/-- What a frame that passed its check byte holds (R168, checks 2 and 3). -/
inductive FrameRead where
  | unknown
  | badLength
  | request (c : Instr)
  deriving DecidableEq, Repr

/-- The kind code of a request (R195), none for a command that is no request. -/
def kindCode : Instr → Option Byte
  | .setRail .. => some 0x01#8
  | .setStriker .. => some 0x02#8
  | .setBar .. => some 0x03#8
  | .setClass .. => some 0x04#8
  | .setDamper .. => some 0x05#8
  | .setCharge .. => some 0x06#8
  | .setQuota .. => some 0x07#8
  | .setCurve .. => some 0x08#8
  | .curveMode .. => some 0x09#8
  | .commit .. => some 0x0A#8
  | .setScan .. => some 0x0B#8
  | .setPort .. => some 0x0C#8
  | .conduct .. => some 0x10#8
  | .tempo .. => some 0x11#8
  | .ramp .. => some 0x12#8
  | .meter .. => some 0x13#8
  | .run .. => some 0x14#8
  | .stop .. => some 0x15#8
  | .locate .. => some 0x16#8
  | .source .. => some 0x17#8
  | .openVoice .. => some 0x20#8
  | .closeVoice .. => some 0x21#8
  | .strike .. => some 0x22#8
  | .roll .. => some 0x23#8
  | .press .. => some 0x24#8
  | .chop .. => some 0x25#8
  | .cancel .. => some 0x26#8
  | .flush .. => some 0x27#8
  | .unlock .. => some 0x28#8
  | .seek .. => some 0x30#8
  | .load .. => some 0x31#8
  | .peek .. => some 0x32#8
  | .setArea .. => some 0x33#8
  | .cue .. => some 0x34#8
  | .chime .. => some 0x35#8
  | .halt .. => some 0x36#8
  | .push .. => some 0x37#8
  | .clear .. => some 0x38#8
  | .pedal .. => some 0x40#8
  | .up .. => some 0x41#8
  | .play .. => some 0x42#8
  | .rest .. => some 0x43#8
  | .down .. => some 0x44#8
  | .echoRead .. => some 0x50#8
  | .notices .. => some 0x51#8
  | .timeStatus .. => some 0x60#8
  | .calendarStatus .. => some 0x61#8
  | .entryStatus .. => some 0x62#8
  | .voiceStatus .. => some 0x63#8
  | .barStatus .. => some 0x64#8
  | .strikerStatus .. => some 0x65#8
  | .railStatus .. => some 0x66#8
  | .curveStatus .. => some 0x67#8
  | .damperStatus .. => some 0x68#8
  | .senseStatus .. => some 0x69#8
  | .stageStatus .. => some 0x6A#8
  | _ => none

/-- Reads a setup request (kinds 0x01 to 0x0C) from its kind code and payload: R195 gives the fields, in order, and the lengths allowed. -/
def readSetup (w : When) (p : PortId) (kind : Byte) (payload : List Byte) : FrameRead :=
  match kind.toNat with
  | 0x01 => match payload with
    | [b0, b1, b2, b3, b4, b5, b6, b7, b8, b9, b10, b11] => .request (.setRail w p b0 b1 (half b2 b3) (quad b4 b5 b6 b7) b8 (half b9 b10) b11)
    | _ => .badLength
  | 0x02 => match payload with
    | [b0, b1, b2, b3, b4, b5, b6, b7, b8, b9, b10, b11, b12, b13] => .request (.setStriker w p b0 (quad b1 b2 b3 b4) b5 (half b6 b7) b8 (half b9 b10) (half b11 b12) b13)
    | _ => .badLength
  | 0x03 => match payload with
    | [b0, b1, b2, b3, b4, b5, b6, b7] => .request (.setBar w p b0 b1 b2 b3 b4 b5 (half b6 b7))
    | _ => .badLength
  | 0x04 => match payload with
    | [b0, b1, b2, b3, b4] => .request (.setClass w p b0 (half b1 b2) (half b3 b4))
    | _ => .badLength
  | 0x05 => match payload with
    | [b0, b1, b2, b3, b4, b5, b6, b7, b8] => .request (.setDamper w p b0 (half b1 b2) (half b3 b4) (quad b5 b6 b7 b8))
    | _ => .badLength
  | 0x06 => match payload with
    | [b0, b1, b2, b3] => .request (.setCharge w p (half b0 b1) (half b2 b3))
    | _ => .badLength
  | 0x07 => match payload with
    | [b0, b1, b2] => .request (.setQuota w p b0 (half b1 b2))
    | _ => .badLength
  | 0x08 => match payload with
    | table :: first :: rest =>
      if rest.length % 2 == 0 && pointsAllowed (halvesOf rest) then .request (.setCurve w p table first (halvesOf rest)) else .badLength
    | _ => .badLength
  | 0x09 => match payload with
    | [b0] => .request (.curveMode w p b0)
    | _ => .badLength
  | 0x0A => match payload with
    | [b0] => .request (.commit w p b0)
    | _ => .badLength
  | 0x0B => match payload with
    | [b0, b1, b2, b3, b4, b5] => .request (.setScan w p b0 b1 (quad b2 b3 b4 b5))
    | _ => .badLength
  | 0x0C => match payload with
    | [b0, b1, b2, b3] => .request (.setPort w p b0 b1 (half b2 b3))
    | _ => .badLength
  | _ => .unknown

/-- Reads a conductor request (kinds 0x10 to 0x17) from its kind code and payload: R195 gives the fields, in order, and the lengths allowed. -/
def readConductor (w : When) (p : PortId) (kind : Byte) (payload : List Byte) : FrameRead :=
  match kind.toNat with
  | 0x10 => match payload with
    | [b0] => .request (.conduct w p b0)
    | _ => .badLength
  | 0x11 => match payload with
    | [b0, b1] => .request (.tempo w p (half b0 b1))
    | _ => .badLength
  | 0x12 => match payload with
    | [b0, b1, b2] => .request (.ramp w p (half b0 b1) b2)
    | _ => .badLength
  | 0x13 => match payload with
    | [b0] => .request (.meter w p b0)
    | _ => .badLength
  | 0x14 => match payload with
    | [] => .request (.run w p)
    | _ => .badLength
  | 0x15 => match payload with
    | [] => .request (.stop w p)
    | _ => .badLength
  | 0x16 => match payload with
    | [b0, b1, b2, b3] => .request (.locate w p (quad b0 b1 b2 b3))
    | _ => .badLength
  | 0x17 => match payload with
    | [b0] => .request (.source w p b0)
    | _ => .badLength
  | _ => .unknown

/-- Reads a voice or stroke request (kinds 0x20 to 0x28) from its kind code and payload: R195 gives the fields, in order, and the lengths allowed. -/
def readStroke (w : When) (p : PortId) (kind : Byte) (payload : List Byte) : FrameRead :=
  match kind.toNat with
  | 0x20 => match payload with
    | [b0, b1, b2, b3] => .request (.openVoice w p b0 b1 b2 b3)
    | _ => .badLength
  | 0x21 => match payload with
    | [b0] => .request (.closeVoice w p b0)
    | _ => .badLength
  | 0x22 => match payload with
    | [b0, b1, b2, b3, b4, b5, b6, b7, b8, b9, b10] => .request (.strike w p b0 b1 b2 (quad b3 b4 b5 b6) b7 b8 (half b9 b10))
    | _ => .badLength
  | 0x23 => match payload with
    | [b0, b1, b2, b3, b4, b5, b6, b7, b8, b9, b10, b11, b12] => .request (.roll w p b0 b1 b2 (quad b3 b4 b5 b6) b7 b8 (half b9 b10) b11 b12)
    | _ => .badLength
  | 0x24 => match payload with
    | [b0, b1, b2, b3, b4, b5, b6, b7, b8, b9, b10, b11, b12, b13] => .request (.press w p b0 b1 b2 (quad b3 b4 b5 b6) b7 b8 (half b9 b10) (half b11 b12) b13)
    | _ => .badLength
  | 0x25 => match payload with
    | [b0, b1] => .request (.chop w p b0 b1)
    | _ => .badLength
  | 0x26 => match payload with
    | [b0, b1] => .request (.cancel w p b0 b1)
    | _ => .badLength
  | 0x27 => match payload with
    | [b0] => .request (.flush w p b0)
    | _ => .badLength
  | 0x28 => match payload with
    | [b0] => .request (.unlock w p b0)
    | _ => .badLength
  | _ => .unknown

/-- Reads a phrase request (kinds 0x30 to 0x38) from its kind code and payload: R195 gives the fields, in order, and the lengths allowed. -/
def readPhrase (w : When) (p : PortId) (kind : Byte) (payload : List Byte) : FrameRead :=
  match kind.toNat with
  | 0x30 => match payload with
    | [b0, b1] => .request (.seek w p (half b0 b1))
    | _ => .badLength
  | 0x31 => if dataAllowed payload then .request (.load w p payload) else .badLength
  | 0x32 => match payload with
    | [b0, b1, b2] => .request (.peek w p (half b0 b1) b2)
    | _ => .badLength
  | 0x33 => match payload with
    | [b0, b1, b2, b3, b4] => .request (.setArea w p b0 (half b1 b2) (half b3 b4))
    | _ => .badLength
  | 0x34 => match payload with
    | [b0, b1, b2, b3, b4, b5, b6, b7, b8, b9] => .request (.cue w p b0 b1 b2 b3 (quad b4 b5 b6 b7) (half b8 b9))
    | _ => .badLength
  | 0x35 => match payload with
    | [b0, b1, b2, b3, b4, b5, b6, b7, b8, b9] => .request (.chime w p (half b0 b1) b2 b3 (quad b4 b5 b6 b7) (half b8 b9))
    | _ => .badLength
  | 0x36 => match payload with
    | [b0, b1] => .request (.halt w p b0 b1)
    | _ => .badLength
  | 0x37 => match payload with
    | voice :: rest => if stepsAllowed rest then .request (.push w p voice rest) else .badLength
    | _ => .badLength
  | 0x38 => match payload with
    | [b0] => .request (.clear w p b0)
    | _ => .badLength
  | _ => .unknown

/-- Reads a damper, stage, echo or notice request (kinds 0x40 to 0x51) from its kind code and payload: R195 gives the fields, in order, and the lengths allowed. -/
def readStage (w : When) (p : PortId) (kind : Byte) (payload : List Byte) : FrameRead :=
  match kind.toNat with
  | 0x40 => match payload with
    | [b0, b1, b2] => .request (.pedal w p b0 b1 b2)
    | _ => .badLength
  | 0x41 => match payload with
    | [] => .request (.up w p)
    | _ => .badLength
  | 0x42 => match payload with
    | [] => .request (.play w p)
    | _ => .badLength
  | 0x43 => match payload with
    | [] => .request (.rest w p)
    | _ => .badLength
  | 0x44 => match payload with
    | [] => .request (.down w p)
    | _ => .badLength
  | 0x50 => match payload with
    | [b0] => .request (.echoRead w p b0)
    | _ => .badLength
  | 0x51 => match payload with
    | [] => .request (.notices w p)
    | _ => .badLength
  | _ => .unknown

/-- Reads a status request (kinds 0x60 to 0x6A) from its kind code and payload: R195 gives the fields, in order, and the lengths allowed. -/
def readStatus (w : When) (p : PortId) (kind : Byte) (payload : List Byte) : FrameRead :=
  match kind.toNat with
  | 0x60 => match payload with
    | [] => .request (.timeStatus w p)
    | _ => .badLength
  | 0x61 => match payload with
    | [] => .request (.calendarStatus w p)
    | _ => .badLength
  | 0x62 => match payload with
    | [b0] => .request (.entryStatus w p b0)
    | _ => .badLength
  | 0x63 => match payload with
    | [b0] => .request (.voiceStatus w p b0)
    | _ => .badLength
  | 0x64 => match payload with
    | [b0] => .request (.barStatus w p b0)
    | _ => .badLength
  | 0x65 => match payload with
    | [b0] => .request (.strikerStatus w p b0)
    | _ => .badLength
  | 0x66 => match payload with
    | [b0] => .request (.railStatus w p b0)
    | _ => .badLength
  | 0x67 => match payload with
    | [b0] => .request (.curveStatus w p b0)
    | _ => .badLength
  | 0x68 => match payload with
    | [b0] => .request (.damperStatus w p b0)
    | _ => .badLength
  | 0x69 => match payload with
    | [b0] => .request (.senseStatus w p b0)
    | _ => .badLength
  | 0x6A => match payload with
    | [] => .request (.stageStatus w p)
    | _ => .badLength
  | _ => .unknown

/-- Reads a request frame that passed its check byte: the kind first, then the length (R168, checks 2 and 3). -/
def readRequest (w : When) (p : PortId) (kind : Byte) (payload : List Byte) : FrameRead :=
  match kind.toNat / 16 with
  | 0 => readSetup w p kind payload
  | 1 => readConductor w p kind payload
  | 2 => readStroke w p kind payload
  | 3 => readPhrase w p kind payload
  | 4 => readStage w p kind payload
  | 5 => readStage w p kind payload
  | 6 => readStatus w p kind payload
  | _ => .unknown

/-- The payload of a request: its fields in the order of its entry, packed without gaps (R195). Empty for a command that is
no request. -/
def requestPayload : Instr → List Byte
  | .setRail _ _ a0 a1 a2 a3 a4 a5 a6 => [a0, a1] ++ halfBytes a2 ++ quadBytes a3 ++ [a4] ++ halfBytes a5 ++ [a6]
  | .setStriker _ _ a0 a1 a2 a3 a4 a5 a6 a7 => [a0] ++ quadBytes a1 ++ [a2] ++ halfBytes a3 ++ [a4] ++ halfBytes a5 ++ halfBytes a6 ++ [a7]
  | .setBar _ _ a0 a1 a2 a3 a4 a5 a6 => [a0, a1, a2, a3, a4, a5] ++ halfBytes a6
  | .setClass _ _ a0 a1 a2 => [a0] ++ halfBytes a1 ++ halfBytes a2
  | .setDamper _ _ a0 a1 a2 a3 => [a0] ++ halfBytes a1 ++ halfBytes a2 ++ quadBytes a3
  | .setCharge _ _ a0 a1 => halfBytes a0 ++ halfBytes a1
  | .setQuota _ _ a0 a1 => [a0] ++ halfBytes a1
  | .setCurve _ _ table first points => table :: first :: bytesOfHalves points
  | .curveMode _ _ a0 => [a0]
  | .commit _ _ a0 => [a0]
  | .setScan _ _ a0 a1 a2 => [a0, a1] ++ quadBytes a2
  | .setPort _ _ a0 a1 a2 => [a0, a1] ++ halfBytes a2
  | .conduct _ _ a0 => [a0]
  | .tempo _ _ a0 => halfBytes a0
  | .ramp _ _ a0 a1 => halfBytes a0 ++ [a1]
  | .meter _ _ a0 => [a0]
  | .locate _ _ a0 => quadBytes a0
  | .source _ _ a0 => [a0]
  | .openVoice _ _ a0 a1 a2 a3 => [a0, a1, a2, a3]
  | .closeVoice _ _ a0 => [a0]
  | .strike _ _ a0 a1 a2 a3 a4 a5 a6 => [a0, a1, a2] ++ quadBytes a3 ++ [a4, a5] ++ halfBytes a6
  | .roll _ _ a0 a1 a2 a3 a4 a5 a6 a7 a8 => [a0, a1, a2] ++ quadBytes a3 ++ [a4, a5] ++ halfBytes a6 ++ [a7, a8]
  | .press _ _ a0 a1 a2 a3 a4 a5 a6 a7 a8 => [a0, a1, a2] ++ quadBytes a3 ++ [a4, a5] ++ halfBytes a6 ++ halfBytes a7 ++ [a8]
  | .chop _ _ a0 a1 => [a0, a1]
  | .cancel _ _ a0 a1 => [a0, a1]
  | .flush _ _ a0 => [a0]
  | .unlock _ _ a0 => [a0]
  | .seek _ _ a0 => halfBytes a0
  | .load _ _ data => data
  | .peek _ _ a0 a1 => halfBytes a0 ++ [a1]
  | .setArea _ _ a0 a1 a2 => [a0] ++ halfBytes a1 ++ halfBytes a2
  | .cue _ _ a0 a1 a2 a3 a4 a5 => [a0, a1, a2, a3] ++ quadBytes a4 ++ halfBytes a5
  | .chime _ _ a0 a1 a2 a3 a4 => halfBytes a0 ++ [a1, a2] ++ quadBytes a3 ++ halfBytes a4
  | .halt _ _ a0 a1 => [a0, a1]
  | .push _ _ voice steps => voice :: steps
  | .clear _ _ a0 => [a0]
  | .pedal _ _ a0 a1 a2 => [a0, a1, a2]
  | .echoRead _ _ a0 => [a0]
  | .entryStatus _ _ a0 => [a0]
  | .voiceStatus _ _ a0 => [a0]
  | .barStatus _ _ a0 => [a0]
  | .strikerStatus _ _ a0 => [a0]
  | .railStatus _ _ a0 => [a0]
  | .curveStatus _ _ a0 => [a0]
  | .damperStatus _ _ a0 => [a0]
  | .senseStatus _ _ a0 => [a0]
  | _ => []

/-- The port on which a request comes and its moment, none for a command that is no request. -/
def requestPort : Instr → Option (When × PortId)
  | .setRail w p _ _ _ _ _ _ _ => some (w, p)
  | .setStriker w p _ _ _ _ _ _ _ _ => some (w, p)
  | .setBar w p _ _ _ _ _ _ _ => some (w, p)
  | .setClass w p _ _ _ => some (w, p)
  | .setDamper w p _ _ _ _ => some (w, p)
  | .setCharge w p _ _ => some (w, p)
  | .setQuota w p _ _ => some (w, p)
  | .setCurve w p _ _ _ => some (w, p)
  | .curveMode w p _ => some (w, p)
  | .commit w p _ => some (w, p)
  | .setScan w p _ _ _ => some (w, p)
  | .setPort w p _ _ _ => some (w, p)
  | .conduct w p _ => some (w, p)
  | .tempo w p _ => some (w, p)
  | .ramp w p _ _ => some (w, p)
  | .meter w p _ => some (w, p)
  | .run w p => some (w, p)
  | .stop w p => some (w, p)
  | .locate w p _ => some (w, p)
  | .source w p _ => some (w, p)
  | .openVoice w p _ _ _ _ => some (w, p)
  | .closeVoice w p _ => some (w, p)
  | .strike w p _ _ _ _ _ _ _ => some (w, p)
  | .roll w p _ _ _ _ _ _ _ _ _ => some (w, p)
  | .press w p _ _ _ _ _ _ _ _ _ => some (w, p)
  | .chop w p _ _ => some (w, p)
  | .cancel w p _ _ => some (w, p)
  | .flush w p _ => some (w, p)
  | .unlock w p _ => some (w, p)
  | .seek w p _ => some (w, p)
  | .load w p _ => some (w, p)
  | .peek w p _ _ => some (w, p)
  | .setArea w p _ _ _ => some (w, p)
  | .cue w p _ _ _ _ _ _ => some (w, p)
  | .chime w p _ _ _ _ _ => some (w, p)
  | .halt w p _ _ => some (w, p)
  | .push w p _ _ => some (w, p)
  | .clear w p _ => some (w, p)
  | .pedal w p _ _ _ => some (w, p)
  | .up w p => some (w, p)
  | .play w p => some (w, p)
  | .rest w p => some (w, p)
  | .down w p => some (w, p)
  | .echoRead w p _ => some (w, p)
  | .notices w p => some (w, p)
  | .timeStatus w p => some (w, p)
  | .calendarStatus w p => some (w, p)
  | .entryStatus w p _ => some (w, p)
  | .voiceStatus w p _ => some (w, p)
  | .barStatus w p _ => some (w, p)
  | .strikerStatus w p _ => some (w, p)
  | .railStatus w p _ => some (w, p)
  | .curveStatus w p _ => some (w, p)
  | .damperStatus w p _ => some (w, p)
  | .senseStatus w p _ => some (w, p)
  | .stageStatus w p => some (w, p)
  | _ => none

/-- The row's command that a word of the opcode table spells. The table gives no row any bits: none (log entry 4). -/
def decodeTableWord (_nbits _w : Nat) : Option Instr := none

end Sys2Proof
end

