-- ==== Sys2Proof/Machine/State.lean ====
section
/-! DEFINITION. The state of the part as plain data: every piece of state that spec/ names, the commands that wait, and the
state after reset. What is a function of other state (tick-in-beat, READY, NOTICE, ALERT, the outputs, the use counts, the
competing sets) is computed in Machine/Ops.lean and not stored twice. All wall times are µs from power-on (log entry 1). -/
namespace Sys2Proof.Machine

/-! ## Named values -/

/-- Timeline states (R1). -/
inductive TimelineState where
  | stopped | running | held
  deriving DecidableEq, Repr

/-- Why the timeline last entered STOPPED (R1, R13). -/
inductive StopReason where
  | reset | request | rangeEnd
  deriving DecidableEq, Repr

/-- Where beats come from (R15). -/
inductive SourceMode where
  | internal | sync
  deriving DecidableEq, Repr

/-- Instrument classes of a bar (R50). -/
inductive InstrumentClass where
  | marimba | vibes | perc
  deriving DecidableEq, Repr

/-- Voice states (R24). -/
inductive VoiceState where
  | closed | opened
  deriving DecidableEq, Repr

/-- Entry states (R28 to R49). -/
inductive EntryState where
  | waiting | released | firing
  deriving DecidableEq, Repr

/-- How an entry leaves the calendar (R49). -/
inductive EntryOutcome where
  | played | merged | rollDone | chopped | cancelled | flushed | passed | noStriker
  | droppedStage | droppedLate | droppedHot | droppedSupply | wasCut
  deriving DecidableEq, Repr

/-- Striker states (R52 to R60). -/
inductive StrikerState where
  | idle | drive | hold | recover | locked
  deriving DecidableEq, Repr

/-- Rail states (R66, R135). -/
inductive RailState where
  | off | charging | up | low | fault
  deriving DecidableEq, Repr

/-- Where SET_CURVE writes (R77, R78). -/
inductive UpdateMode where
  | direct | staged
  deriving DecidableEq, Repr

/-- Damper unit states (R93). -/
inductive DamperState where
  | clamped | lifting | opened | clamping
  deriving DecidableEq, Repr

/-- Player states (R116). -/
inductive PlayerState where
  | idle | armed | running | stalled | starved
  deriving DecidableEq, Repr

/-- Player modes (R117). -/
inductive PlayerMode where
  | once | loop | stream
  deriving DecidableEq, Repr

/-- Why a phrase last ended (R128). -/
inductive EndReason where
  | none | ended | located | range
  deriving DecidableEq, Repr

/-- Stages (R147). -/
inductive Stage where
  | dormant | charging | standby | playing | guarded | discharging | fault
  deriving DecidableEq, Repr

/-- Where CHARGING leads (R149, R152). -/
inductive ChainTarget where
  | standby | playing
  deriving DecidableEq, Repr

/-- Why the stage last entered FAULT (R153, R159). -/
inductive FaultCause where
  | none | chargeTimeout | railFault (r : RailId)
  deriving DecidableEq, Repr

/-- Which part of a frame the next byte is taken as (R167). -/
inductive Receiver where
  | hunt | length | kind | payload | check
  deriving DecidableEq, Repr

/-- The six notices, in the order of their bits (R195). -/
inductive Notice where
  | echoLevel | barLine | stageChange | strikerLocked | syncLost | phraseEnd
  deriving DecidableEq, Repr

/-! ## The performance timeline (spec/01) -/

/-- A tempo ramp in progress (R10, R11). -/
structure Ramp where
  target : Nat
  start : Nat
  length : Nat
  done : Nat
  deriving DecidableEq, Repr

/-- Flight lead L, maximum slip and lead ticks of a class (R23, R35). -/
structure ClassTimes where
  lead : Nat
  slip : Nat
  leadTicks : Nat
  deriving DecidableEq, Repr

/-- The timeline (R1's table). `tickDue` is the exact instant of the next tick expiry in eighths of a µs (R2); `syncOutEnd`
is the time at which a SYNC_OUT pulse in progress ends (R20). -/
structure Timeline where
  state : TimelineState
  stopReason : StopReason
  position : Nat
  beatInBar : Nat
  barNumber : Nat
  beatsPerBar : Nat
  pendingMeter : Option Nat
  tempo : Nat
  period : Nat
  pendingPeriod : Option Nat
  ramp : Option Ramp
  source : SourceMode
  lastPulse : Option Nat
  lastInterval : Nat
  tickDue : Option Nat
  lossDue : Option Nat
  conductor : Option PortId
  marimba : ClassTimes
  vibes : ClassTimes
  perc : ClassTimes
  syncOutEnd : Option Nat
  deriving DecidableEq, Repr

/-! ## Voices and the calendar (spec/02) -/

/-- A voice's phrase area with its stream ring (R109, R123): addresses of the first and the last byte. -/
structure Area where
  first : Nat
  last : Nat
  read : Nat
  write : Nat
  retained : Nat
  deriving DecidableEq, Repr

/-- A voice record (R24). -/
structure Voice where
  state : VoiceState
  owner : Option PortId
  priority : Nat
  low : Nat
  high : Nat
  area : Option Area
  deriving DecidableEq, Repr

/-- The roll part of an entry. -/
structure RollPart where
  count : Nat
  spacing : Nat
  firstDue : Nat
  played : Nat
  missed : Nat
  chopMark : Bool
  flushMark : Bool
  deriving DecidableEq, Repr

/-- The press part of an entry: hold in ms, hold duty in 256ths. -/
structure PressPart where
  holdMs : Nat
  duty : Nat
  deriving DecidableEq, Repr

/-- An entry's kind with the part that its kind adds. -/
inductive StrokePart where
  | single
  | roll (r : RollPart)
  | press (q : PressPart)
  deriving DecidableEq, Repr

/-- What a grant supplies for the record of a SINGLE or PRESS (R38). -/
structure FireDetails where
  striker : StrikerId
  offset : Nat
  applied : Nat
  pulse : Nat
  deriving DecidableEq, Repr

/-- The echo flags (R142, R197). -/
structure EchoFlags where
  derated : Bool := false
  damped : Bool := false
  silent : Bool := false
  noListen : Bool := false
  lost : Bool := false
  deriving DecidableEq, Repr

/-- A calendar entry (spec/02, Entries). `seq` counts admissions without wrapping, so that arrivals compare across a wrap of
the arrival counter (R28); the arrival number is `seq` mod 2³². `targetReached`, `listened` and `wasCut` are the model's own: the
target event has been taken, a window opened for the stroke, a hold was cut with its window open (R41). -/
structure Entry where
  slot : SlotId
  voice : VoiceId
  port : PortId
  report : Bool
  bar : BarId
  due : Nat
  part : StrokePart
  strength : Nat
  sustain : Option Nat
  tag : Byte
  seq : Nat
  state : EntryState
  target : Option Nat
  deadline : Option Nat
  targetReached : Bool
  fire : Option FireDetails
  flags : EchoFlags
  peak : Option Nat
  listened : Bool
  wasCut : Bool
  deriving DecidableEq, Repr

/-! ## Bars, strikers and rails (spec/03) -/

/-- A bar record (R50, R51). -/
structure Bar where
  cls : InstrumentClass
  first : Option StrikerId
  second : Option StrikerId
  damper : Option UnitId
  pickup : Option PickupId
  threshold : Nat
  deriving DecidableEq, Repr

/-- A striker record (R53). `playing` is the model's own: the entry whose stroke the striker drives or holds. -/
structure Striker where
  bar : Option BarId
  recovery : Nat
  minPulse : Nat
  maxPulse : Nat
  table : TableId
  soft : Nat
  hard : Nat
  heat : Nat
  lockThreshold : Nat
  silentCount : Nat
  state : StrikerState
  lastFire : Option Nat
  driveEnd : Option Nat
  holdEnd : Option Nat
  recoveryEnd : Option Nat
  lockPending : Bool
  firedLast : Bool
  playing : Option SlotId
  deriving DecidableEq, Repr

/-- A rail record (R62), with its low-run count (R136) and its charge figures (R147). -/
structure Rail where
  fitted : Bool
  spacing : Nat
  window : Nat
  count : Nat
  recent : List Nat
  spacingEnd : Option Nat
  nominal : Nat
  floor : Nat
  lastSample : Option Nat
  state : RailState
  lowRun : Nat
  settleSince : Option Nat
  bled : Bool
  deriving DecidableEq, Repr

/-! ## The energy shaper (spec/04) -/

/-- A curve table's two copies and its commit-pending flag (R75). -/
structure CurveTable where
  live : Bank Nat 16
  staging : Bank Nat 16
  commitPending : Bool
  deriving DecidableEq, Repr

/-- The energy shaper (R76). `coolDue` is the wall time of the next cooling step: the timer stands at 25,000 µs less what
remains to it (R89). -/
structure Shaper where
  tables : Bank CurveTable 8
  mode : UpdateMode
  coolDue : Nat
  deriving DecidableEq, Repr

/-! ## Dampers (spec/05) -/

/-- A hold: timed with a bar and an end tick, or endless with neither (R95). -/
structure Hold where
  voice : VoiceId
  bar : Option BarId
  endTick : Option Nat
  deriving DecidableEq, Repr

/-- A damper unit (R93). `minPassed` is set once the minimum open time's expiry has been taken (R101). -/
structure Damper where
  lift : Nat
  clamp : Nat
  minOpen : Nat
  state : DamperState
  holds : List Hold
  liftEnd : Option Nat
  clampEnd : Option Nat
  openSince : Option Nat
  minPassed : Bool
  deriving DecidableEq, Repr

/-! ## Players (spec/06) -/

/-- A phrase player (R116). `nextDue` is the due of the next step where the player has computed one (R128); `told` is the
model's own: the calendar has told the STALLED player to resume and the player has not yet done so (R121). -/
structure Player where
  state : PlayerState
  mode : PlayerMode
  loops : Nat
  passes : Nat
  start : Nat
  horizon : Nat
  startAddress : Nat
  nextAddress : Nat
  returnPoint : Option Nat
  passDue : Nat
  previousDue : Nat
  refused : Nat
  endReason : EndReason
  nextDue : Option Nat
  told : Bool
  deriving DecidableEq, Repr

/-! ## The sense unit (spec/07) -/

/-- What the converter converts: a rail's sense or a pickup. -/
inductive SenseInput where
  | rail (r : RailId)
  | pickup (k : PickupId)
  deriving DecidableEq, Repr

/-- A conversion in progress: when it came due, when it completes, and the gain in force at its start (R131, R132). -/
structure Conversion where
  input : SenseInput
  came : Nat
  done : Nat
  gain : Nat
  deriving DecidableEq, Repr

/-- A conversion that has come due and not started. -/
structure Waiting where
  input : SenseInput
  came : Nat
  deriving DecidableEq, Repr

/-- A pickup's gain and listen length (R130). -/
structure Pickup where
  gain : Nat
  length : Nat
  deriving DecidableEq, Repr

/-- A listen window (R137). -/
structure Window where
  pickup : PickupId
  slot : SlotId
  striker : StrikerId
  closeTime : Nat
  nextSample : Nat
  samples : Nat
  peak : Option Nat
  deriving DecidableEq, Repr

/-- The sense unit (R130). `closing` is a window closed early whose last conversion is still in progress (R140). -/
structure Sense where
  conv : Option Conversion
  waiting : List Waiting
  pickups : Bank Pickup 24
  scanDue : Nat
  nextRail : RailId
  windows : List Window
  closing : Option Window
  deriving DecidableEq, Repr

/-! ## The stage controller (spec/08) -/

/-- The stage controller (R147). -/
structure StageControl where
  stage : Stage
  target : Option ChainTarget
  guardClosed : Bool
  settleMs : Nat
  timeoutMs : Nat
  chargeDue : Option Nat
  dischargeDue : Option Nat
  cause : FaultCause
  deriving DecidableEq, Repr

/-- The power-on fill of phrase memory (R163, R164): not running, running to its end, or ended by RESET and to begin again. -/
inductive Fill where
  | none
  | running (done : Nat)
  | interrupted
  deriving DecidableEq, Repr

/-- Power-on, the RESET pin and the level of GUARD. -/
structure Power where
  inReset : Bool
  fill : Fill
  guardHigh : Bool
  deriving DecidableEq, Repr

/-! ## Link ports (spec/09) and echo records (spec/07) -/

/-- An echo record (R142). -/
structure EchoRecord where
  voice : VoiceId
  tag : Byte
  bar : BarId
  due : Nat
  kind : Nat
  strength : Nat
  fire : Option FireDetails
  outcome : EntryOutcome
  flags : EchoFlags
  peak : Option Nat
  counts : Option (Nat × Nat)
  deriving DecidableEq, Repr

/-- A reply frame being sent: its kind byte and its payload (R170). -/
structure Reply where
  kind : Byte
  payload : List Byte
  deriving DecidableEq, Repr

/-- A link port (R165). `gapStart` is the end of the last byte's stop bit (R167); `lineLow` is set from a break until the
line returns high (R166); `highSince` is the time from which the line counts as high after a framing error, none where no
framing error has come (R166; log entry 11). -/
structure Port where
  receiver : Receiver
  frameLength : Nat
  frameKind : Byte
  framePayload : List Byte
  gapStart : Nat
  reply : Option Reply
  lineLow : Bool
  highSince : Option Nat
  overflow : Bool
  pendingNotices : Byte
  enables : Byte
  watermark : Nat
  silenceMs : Nat
  silenceDue : Option Nat
  echo : List EchoRecord
  lost : Bool
  loadPointer : Nat
  deriving DecidableEq, Repr

/-! ## The whole part -/

/-- The state of the part. `mem` lists the bytes of phrase memory that differ from the power-on fill. `decisions` is the
model's own worklist of rails whose arbiters have a decision to take (R68); it is empty between commands. `pending` is the
queue of commands that wait, first in, first out. -/
structure State where
  now : Nat
  power : Power
  ports : Bank Port 4
  timeline : Timeline
  voices : Bank Voice 16
  chimePort : Option PortId
  entries : List Entry
  nextSeq : Nat
  quotas : Bank Nat 4
  bars : Bank Bar 128
  strikers : Bank Striker 96
  rails : Bank Rail 6
  shaper : Shaper
  dampers : Bank Damper 4
  mem : List Host.Cell
  players : Bank Player 16
  sense : Sense
  stage : StageControl
  decisions : List RailId
  pending : List Instr
  deriving DecidableEq, Repr

/-- The reasons for a fault. There is none: the spec describes no condition in which the part stops, so no command of this
model ends in a fault. (The rail FAULT and the stage FAULT of R136 and R159 are states, and the part goes on.) -/
inductive Fault : Type
  deriving DecidableEq, Repr

/-- The reasons for a refusal of the model. -/
inductive Refusal where
  /-- Raised by a dispatch arm that has no meaning yet. Safe: nothing is claimed of such a command. No arm raises it. -/
  | notModelled (mnemonic : String)
  deriving DecidableEq, Repr

/-- What a meaning answers. -/
abbrev Answer := Host.Outcome State Fault Refusal

/-! ## The values after reset -/

/-- A class with flight lead `lead`, the maximum slip of R35 and lead ticks `ticks`. -/
def ClassTimes.initial (lead ticks : Nat) : ClassTimes := { lead := lead, slip := 8000, leadTicks := ticks }

/-- The timeline after power-on and RESET (R1, R23, R35). -/
def Timeline.initial : Timeline where
  state := .stopped
  stopReason := .reset
  position := 0
  beatInBar := 0
  barNumber := 0
  beatsPerBar := 4
  pendingMeter := none
  tempo := 12000
  period := 16667
  pendingPeriod := none
  ramp := none
  source := .internal
  lastPulse := none
  lastInterval := 500010
  tickDue := none
  lossDue := none
  conductor := none
  marimba := .initial 18000 9
  vibes := .initial 20000 10
  perc := .initial 12000 6
  syncOutEnd := none

/-- Voices 0 to 14 after power-on and RESET (R24). -/
def Voice.initial : Voice where
  state := .closed
  owner := none
  priority := 0
  low := 0
  high := 0
  area := none

/-- Voice 15's fixed form (R24) with the chime area (R109), whose ring, which nothing binds, stands empty at its start (log entry
32). -/
def Voice.chime : Voice where
  state := .opened
  owner := none
  priority := 3
  low := 0
  high := 127
  area := some { first := 0, last := 4095, read := 0, write := 0, retained := 0 }

/-- The chime voice's number. -/
def chimeVoice : VoiceId := 15

/-- A bar after power-on and RESET: unmapped (R50). -/
def Bar.initial : Bar where
  cls := .marimba
  first := none
  second := none
  damper := none
  pickup := none
  threshold := 0

/-- A striker after power-on and RESET (R53). -/
def Striker.initial : Striker where
  bar := none
  recovery := 40000
  minPulse := 300
  maxPulse := 9000
  table := 0
  soft := 24000
  hard := 40000
  heat := 0
  lockThreshold := 3
  silentCount := 0
  state := .idle
  lastFire := none
  driveEnd := none
  holdEnd := none
  recoveryEnd := none
  lockPending := false
  firedLast := false
  playing := none

/-- A rail after power-on and RESET (R62, R136, R147). -/
def Rail.initial : Rail where
  fitted := false
  spacing := 1500
  window := 20000
  count := 4
  recent := []
  spacingEnd := none
  nominal := 2400
  floor := 80
  lastSample := none
  state := .off
  lowRun := 0
  settleSince := none
  bled := false

/-- The default points of a curve: p[k] = 300 + 580 × k (R76). -/
def defaultPoints : Bank Nat 16 := Bank.mapWith (fun k _ => 300 + 580 * k.1) (Bank.fill 16 ())

/-- A curve table after power-on and RESET (R76). -/
def CurveTable.initial : CurveTable where
  live := defaultPoints
  staging := defaultPoints
  commitPending := false

/-- The energy shaper at a power-on or a RESET release at `t`: its timer starts at 0 (R76, R89). -/
def Shaper.initial (t : Nat) : Shaper where
  tables := Bank.fill 8 CurveTable.initial
  mode := .direct
  coolDue := t + 25000

/-- A damper unit after power-on and RESET (R93). -/
def Damper.initial : Damper where
  lift := 12000
  clamp := 8000
  minOpen := 20000
  state := .clamped
  holds := []
  liftEnd := none
  clampEnd := none
  openSince := none
  minPassed := false

/-- A player after power-on and RESET (R116). -/
def Player.initial : Player where
  state := .idle
  mode := .once
  loops := 0
  passes := 0
  start := 0
  horizon := 480
  startAddress := 0
  nextAddress := 0
  returnPoint := none
  passDue := 0
  previousDue := 0
  refused := 0
  endReason := .none
  nextDue := none
  told := false

/-- The sense unit at a power-on or a RESET release at `t`: the pacer first fires 250 µs later (R130). -/
def Sense.initial (t : Nat) : Sense where
  conv := none
  waiting := []
  pickups := Bank.fill 24 { gain := 1, length := 40000 }
  scanDue := t + 250
  nextRail := 0
  windows := []
  closing := none

/-- The stage controller after power-on and RESET, the guard state taken from GUARD's level (R147). -/
def StageControl.initial (guardHigh : Bool) : StageControl where
  stage := .dormant
  target := none
  guardClosed := guardHigh
  settleMs := 200
  timeoutMs := 3000
  chargeDue := none
  dischargeDue := none
  cause := .none

/-- A port after power-on and RESET (R111, R146, R165). -/
def Port.initial : Port where
  receiver := .hunt
  frameLength := 0
  frameKind := 0#8
  framePayload := []
  gapStart := 0
  reply := none
  lineLow := false
  highSince := none
  overflow := false
  pendingNotices := 0#8
  enables := 0#8
  watermark := 64
  silenceMs := 0
  silenceDue := none
  echo := []
  lost := false
  loadPointer := 0

/-- The values that power-on and the release of RESET give every block at wall time `t`, with GUARD's level, the phrase
memory and the fill as given (R163, R164). -/
def State.initial (t : Nat) (guardHigh : Bool) (mem : List Host.Cell) (fill : Fill) (queue : List Instr) : State where
  now := t
  power := { inReset := false, fill := fill, guardHigh := guardHigh }
  ports := Bank.fill 4 Port.initial
  timeline := .initial
  voices := (Bank.fill 16 Voice.initial).put chimeVoice Voice.chime
  chimePort := none
  entries := []
  nextSeq := 0
  quotas := Bank.fill 4 56
  bars := Bank.fill 128 Bar.initial
  strikers := Bank.fill 96 Striker.initial
  rails := Bank.fill 6 Rail.initial
  shaper := .initial t
  dampers := Bank.fill 4 Damper.initial
  mem := mem
  players := Bank.fill 16 Player.initial
  sense := .initial t
  stage := .initial guardHigh
  decisions := []
  pending := queue

/-- The part as the release of RESET leaves it, with phrase memory as the power-on fill leaves it (R108, R164): wall count 0
and GUARD closed are DESIGN CHOICES (log entries 1 and 5). -/
def State.reset : State := State.initial 0 true [] .none []

end Sys2Proof.Machine
end

