-- ==== Sys2Proof/Machine/Flags.lean ====
section
/-! DEFINITION. Flags and sets carried in one byte: the notice sets (R195), the flags byte of a reply (R170), the echo flags
(R197), and NOTICE (R171). -/
namespace Sys2Proof.Machine

/-- A set of notices is one byte: the bit of each notice (R195). -/
def Notice.mask : Notice → Byte
  | .echoLevel => 0x01#8
  | .barLine => 0x02#8
  | .stageChange => 0x04#8
  | .strikerLocked => 0x08#8
  | .syncLost => 0x10#8
  | .phraseEnd => 0x20#8

/-- A notice set with bit 6 or 7 set names no notice (R195). -/
def namesNotices (set : Byte) : Bool := set &&& 0xC0#8 == 0#8

/-- NOTICE is asserted while the pending set and the enable set have a notice in common (R171). That it stands so while RESET is
asserted too, until the release clears the pending set, is the model's reading (R164, log entry 33). -/
def Port.noticeLine (p : Port) : Bool := p.pendingNotices &&& p.enables != 0#8

/-- A byte whose bit 0 is `b`. -/
def bitByte (b : Bool) : Byte := if b then 1#8 else 0#8

/-- The flags byte of a reply: OVERFLOW, NOTICE and ECHO in bits 0 to 2 (R170). -/
def Port.flagsByte (p : Port) : Byte :=
  bitByte p.overflow ||| (bitByte p.noticeLine <<< 1) ||| (bitByte (!p.echo.isEmpty) <<< 2)

/-- The echo flags of a record in one byte (R197). -/
def EchoFlags.byte (f : EchoFlags) : Byte :=
  bitByte f.derated ||| (bitByte f.damped <<< 1) ||| (bitByte f.silent <<< 2) ||| (bitByte f.noListen <<< 3) |||
    (bitByte f.lost <<< 4)

end Sys2Proof.Machine
end

