-- ==== Sys2Proof/Machine/Operands.lean ====
section
/-! DEFINITION. Operand forms: the value codes of named fields (R195), the fields that name numbered resources and their "none"
and "all" (R177, R195), the due and start forms, the status codes, and the bytes of a reply's results (R195, R197). -/
namespace Sys2Proof.Machine

/-! ## Reply status -/

/-- Reply statuses (R170). -/
inductive Status where
  | ok | busy | full | range | owner | stage | state | frame | unknown | length
  deriving DecidableEq, Repr

/-- The numeric values of the statuses (status table of spec/11). -/
def Status.code : Status → Byte
  | .ok => 0#8
  | .busy => 1#8
  | .full => 2#8
  | .range => 3#8
  | .owner => 4#8
  | .stage => 5#8
  | .state => 6#8
  | .frame => 7#8
  | .unknown => 8#8
  | .length => 9#8

/-! ## Fields that name numbered things -/

/-- A field that names a port, a voice and so on; none beyond the numbering (R177). -/
def fieldId (n : Nat) (b : Byte) : Option (Fin n) := numbered n b.toNat

/-- A field that may be absent by 0xFF (R195): `none` where it names nothing, `some none` where it is absent. -/
def optionalId (n : Nat) (b : Byte) : Option (Option (Fin n)) :=
  if b = 0xFF#8 then some none else (fieldId n b).map some

/-- A two-valued field: 0 or 1, any other code names nothing (R195). -/
def fieldBool (b : Byte) : Option Bool :=
  match b.toNat with
  | 0 => some false
  | 1 => some true
  | _ => none

/-- Classes: MARIMBA 0, VIBES 1, PERC 2. -/
def fieldClass (b : Byte) : Option InstrumentClass :=
  match b.toNat with
  | 0 => some .marimba
  | 1 => some .vibes
  | 2 => some .perc
  | _ => none

/-- Player modes: ONCE 0, LOOP 1, STREAM 2. -/
def fieldMode (b : Byte) : Option PlayerMode :=
  match b.toNat with
  | 0 => some .once
  | 1 => some .loop
  | 2 => some .stream
  | _ => none

/-- Update modes: DIRECT 0, STAGED 1. -/
def fieldUpdateMode (b : Byte) : Option UpdateMode :=
  match b.toNat with
  | 0 => some .direct
  | 1 => some .staged
  | _ => none

/-- Sources: INTERNAL 0, SYNC 1. -/
def fieldSource (b : Byte) : Option SourceMode :=
  match b.toNat with
  | 0 => some .internal
  | 1 => some .sync
  | _ => none

/-- Gains are 1, 2, 4 and 8 (R132). -/
def fieldGain (b : Byte) : Option Nat :=
  if b.toNat = 1 ∨ b.toNat = 2 ∨ b.toNat = 4 ∨ b.toNat = 8 then some b.toNat else none

/-- The form byte of STRIKE, ROLL and PRESS: bit 0 the offset form, bit 1 the sustain present, bits 2–7 are 0 (R195). -/
def fieldForm (b : Byte) : Option (Bool × Bool) :=
  if b &&& 0xFC#8 = 0#8 then some (b.getLsbD 0, b.getLsbD 1) else none

/-- SET_BAR's two striker fields: none is 0xFF in both, one is in the first, a first of 0xFF with a striker in the second names
nothing (R195). -/
def fieldStrikers (first second : Byte) : Option (Option StrikerId × Option StrikerId) :=
  match optionalId 96 first, optionalId 96 second with
  | some none, some (some _) => none
  | some a, some b => some (a, b)
  | _, _ => none

/-- A horizon of 0 is absent, meaning 480 (R195). -/
def fieldHorizon (h : Half) : Nat := if h.toNat = 0 then 480 else h.toNat

/-! ## Value codes of a reply (R195) -/

def InstrumentClass.code : InstrumentClass → Nat
  | .marimba => 0 | .vibes => 1 | .perc => 2
def StrokePart.code : StrokePart → Nat
  | .single => 0 | .roll _ => 1 | .press _ => 2
def PlayerMode.code : PlayerMode → Nat
  | .once => 0 | .loop => 1 | .stream => 2
def UpdateMode.code : UpdateMode → Nat
  | .direct => 0 | .staged => 1
def SourceMode.code : SourceMode → Nat
  | .internal => 0 | .sync => 1
def Stage.code : Stage → Nat
  | .dormant => 0 | .charging => 1 | .standby => 2 | .playing => 3 | .guarded => 4 | .discharging => 5 | .fault => 6
/-- The chain target has its stage's code, 0xFF where absent. -/
def targetCode : Option ChainTarget → Nat
  | some .standby => 2 | some .playing => 3 | none => 0xFF
def TimelineState.code : TimelineState → Nat
  | .stopped => 0 | .running => 1 | .held => 2
def StopReason.code : StopReason → Nat
  | .reset => 0 | .request => 1 | .rangeEnd => 2
def VoiceState.code : VoiceState → Nat
  | .closed => 0 | .opened => 1
def EntryState.code : EntryState → Nat
  | .waiting => 0 | .released => 1 | .firing => 2
def StrikerState.code : StrikerState → Nat
  | .idle => 0 | .drive => 1 | .hold => 2 | .recover => 3 | .locked => 4
def RailState.code : RailState → Nat
  | .off => 0 | .charging => 1 | .up => 2 | .low => 3 | .fault => 4
def DamperState.code : DamperState → Nat
  | .clamped => 0 | .lifting => 1 | .opened => 2 | .clamping => 3
def PlayerState.code : PlayerState → Nat
  | .idle => 0 | .armed => 1 | .running => 2 | .stalled => 3 | .starved => 4
def EndReason.code : EndReason → Nat
  | .none => 0 | .ended => 1 | .located => 2 | .range => 3
def FaultCause.code : FaultCause → Nat
  | .none => 0 | .chargeTimeout => 1 | .railFault r => 0x10 + r.1
/-- The outcome codes of the echo record (outcome table of spec/11). -/
def EntryOutcome.code : EntryOutcome → Nat
  | .played => 0 | .merged => 1 | .rollDone => 2 | .chopped => 3 | .cancelled => 4 | .flushed => 5 | .passed => 6
  | .noStriker => 7 | .droppedStage => 8 | .droppedLate => 9 | .droppedHot => 10 | .droppedSupply => 11 | .wasCut => 12

/-! ## Bytes of results -/

/-- A one-byte result. -/
def b1 (n : Nat) : List Byte := [BitVec.ofNat 8 n]
/-- A two-byte result, least significant byte first. -/
def b2 (n : Nat) : List Byte := halfBytes (BitVec.ofNat 16 n)
/-- A four-byte result, least significant byte first. -/
def b4 (n : Nat) : List Byte := quadBytes (BitVec.ofNat 32 n)
/-- A signed four-byte result, in two's complement. -/
def bSigned (i : Int) : List Byte := quadBytes (BitVec.ofInt 32 i)
/-- A two-valued result (R195). -/
def bBool (b : Bool) : List Byte := [bitByte b]
/-- A one-byte result, all ones where absent. -/
def o1 : Option Nat → List Byte
  | some n => b1 n
  | none => [0xFF#8]
/-- A two-byte result, all ones where absent. -/
def o2 : Option Nat → List Byte
  | some n => b2 n
  | none => [0xFF#8, 0xFF#8]
/-- A four-byte result, all ones where absent. -/
def o4 : Option Nat → List Byte
  | some n => b4 n
  | none => [0xFF#8, 0xFF#8, 0xFF#8, 0xFF#8]
/-- A one-byte result that names a numbered thing, 0xFF where absent. -/
def oId {n : Nat} (i : Option (Fin n)) : List Byte := o1 (i.map (·.1))

/-- The 21 bytes of an echo record (echo record table of spec/11, R197). -/
def EchoRecord.bytes (r : EchoRecord) : List Byte :=
  b1 r.voice.1 ++ [r.tag] ++ b1 r.bar.1 ++ b1 r.kind ++ b4 r.due ++ b1 r.strength ++
  b1 ((r.fire.map (·.applied)).getD 0) ++ oId (r.fire.map (·.striker)) ++ b1 r.outcome.code ++
  o2 (r.fire.map (·.offset)) ++ b2 ((r.fire.map (·.pulse)).getD 0) ++ o2 r.peak ++ [r.flags.byte] ++
  o1 (r.counts.map (·.1)) ++ o1 (r.counts.map (·.2))

end Sys2Proof.Machine
end

