-- ==== Sys2Proof/Machine/Ops.lean ====
section
/-! DEFINITION. The named operations over the state that every family shares: reading and updating one member of a bank, the
clock, phrase memory, notices, what the state implies (READY, ALERT, the outputs, the counts), and a request with its reply. -/
namespace Sys2Proof.Machine

/-! ## Reading and updating one thing -/

def State.port (s : State) (p : PortId) : Port := s.ports.look p
def State.voice (s : State) (v : VoiceId) : Voice := s.voices.look v
def State.bar (s : State) (b : BarId) : Bar := s.bars.look b
def State.striker (s : State) (n : StrikerId) : Striker := s.strikers.look n
def State.rail (s : State) (r : RailId) : Rail := s.rails.look r
def State.damper (s : State) (u : UnitId) : Damper := s.dampers.look u
def State.player (s : State) (v : VoiceId) : Player := s.players.look v
def State.table (s : State) (t : TableId) : CurveTable := s.shaper.tables.look t

def State.modPort (p : PortId) (f : Port → Port) (s : State) : State :=
  { s with ports := s.ports.put p (f (s.port p)) }
def State.modVoice (v : VoiceId) (f : Voice → Voice) (s : State) : State :=
  { s with voices := s.voices.put v (f (s.voice v)) }
def State.modBar (b : BarId) (f : Bar → Bar) (s : State) : State :=
  { s with bars := s.bars.put b (f (s.bar b)) }
def State.modStriker (n : StrikerId) (f : Striker → Striker) (s : State) : State :=
  { s with strikers := s.strikers.put n (f (s.striker n)) }
def State.modRail (r : RailId) (f : Rail → Rail) (s : State) : State :=
  { s with rails := s.rails.put r (f (s.rail r)) }
def State.modDamper (u : UnitId) (f : Damper → Damper) (s : State) : State :=
  { s with dampers := s.dampers.put u (f (s.damper u)) }
def State.modPlayer (v : VoiceId) (f : Player → Player) (s : State) : State :=
  { s with players := s.players.put v (f (s.player v)) }
def State.modTable (t : TableId) (f : CurveTable → CurveTable) (s : State) : State :=
  { s with shaper := { s.shaper with tables := s.shaper.tables.put t (f (s.table t)) } }
def State.modTimeline (f : Timeline → Timeline) (s : State) : State := { s with timeline := f s.timeline }
def State.modSense (f : Sense → Sense) (s : State) : State := { s with sense := f s.sense }
def State.modStage (f : StageControl → StageControl) (s : State) : State := { s with stage := f s.stage }

/-! ## The clock -/

/-- The clock runs to wall time `t`; it never runs back (log entry 1). -/
def State.reach (t : Nat) (s : State) : State := { s with now := max s.now t }

/-- The free-running 32-bit wall count. -/
def State.wallCount (s : State) : Nat := s.now % span32

/-- Quotient rounded to nearest, halves up (Number Conventions). -/
def roundDiv (a b : Nat) : Nat := (2 * a + b) / (2 * b)

/-- The wall µs taken as now at an exact instant given in eighths of a µs: the nearest, halves up (R2). -/
def nearestWall (eighths : Nat) : Nat := (eighths + 4) / 8

/-- An event of the part: the clock runs to the event's time, and no event is taken while RESET is asserted (R164). -/
def event (t : Nat) (f : State → State) (s : State) : State :=
  if s.power.inReset then s.reach t else f (s.reach t)

/-- An event of one of the part's timers: it is taken at the time recorded for it, or at the command's own time where that is
later (log entry 2); a timer that is not running gives no event. -/
def timerEvent (w : When) (due : Option Nat) (f : State → State) (s : State) : State :=
  match due with
  | some t => event (max t w.time) f s
  | none => s.reach w.time

/-! ## The open orders inside a command -/

/-- The order of a list that the number `n` picks: every order of the list is picked by some number, 0 leaves it as it is. -/
def arrange {α : Type} : Nat → List α → List α
  | _, [] => []
  | n, a :: l => (arrange (n / (l.length + 1)) l).insertIdx (n % (l.length + 1)) a

/-! ## Phrase memory -/

/-- The byte that the power-on fill leaves at an address: END with delta 0 is 00 00 81 00 80 00 00 00 (R108, R196). -/
def fillByte (a : Nat) : Byte :=
  match a % 8 with
  | 2 => 0x81#8
  | 4 => 0x80#8
  | _ => 0x00#8

/-- The byte at an address of phrase memory; an address that is not listed reads as the power-on fill. -/
def memRead : List Host.Cell → Nat → Byte
  | [], a => fillByte a
  | (b, x) :: rest, a => if a = b then x else memRead rest a

/-- The cells with `a` holding `x`, in the canonical form. -/
def memWrite : List Host.Cell → Nat → Byte → List Host.Cell
  | [], a, x => if x = fillByte a then [] else [(a, x)]
  | (b, y) :: rest, a, x =>
    if a < b then (if x = fillByte a then (b, y) :: rest else (a, x) :: (b, y) :: rest)
    else if a = b then (if x = fillByte a then rest else (a, x) :: rest)
    else (b, y) :: memWrite rest a x

/-- Writes bytes to consecutive addresses. -/
def memWriteAll : List Host.Cell → Nat → List Byte → List Host.Cell
  | m, _, [] => m
  | m, a, x :: rest => memWriteAll (memWrite m a x) (a + 1) rest

/-- Every listed address lies above `low`, the addresses rise, and no entry equals what its address reads as unlisted. -/
def memAbove : Nat → List Host.Cell → Bool
  | _, [] => true
  | low, (b, x) :: rest => low ≤ b && x != fillByte b && memAbove (b + 1) rest

/-- The canonical form of phrase memory. -/
def memWf (m : List Host.Cell) : Bool := memAbove 0 m

/-- The bytes from an address upward. -/
def memBytes (m : List Host.Cell) (a n : Nat) : List Byte := (List.range n).map (fun i => memRead m (a + i))

/-! ## The timeline, as it is read -/

/-- Tick-in-beat is always the position mod 240 (R1, R5). -/
def Timeline.tickInBeat (t : Timeline) : Nat := t.position % 240
/-- Ticks per bar are the beats per bar times 240 (R1). -/
def Timeline.ticksPerBar (t : Timeline) : Nat := t.beatsPerBar * 240
/-- Tick-in-bar is beat-in-bar × 240 + tick-in-beat (R5). -/
def Timeline.tickInBar (t : Timeline) : Nat := t.beatInBar * 240 + t.tickInBeat

/-- Flight lead, maximum slip and lead ticks of a class. -/
def Timeline.times (t : Timeline) : InstrumentClass → ClassTimes
  | .marimba => t.marimba
  | .vibes => t.vibes
  | .perc => t.perc

/-- The times of a class changed. -/
def Timeline.modTimes (c : InstrumentClass) (f : ClassTimes → ClassTimes) (t : Timeline) : Timeline :=
  match c with
  | .marimba => { t with marimba := f t.marimba }
  | .vibes => { t with vibes := f t.vibes }
  | .perc => { t with perc := f t.perc }

/-- The lead ticks of a flight lead at a tick period: ceil(L × 8 / P) (R23). -/
def leadTicksOf (lead period : Nat) : Nat := (lead * 8 + period - 1) / period

/-- The times of a class with its lead ticks computed from a tick period (R23). -/
def ClassTimes.withPeriod (period : Nat) (c : ClassTimes) : ClassTimes := { c with leadTicks := leadTicksOf c.lead period }

/-- Adopts a tick period, with the lead ticks of all three classes recomputed from it (R4, R23). -/
def Timeline.adopt (period : Nat) (t : Timeline) : Timeline :=
  { t with
    period := period
    marimba := t.marimba.withPeriod period
    vibes := t.vibes.withPeriod period
    perc := t.perc.withPeriod period }

/-- The tick period of a tempo (R3), and the tempo of a tick period (R15, R19): the same quotient. -/
def tempoPeriod (c : Nat) : Nat := roundDiv 200000000 c

/-! ## Bars and strikers, as they are read -/

/-- The strikers of a bar, in the order of its record. -/
def Bar.strikers (b : Bar) : List StrikerId := b.first.toList ++ b.second.toList

/-- A striker's rail is its number div 16 (R52). -/
def railOf (n : StrikerId) : RailId := ⟨n.1 / 16, by omega⟩

/-- The rail of a bar is the rail of its strikers; a bar with no strikers has no rail (R52). -/
def Bar.rail (b : Bar) : Option RailId := (b.strikers.head?).map railOf

/-- A striker is hot while H is at or above its Hh (R55). -/
def Striker.hot (k : Striker) : Bool := k.hard ≤ k.heat

/-- The candidates for a stroke on a bar are its strikers that are not LOCKED (R52). -/
def State.candidates (s : State) (b : Bar) : List StrikerId :=
  b.strikers.filter (fun n => (s.striker n).state ≠ .locked)

/-- The candidates that are IDLE and not hot (R69). -/
def State.readyStrikers (s : State) (b : Bar) : List StrikerId :=
  (s.candidates b).filter (fun n => (s.striker n).state = .idle && !(s.striker n).hot)

/-- The floor of a rail in 10 mV units (spec/03, Rails). -/
def Rail.floorLevel (r : Rail) : Nat := r.nominal * r.floor / 100

/-- The charge threshold of a rail in 10 mV units (R151). -/
def Rail.chargeThreshold (r : Rail) : Nat := r.nominal * 90 / 100

/-- A rail is free (R65). -/
def Rail.free (r : Rail) : Bool := r.spacingEnd.isNone && r.recent.length < r.count && r.state = .up

/-! ## The calendar, as it is read -/

/-- The kind of an entry is a ROLL. -/
def StrokePart.isRoll : StrokePart → Bool
  | .roll _ => true
  | _ => false

/-- The kind of an entry is a PRESS. -/
def StrokePart.isPress : StrokePart → Bool
  | .press _ => true
  | _ => false

/-- The entry in a slot. -/
def State.entryAt (s : State) (k : SlotId) : Option Entry := s.entries.find? (fun e => e.slot = k)

/-- The entry in a slot changed; its place in the order is kept. -/
def State.modEntry (k : SlotId) (f : Entry → Entry) (s : State) : State :=
  { s with entries := s.entries.map (fun e => if e.slot = k then f e else e) }

/-- Calendar order: due tick, then arrival (R29). -/
def Entry.before (a b : Entry) : Bool := a.due < b.due || (a.due = b.due && a.seq < b.seq)

/-- Places an entry where calendar order puts it (R29). -/
def placeEntry (e : Entry) : List Entry → List Entry
  | [] => [e]
  | d :: rest => if e.before d then e :: d :: rest else d :: placeEntry e rest

/-- The slots of the entries that a test picks, in calendar order. -/
def State.slotsWhere (s : State) (p : Entry → Bool) : List SlotId := (s.entries.filter p).map (·.slot)

/-- A port's use count (R30). -/
def State.useCount (s : State) (p : PortId) : Nat :=
  s.entries.countP (fun e => e.voice ≠ chimeVoice && e.port = p)

/-- The chime count (R30). -/
def State.chimeCount (s : State) : Nat := s.entries.countP (fun e => e.voice = chimeVoice)

/-- The entries on a voice. -/
def State.voiceCount (s : State) (v : VoiceId) : Nat := s.entries.countP (fun e => e.voice = v)

/-- The sum of the four quotas. -/
def quotaSum (q : Bank Nat 4) : Nat := q.look 0 + q.look 1 + q.look 2 + q.look 3

/-- The lowest-numbered free slot (R28). -/
def State.freeSlot (s : State) : Option SlotId :=
  (List.finRange 256).find? (fun k => (s.entries.all (fun e => e.slot ≠ k)))

/-- The competing set of a rail: the RELEASED entries whose bars lie on it (R67), in calendar order. -/
def State.members (s : State) (r : RailId) : List Entry :=
  s.entries.filter (fun e => e.state = .released && (s.bar e.bar).rail = some r)

/-! ## Outputs and lines -/

/-- Drive permission is given exactly in PLAYING (R148). -/
def State.permission (s : State) : Bool := s.stage.stage = .playing && !s.power.inReset

/-- ALERT is asserted exactly while the stage is GUARDED or FAULT (R148); RESET releases it (R164). -/
def State.alert (s : State) : Bool :=
  (s.stage.stage = .guarded || s.stage.stage = .fault) && !s.power.inReset

/-- A rail enable is on for a fitted rail in CHARGING, STANDBY, PLAYING and GUARDED (R148). -/
def State.railEnable (s : State) (r : RailId) : Bool :=
  (s.rail r).fitted && !s.power.inReset &&
    (s.stage.stage = .charging || s.stage.stage = .standby || s.stage.stage = .playing || s.stage.stage = .guarded)

/-- A damper drive output is on in LIFTING and OPEN (R93). -/
def State.damperDrive (s : State) (u : UnitId) : Bool :=
  ((s.damper u).state = .lifting || (s.damper u).state = .opened) && !s.power.inReset

/-- SYNC_OUT is high while a pulse is in progress (R20). That an assertion of RESET cuts a pulse is the model's choice (log entry
29). -/
def State.syncOut (s : State) : Bool := s.timeline.syncOutEnd.isSome && !s.power.inReset

/-- READY is held deasserted by RESET or by the power-on fill (R165). -/
def State.held (s : State) : Bool := s.power.inReset || s.power.fill ≠ .none

/-- READY: deasserted during the hold, from a break until the line is high, and while a reply is in progress
(R165, R166, R169). -/
def State.ready (s : State) (p : PortId) : Bool :=
  !s.held && !(s.port p).lineLow && (s.port p).reply.isNone

/-! ## Notices -/

/-- Raising a notice puts it in the port's pending set (R171). -/
def Port.raise (n : Notice) (p : Port) : Port := { p with pendingNotices := p.pendingNotices ||| n.mask }

/-- Raises a notice on one port. -/
def State.raise (n : Notice) (p : PortId) (s : State) : State := s.modPort p (Port.raise n)

/-- Raises a notice on all four ports. -/
def State.raiseAll (n : Notice) (s : State) : State :=
  { s with ports := s.ports.mapWith (fun _ p => p.raise n) }

/-! ## Requests and replies -/

/-- Every frame that passes its check byte restarts the silence timer (R168, R174). -/
def Port.restartSilence (now : Nat) (p : Port) : Port :=
  { p with silenceDue := if p.silenceMs = 0 then none else some (now + p.silenceMs * 1000) }

/-- The part's reply begins: its status, the flags byte composed now, and its results. Placing the overflow flag in it
clears the flag (R170). -/
def Port.answer (kind : Byte) (st : Status) (results : List Byte) (p : Port) : Port :=
  { p with reply := some { kind := kind, payload := st.code :: p.flagsByte :: results }, overflow := false }

/-- The frame is off the receiver: it hunts for the next (R167). -/
def Port.hunt (p : Port) : Port :=
  { p with receiver := .hunt, frameLength := 0, frameKind := 0#8, framePayload := [] }

/-- A start byte discarded while READY is deasserted sets the overflow flag (R169); none is counted while READY is held
deasserted for the fill or for RESET (R165), and no byte is taken while the line is low after a break (R166). -/
def State.loseFrame (p : PortId) (s : State) : State :=
  if s.held || (s.port p).lineLow then s else s.modPort p (fun q => { q with overflow := true })

/-- A request's answer: its status and the results its reply carries under that status. -/
abbrev Result := State × Status × List Byte

/-- A refusal: the state as it was, and no results. -/
def refuse (st : Status) (s : State) : Result := (s, st, [])

/-- A request frame that passes its check byte is taken: the silence timer restarts, the request is carried out, and the reply
is composed after it (R168, R170). With READY deasserted the frame is lost instead (R169). `code` is the request's kind. -/
def request (w : When) (p : PortId) (code : Byte) (body : State → Result) (s : State) : State :=
  let s := s.reach w.time
  if s.ready p then
    let r := body (s.modPort p (fun q => q.hunt.restartSilence s.now))
    r.1.modPort p (Port.answer (code + 0x80#8) r.2.1 r.2.2)
  else s.loseFrame p

end Sys2Proof.Machine
end

