-- ==== Sys2Proof/Machine/Energy.lean ====
section
/-! DEFINITION. Stroke energy and coil heat (spec/04): the five stages of a pulse, the heat added and lost, the press hold's
duty, the gate outputs, and the curve tables' transfer. -/
namespace Sys2Proof.Machine

/-- The heat derate: the strength applied (R84). -/
def derate (s heat soft hard : Nat) : Nat :=
  if heat ≤ soft then s else s - s * (heat - soft) / (2 * (hard - soft))

/-- A point of a curve by its index; an index above 15 reads the last point. -/
def curvePoint (points : Bank Nat 16) (k : Nat) : Nat := points.look ⟨min k 15, by omega⟩

/-- The curve stage: the width read from a table at a strength (R85). -/
def curveWidth (points : Bank Nat 16) (s : Nat) : Nat :=
  let k := s / 17
  let d := s - 17 * k
  if k ≥ 15 then curvePoint points 15
  else curvePoint points k + roundDiv ((curvePoint points (k + 1) - curvePoint points k) * d) 17

/-- The supply stage: the width corrected for the rail's voltage (R86). A sample that is absent or 0 leaves the quotient open:
a free value (log entry 6). -/
def supplyWidth (width nominal : Nat) : Option Nat → Nat
  | some (sample + 1) => roundDiv (width * nominal) (sample + 1)
  | _ => Config.supplyWithoutSample width nominal

/-- The nearest multiple of 10 µs, halves up (R87). -/
def quantize (width : Nat) : Nat := (width + 5) / 10 * 10

/-- The striker's limits: raised to the minimum, lowered to the maximum (R87). -/
def clampPulse (low high width : Nat) : Nat := if width < low then low else if high < width then high else width

/-- What the energy shaper hands back (R83). -/
structure Shaped where
  applied : Nat
  derated : Bool
  pulse : Nat
  deriving DecidableEq, Repr

/-- The pulse of one stroke: derate, curve, supply, quantization, clamp (R83). -/
def shape (strength : Nat) (k : Striker) (live : Bank Nat 16) (r : Rail) : Shaped :=
  let applied := derate strength k.heat k.soft k.hard
  { applied := applied
    derated := applied < strength
    pulse := clampPulse k.minPulse k.maxPulse (quantize (supplyWidth (curveWidth live applied) r.nominal r.lastSample)) }

/-- A cooling step's loss: the larger of 1 and H div 64; an H of 0 is not changed (R89). -/
def cooled (heat : Nat) : Nat := if heat = 0 then 0 else heat - max 1 (heat / 64)

/-- The hold heat of one cooling step (R92). -/
def holdHeat (duty : Nat) : Nat := duty * 25000 / 2560

/-- The segments of a period on which each weight of the duty turns the gate on (R91): bit `j` of the duty, of weight 2^j,
owns the segments that are one less than an odd multiple of 2^(7−j). -/
def segmentOn (duty i : Nat) : Bool :=
  (duty.testBit 7 && i % 2 == 0) || (duty.testBit 6 && i % 4 == 1) || (duty.testBit 5 && i % 8 == 3) ||
  (duty.testBit 4 && i % 16 == 7) || (duty.testBit 3 && i % 32 == 15) || (duty.testBit 2 && i % 64 == 31) ||
  (duty.testBit 1 && i % 128 == 63) || (duty.testBit 0 && i == 127)

/-- The hold time and duty of the press in a slot. -/
def State.pressPart (s : State) (k : Option SlotId) : Option PressPart :=
  match k.bind s.entryAt with
  | some e => match e.part with
    | .press q => some q
    | _ => none
  | none => none

/-- A striker's gate output at the present: on in DRIVE, at the press hold duty in HOLD, off otherwise, and off unless drive
permission is given (R55, R91, R148). -/
def State.gateOn (s : State) (n : StrikerId) : Bool :=
  let k := s.striker n
  s.permission && match k.state with
    | .drive => true
    | .hold => match s.pressPart k.playing, k.holdEnd with
      | some q, some t => segmentOn q.duty ((s.now - (t - q.holdMs * 1000)) % 256)
      | _, _ => false
    | _ => false

/-- Points that do not decrease, each at most 12,000 (R75). -/
def monotonePoints (v : Bank Nat 16) : Bool :=
  (List.range 15).all (fun k => curvePoint v k ≤ curvePoint v (k + 1)) && curvePoint v 15 ≤ 12000

/-- The points of a copy with some values written from an index upward (R77). -/
def writePoints (v : Bank Nat 16) (first : Nat) (points : List Half) : Bank Nat 16 :=
  Bank.mapWith (fun k x =>
    if first ≤ k.1 then (points[k.1 - first]?).elim x BitVec.toNat else x) v

/-- The staging copy of a table copied to its live copy, and its flag cleared (R80). -/
def CurveTable.transfer (c : CurveTable) : CurveTable := { c with live := c.staging, commitPending := false }

/-- The bar line's transfer: every table whose flag is set (R80). -/
def State.transferCurves (s : State) : State :=
  { s with shaper := { s.shaper with
      tables := s.shaper.tables.mapWith (fun _ c => if c.commitPending then c.transfer else c) } }

end Sys2Proof.Machine
end

