-- ==== Sys2Proof/Machine/Dampers.lean ====
section
/-! DEFINITION. The damper units (spec/05): hold lists, lifting, clamping, the stop and the spring return, and the DAMPED test. -/
namespace Sys2Proof.Machine

/-- Hold `a` stands before hold `b`: an earlier end tick, a timed hold before an endless one (R95). -/
def Hold.before (a b : Hold) : Bool :=
  match a.endTick, b.endTick with
  | some x, some y => x < y
  | some _, none => true
  | none, _ => false

/-- Places a hold where the list's order puts it, after the holds it does not stand before (R95). -/
def insertHold (h : Hold) : List Hold → List Hold
  | [] => [h]
  | a :: rest => if h.before a then h :: a :: rest else a :: insertHold h rest

/-- The hold list with a hold that arrives: of a full list the first hold leaves (R95). -/
def admitHold (h : Hold) (l : List Hold) : List Hold := insertHold h (if 16 ≤ l.length then l.drop 1 else l)

/-- The unit enters LIFTING (R98). -/
def Damper.startLift (now : Nat) (d : Damper) : Damper :=
  { d with state := .lifting, liftEnd := some (now + d.lift) }

/-- The unit begins CLAMPING (R101, R104). -/
def Damper.startClamp (now : Nat) (d : Damper) : Damper :=
  { d with state := .clamping, clampEnd := some (now + d.clamp), liftEnd := none, openSince := none, minPassed := false }

/-- The minimum open time has passed: its expiry has been taken, or its time is reached (R101). -/
def Damper.minDone (now : Nat) (d : Damper) : Bool :=
  d.minPassed || (match d.openSince with | some t => t + d.minOpen ≤ now | none => false)

/-- An OPEN unit with an empty list begins CLAMPING once its minimum open time has passed (R101). -/
def Damper.settleOpen (now : Nat) (d : Damper) : Damper :=
  if d.state = .opened && d.holds.isEmpty && d.minDone now then d.startClamp now else d

/-- A hold arrives at the unit (R95, R98). -/
def Damper.arrive (now : Nat) (h : Hold) (d : Damper) : Damper :=
  let d := { d with holds := admitHold h d.holds }
  if d.state = .clamped then d.startLift now else d

/-- Holds are removed by a test; the unit acts where that leaves its list empty (R97, R100, R105). -/
def Damper.drop (now : Nat) (gone : Hold → Bool) (d : Damper) : Damper :=
  if d.holds.any gone then { d with holds := d.holds.filter (fun h => !gone h) }.settleOpen now else d

/-- The stop: every hold leaves, and the unit acts on its state (R103). -/
def Damper.stopped (now : Nat) (d : Damper) : Damper := { d with holds := [] }.settleOpen now

/-- The spring return: every hold leaves, and a LIFTING or OPEN unit begins CLAMPING at once (R104). -/
def Damper.springReturn (now : Nat) (d : Damper) : Damper :=
  let d := { d with holds := [] }
  if d.state = .lifting || d.state = .opened then d.startClamp now else d

/-- Lift completion (R99): OPEN, and CLAMPING at once where the list is empty and the minimum open time is 0. -/
def Damper.lifted (now : Nat) (d : Damper) : Damper :=
  { d with state := .opened, liftEnd := none, openSince := some now, minPassed := false }.settleOpen now

/-- The expiry of the minimum open time (R101). -/
def Damper.minExpired (now : Nat) (d : Damper) : Damper := { d with minPassed := true }.settleOpen now

/-- Clamp completion (R102). -/
def Damper.clamped (now : Nat) (d : Damper) : Damper :=
  let d := { d with clampEnd := none }
  if d.holds.isEmpty then { d with state := .clamped } else d.startLift now

/-- A change made to every unit. -/
def State.allDampers (f : Damper → Damper) (s : State) : State :=
  { s with dampers := s.dampers.mapWith (fun _ d => f d) }

/-- The units' part of one tick expiry: timed holds whose end tick is at or below the position leave (R100). -/
def State.holdEnds (s : State) : State :=
  s.allDampers (Damper.drop s.now (fun h => match h.endTick with | some t => t ≤ s.timeline.position | none => false))

/-- A released entry's sustain places a hold on its bar's unit (R96, R37). -/
def State.placeHold (bar : BarId) (voice : VoiceId) (endTick : Nat) (s : State) : State :=
  match (s.bar bar).damper with
  | some u =>
    if endTick ≤ s.timeline.position then s
    else s.modDamper u (Damper.arrive s.now { voice := voice, bar := some bar, endTick := some endTick })
  | none => s

/-- An endless hold of a voice. -/
def Hold.pedalOf (v : VoiceId) (h : Hold) : Bool := h.endTick.isNone && h.voice = v

/-- A closed voice's endless holds leave every unit (R105). -/
def State.dropPedals (v : VoiceId) (s : State) : State := s.allDampers (Damper.drop s.now (Hold.pedalOf v))

/-- The unit's open-by time (R106). -/
def Damper.openBy (now : Nat) (d : Damper) : Option Nat :=
  match d.state with
  | .opened => some now
  | .lifting => d.liftEnd
  | .clamping => if d.holds.isEmpty then none else d.clampEnd.map (· + d.lift)
  | .clamped => none

/-- The DAMPED flag of a stroke granted now on a bar (R106). -/
def State.damped (s : State) (b : Bar) : Bool :=
  match b.damper with
  | none => false
  | some u => match (s.damper u).openBy s.now with
    | none => true
    | some t => s.now + (s.timeline.times b.cls).lead < t

end Sys2Proof.Machine
end

