-- ==== Sys2Proof/Machine/Calendar.lean ====
section
/-! DEFINITION. The stroke calendar (spec/02) and the echo queues (spec/07): an entry's record and its leaving, release with its
tests, unison merge, a roll's next stroke, admission, cancelling and flushing. -/
namespace Sys2Proof.Machine

/-! ## Echo queues -/

/-- ECHO_LEVEL is raised where the occupancy stands at or above the watermark (R145). -/
def Port.levelCheck (p : Port) : Port := if p.watermark ≤ p.echo.length then p.raise .echoLevel else p

/-- A record offered to the port's queue: accepted, with LOST where the lost mark was set, or discarded (R143, R145). -/
def Port.offer (r : EchoRecord) (p : Port) : Port :=
  if p.echo.length < 128 then
    { p with echo := p.echo ++ [{ r with flags := { r.flags with lost := p.lost } }], lost := false }.levelCheck
  else { p with lost := true }

/-- The record that the calendar composes at an entry's leaving (R142). NO_LISTEN stands wherever no window opened for the
stroke (log entry 7). -/
def Entry.echo (e : Entry) (o : EntryOutcome) : EchoRecord where
  voice := e.voice
  tag := e.tag
  bar := e.bar
  due := match e.part with
    | .roll r => r.firstDue
    | _ => e.due
  kind := e.part.code
  strength := e.strength
  fire := if e.part.isRoll then none else e.fire
  outcome := o
  flags := { e.flags with noListen := e.flags.noListen || e.part.isRoll || !e.listened, lost := false }
  peak := e.peak
  counts := match e.part with
    | .roll r => some (r.played, r.missed)
    | _ => none

/-- The players that an entry's leaving tells: those of the reporting port's voices, or the chime player for voice 15
(R30, R121). -/
def State.concerns (s : State) (e : Entry) (v : VoiceId) : Bool :=
  if e.voice = chimeVoice then v = chimeVoice else v ≠ chimeVoice && (s.voice v).owner = some e.port

/-- The STALLED players that a test picks are told (R121); each resumes by its own PLAYER_STALL_RESUME. -/
def State.tell (picked : VoiceId → Bool) (s : State) : State :=
  { s with players := s.players.mapWith (fun v q =>
      if q.state = .stalled && picked v then { q with told := true } else q) }

/-- The entry in a slot leaves the calendar with its outcome (R49): its slot is freed, its record is offered where its report
mark is set, and the players concerned are told (R30). -/
def State.leave (k : SlotId) (o : EntryOutcome) (s : State) : State :=
  match s.entryAt k with
  | none => s
  | some e =>
    let s := { s with entries := s.entries.filter (fun d => d.slot ≠ k) }
    let s := if e.report then s.modPort e.port (Port.offer (e.echo o)) else s
    s.tell (s.concerns e)

/-- Several entries leave one after another with one outcome. -/
def State.leaveAll (o : EntryOutcome) : List SlotId → State → State
  | [], s => s
  | k :: rest, s => State.leaveAll o rest (s.leave k o)

/-! ## Release -/

/-- The arbiter of a rail has a decision to take (R68). -/
def State.wake (r : RailId) (s : State) : State := { s with decisions := s.decisions ++ [r] }

/-- A WAITING entry is releasable when its due tick less its class's lead ticks, or 0, is at or below the position (R33). -/
def State.releasable (s : State) (e : Entry) : Bool :=
  e.state = .waiting && e.due - (s.timeline.times (s.bar e.bar).cls).leadTicks ≤ s.timeline.position

/-- The offset of a due tick in wall µs: (due − position) × P / 8, floored; negative below the position (R35). -/
def Timeline.offset (t : Timeline) (due : Nat) : Int := (((due : Int) - t.position) * t.period) / 8

/-- The target fire time and the deadline of a release now; none where the deadline is already past (R35). -/
def State.fireTimes (s : State) (due : Nat) (c : ClassTimes) : Option (Nat × Nat) :=
  let offset := s.timeline.offset due
  if offset + c.slip < c.lead then none
  else
    let ideal : Int := s.now + offset - c.lead
    some ((max ideal s.now).toNat, (ideal + c.slip).toNat)

/-- The RELEASED, ungranted SINGLE with an entry's bar and due tick (R36). -/
def State.partner (s : State) (e : Entry) : Option Entry :=
  s.entries.find? (fun d => d.slot ≠ e.slot && d.state = .released && d.part = .single && d.bar = e.bar && d.due = e.due)

/-- The entry becomes RELEASED (R37): it keeps its times, joins its rail's set, which is an event for the rail's arbiter, and
its sustain places a hold. -/
def State.join (k : SlotId) (target deadline : Nat) (s : State) : State :=
  match s.entryAt k with
  | none => s
  | some e =>
    let s := s.modEntry k (fun d => { d with
      state := .released, target := some target, deadline := some deadline, targetReached := target ≤ s.now })
    let s := match e.sustain with
      | some n => s.placeHold e.bar e.voice (e.due + n)
      | none => s
    match (s.bar e.bar).rail with
    | some r => s.wake r
    | none => s

/-- Releasing the entry in a slot: the five tests of R34 in order, then R37. -/
def State.release (k : SlotId) (s : State) : State :=
  match s.entryAt k with
  | none => s
  | some e =>
    let chopped := match e.part with | .roll r => r.chopMark | _ => false
    let bar := s.bar e.bar
    if chopped then s.leave k .chopped
    else if s.candidates bar = [] then s.leave k .noStriker
    else if s.stage.stage ≠ .playing then s.leave k .droppedStage
    else match s.fireTimes e.due (s.timeline.times bar.cls) with
      | none => s.leave k .droppedLate
      | some (target, deadline) =>
        match (if e.part = .single then s.partner e else none) with
        | none => s.join k target deadline
        | some d =>
          if e.strength > d.strength || (e.strength = d.strength && e.seq < d.seq) then
            (s.leave d.slot .merged).join k target deadline
          else s.leave k .merged

/-! ## Rolls -/

/-- The roll part of an entry changed. -/
def Entry.modRoll (f : RollPart → RollPart) (e : Entry) : Entry :=
  match e.part with
  | .roll r => { e with part := .roll (f r) }
  | _ => e

/-- A ROLL returns to WAITING: its due tick advances by the spacing, its target and deadline are discarded, it moves to its new
place in the order, and it is tested at once for release (R43, R29, R33). -/
def State.returnRoll (e : Entry) (spacing : Nat) (s : State) : State :=
  let e' := { e with
    due := e.due + spacing, state := .waiting, target := none, deadline := none, targetReached := false }
  let s := { s with entries := placeEntry e' (s.entries.filter (fun d => d.slot ≠ e.slot)) }
  if s.releasable e' then s.release e.slot else s

/-- The end of a roll's stroke, played or missed, after its count has risen (R43, R44). -/
def State.strokeEnd (k : SlotId) (s : State) : State :=
  match s.entryAt k with
  | none => s
  | some e => match e.part with
    | .roll r =>
      if r.count ≤ r.played + r.missed then s.leave k .rollDone
      else if r.flushMark then s.leave k .flushed
      else s.returnRoll e r.spacing
    | _ => s

/-- A roll's stroke is played (R43). -/
def State.playStroke (k : SlotId) (s : State) : State :=
  (s.modEntry k (Entry.modRoll (fun r => { r with played := r.played + 1 }))).strokeEnd k

/-- A roll's stroke is missed (R44). -/
def State.missStroke (k : SlotId) (s : State) : State :=
  (s.modEntry k (Entry.modRoll (fun r => { r with missed := r.missed + 1 }))).strokeEnd k

/-- The arbiter removes a RELEASED entry from its set with a reason (R39, R44). -/
def State.removeMember (k : SlotId) (reason : EntryOutcome) (s : State) : State :=
  match s.entryAt k with
  | none => s
  | some e => if e.part.isRoll && reason ≠ .noStriker then s.missStroke k else s.leave k reason

/-- The arbiter removes several entries one after another with one reason. -/
def State.removeMembers (reason : EntryOutcome) : List SlotId → State → State
  | [], s => s
  | k :: rest, s => State.removeMembers reason rest (s.removeMember k reason)

/-! ## Cancelling and flushing -/

/-- Whether an entry is flushed with its voice: WAITING or RELEASED (R47). -/
def Entry.flushable (v : VoiceId) (e : Entry) : Bool := e.voice = v && e.state ≠ .firing

/-- Whether an entry receives the flush mark: a FIRING ROLL of the voice (R47). -/
def Entry.markable (v : VoiceId) (e : Entry) : Bool := e.voice = v && e.state = .firing && e.part.isRoll

/-- Flushes a voice (R47): the state, the number of entries flushed and the number of FIRING ROLL entries that received the
flush mark, which each of the voice's does. -/
def State.flushVoice (v : VoiceId) (s : State) : State × Nat × Nat :=
  let gone := s.slotsWhere (Entry.flushable v)
  let marked := s.entries.countP (Entry.markable v)
  let s := { s with entries := s.entries.map (fun e =>
    if e.markable v then e.modRoll (fun r => { r with flushMark := true }) else e) }
  (State.leaveAll .flushed gone s, gone.length, marked)

/-! ## Admission -/

/-- What a request or a step asks the calendar to admit (R31). -/
structure Ask where
  voice : VoiceId
  bar : BarId
  due : Nat
  strength : Nat
  tag : Byte
  sustain : Option Nat
  part : StrokePart
  deriving DecidableEq, Repr

/-- The roll part that a request or a step asks for: its count and spacing; admission sets the rest (R32). -/
def RollPart.asked (count spacing : Nat) : RollPart where
  count := count
  spacing := spacing
  firstDue := 0
  played := 0
  missed := 0
  chopMark := false
  flushMark := false

/-- The due of the last stroke (R31, check 4). -/
def Ask.lastDue (a : Ask) : Nat :=
  match a.part with
  | .roll r => a.due + (r.count - 1) * r.spacing
  | _ => a.due

/-- Check 3 of R31. -/
def Ask.inRange (a : Ask) : Bool :=
  a.strength ≠ 0 && a.sustain ≠ some 0 && match a.part with
    | .single => true
    | .roll r => 2 ≤ r.count && r.count ≤ 32 && 1 ≤ r.spacing && r.spacing ≤ 240
    | .press q => 5 ≤ q.holdMs && q.holdMs ≤ 400 && 1 ≤ q.duty && q.duty ≤ 255

/-- Check 4 of R31. -/
def Ask.inTicks (a : Ask) : Bool := a.lastDue + a.sustain.getD 0 ≤ maxTick

/-- Check 5 of R31: the quota, the chime reserve or the calendar is full (R30). -/
def State.calendarFull (s : State) (v : VoiceId) (p : PortId) : Bool :=
  s.entries.length ≥ 256 ||
    if v = chimeVoice then s.chimeCount ≥ 32 else s.useCount p ≥ s.quotas.look p

/-- Checks 2 to 5 of R31: the first refusal found. -/
def State.askRefusal (s : State) (a : Ask) (p : PortId) : Option Status :=
  if a.bar.1 < (s.voice a.voice).low || (s.voice a.voice).high < a.bar.1 then some .range
  else if !a.inRange then some .range
  else if !a.inTicks then some .range
  else if s.calendarFull a.voice p then some .full
  else none

/-- The entry that an admission makes (R28, R32). -/
def Ask.entry (a : Ask) (p : PortId) (slot : SlotId) (seq : Nat) : Entry where
  slot := slot
  voice := a.voice
  port := p
  report := true
  bar := a.bar
  due := a.due
  part := match a.part with
    | .roll r => .roll { r with firstDue := a.due, played := 0, missed := 0, chopMark := false, flushMark := false }
    | q => q
  strength := a.strength
  sustain := a.sustain
  tag := a.tag
  seq := seq
  state := .waiting
  target := none
  deadline := none
  targetReached := false
  fire := none
  flags := {}
  peak := none
  listened := false
  wasCut := false

/-- What an admission answers. -/
inductive Admission where
  | refused (st : Status)
  | admitted (slot : SlotId) (seq : Nat)
  deriving DecidableEq, Repr

/-- Admission (R31, R32) for a reporting port, the ownership of the voice having been checked. -/
def State.admitEntry (a : Ask) (p : PortId) (s : State) : State × Admission :=
  match s.askRefusal a p, s.freeSlot with
  | some st, _ => (s, .refused st)
  | none, none => (s, .refused .full)
  | none, some slot =>
    let e := a.entry p slot s.nextSeq
    let s := { s with entries := placeEntry e s.entries, nextSeq := s.nextSeq + 1 }
    (if s.releasable e then s.release slot else s, .admitted slot e.seq)

end Sys2Proof.Machine
end

