-- ==== Sys2Proof/Machine/Arbiter.lean ====
section
/-! DEFINITION. The fire arbiters (spec/03): a rail's decision, the choice of stroke and of striker, the grant, and the
decisions that a command leaves to be taken. -/
namespace Sys2Proof.Machine

/-- A member is eligible when its target is at or before now and its deadline has not passed (R69). -/
def Entry.eligible (now : Nat) (e : Entry) : Bool :=
  (match e.target with | some t => t ≤ now | none => false) &&
  (match e.deadline with | some d => now ≤ d | none => false)

/-- All candidates of a member's bar are hot (R69). -/
def State.allHot (s : State) (e : Entry) : Bool := (s.candidates (s.bar e.bar)).all (fun n => (s.striker n).hot)

/-- Stroke `a` is granted before stroke `b`: higher priority, then earlier target, then earlier arrival (R69). -/
def State.granted_before (s : State) (a b : Entry) : Bool :=
  let pa := (s.voice a.voice).priority
  let pb := (s.voice b.voice).priority
  let ta := a.target.getD 0
  let tb := b.target.getD 0
  pb < pa || (pa = pb && (ta < tb || (ta = tb && a.seq < b.seq)))

/-- The stroke that the keys of R69 choose. -/
def State.firstStroke (s : State) : List Entry → Option Entry
  | [] => none
  | e :: rest => match s.firstStroke rest with
    | none => some e
    | some d => if s.granted_before d e then some d else some e

/-- The rank of a striker for a stroke, lowest first (R70): heat, fired-last mark, number for a SINGLE or PRESS; mark, heat,
number for a ROLL. -/
def strikerRank (roll : Bool) (k : Striker) (n : StrikerId) : Nat × Nat × Nat :=
  if roll then (k.firedLast.toNat, k.heat, n.1) else (k.heat, k.firedLast.toNat, n.1)

/-- One rank lies below another. -/
def rankBelow (a b : Nat × Nat × Nat) : Bool :=
  a.1 < b.1 || (a.1 = b.1 && (a.2.1 < b.2.1 || (a.2.1 = b.2.1 && a.2.2 < b.2.2)))

/-- The striker chosen for a stroke among those that are ready (R70). -/
def State.chooseStriker (s : State) (roll : Bool) : List StrikerId → Option StrikerId
  | [] => none
  | n :: rest => match s.chooseStriker roll rest with
    | none => some n
    | some m => if rankBelow (strikerRank roll (s.striker m) m) (strikerRank roll (s.striker n) n) then some m else some n

/-- The striker's part of a grant (R71, R88). -/
def Striker.fire (now pulse : Nat) (slot : SlotId) (k : Striker) : Striker :=
  { k with
    state := .drive
    heat := k.heat + pulse / 10
    lastFire := some now
    driveEnd := some (now + pulse)
    holdEnd := none
    recoveryEnd := some (now + k.recovery)
    firedLast := true
    playing := some slot }

/-- The rail's part of a grant (R64). -/
def Rail.fire (now : Nat) (r : Rail) : Rail :=
  { r with
    recent := r.recent ++ [now]
    spacingEnd := if r.spacing = 0 then none else some (now + r.spacing) }

/-- The entry's part of a grant (R38, R71): a ROLL keeps no fire details, and the flags of any of its strokes stay. -/
def Entry.fired (now : Nat) (n : StrikerId) (x : Shaped) (damped : Bool) (e : Entry) : Entry :=
  { e with
    state := .firing
    fire := if e.part.isRoll then none else
      some { striker := n, offset := now - e.target.getD now, applied := x.applied, pulse := x.pulse }
    flags := { e.flags with derated := e.flags.derated || x.derated, damped := e.flags.damped || damped } }

/-- The grant of a stroke to a striker, taken whole (R71). -/
def State.grant (e : Entry) (n : StrikerId) (s : State) : State :=
  let k := s.striker n
  let x := shape e.strength k (s.table k.table).live (s.rail (railOf n))
  let bar := s.bar e.bar
  let damped := s.damped bar
  let s := (bar.strikers.filter (· ≠ n)).foldl (fun s m => s.modStriker m (fun k => { k with firedLast := false })) s
  ((s.modStriker n (Striker.fire s.now x.pulse e.slot)).modRail (railOf n) (Rail.fire s.now)).modEntry e.slot
    (Entry.fired s.now n x damped)

/-- One decision of a rail's arbiter (R69): the members whose candidates are all hot leave first, then at most one stroke is
granted; after a grant the arbiter decides again. -/
def State.arbitrate (r : RailId) (s : State) : State :=
  if s.stage.stage ≠ .playing || !(s.rail r).free then s
  else
    let eligible := (s.members r).filter (Entry.eligible s.now)
    let hot := eligible.filter s.allHot
    let grantable := eligible.filter (fun e => !s.allHot e && !(s.readyStrikers (s.bar e.bar)).isEmpty)
    let s := State.removeMembers .droppedHot (hot.map (·.slot)) s
    match s.firstStroke grantable with
    | none => s
    | some e => match s.chooseStriker e.part.isRoll (s.readyStrikers (s.bar e.bar)) with
      | none => s
      | some n => (s.grant e n).wake r

/-- How many more decisions an entry can give rise to: a grant, and for a ROLL a miss and a grant for each stroke left. -/
def Entry.strokesLeft (e : Entry) : Nat :=
  1 + match e.part with
    | .roll r => 2 * (r.count - (r.played + r.missed))
    | _ => 0

/-- Takes the decisions on the worklist, at most as many as the first argument says. -/
def State.settleUpTo : Nat → State → State
  | 0, s => s
  | n + 1, s => match s.decisions with
    | [] => s
    | r :: rest => State.settleUpTo n (State.arbitrate r { s with decisions := rest })

/-- Takes every decision that is to be taken, one after another (R68). The bound is never what ends it: each decision but the
last grants a stroke, and each further one stands for a stroke that a roll missed. -/
def State.settle (s : State) : State :=
  { State.settleUpTo (s.decisions.length + (s.entries.map Entry.strokesLeft).sum + 1) s with decisions := [] }

/-- After an entry has joined its set, or might have: the decisions are taken now where the command's choice says so (R36, R68;
log entry 3). -/
def State.settleAtJoin (o : Interleaving) (s : State) : State := if o.deciding = .join then s.settle else s

/-- After a block has finished its work at an expiry: the decisions are taken now, unless they wait for the other blocks. -/
def State.settleAtBlock (o : Interleaving) (s : State) : State := if o.deciding = .last then s else s.settle

end Sys2Proof.Machine
end

