-- ==== Sys2Proof/Machine/Strikers.lean ====
section
/-! DEFINITION. The strikers' own life (spec/03): recovery, locking and the silence verdict, hold ends, cuts, and the cooling
step (spec/04). -/
namespace Sys2Proof.Machine

/-- A listen window of the entry in a slot is open, or was closed early and waits for its last conversion (R137, R140). -/
def State.windowFor (s : State) (k : SlotId) : Bool :=
  s.sense.windows.any (fun w => w.slot = k) ||
    (match s.sense.closing with | some w => w.slot = k | none => false)

/-- A striker's entry into LOCKED, handed to its rail's arbiter: where its bar now has no candidate, every member of the bar
leaves with NO_STRIKER (R60, R73). -/
def State.enterLocked (n : StrikerId) (s : State) : State :=
  let s := (s.modStriker n (fun k => { k with state := .locked, lockPending := false, recoveryEnd := none })).raiseAll
    .strikerLocked
  match (s.striker n).bar with
  | none => s
  | some b =>
    if s.candidates (s.bar b) = [] then
      State.removeMembers .noStriker (s.slotsWhere (fun e => e.state = .released && e.bar = b)) s
    else s

/-- A recovery end: LOCKED where a lock is pending, and IDLE otherwise, which is an event for the rail's arbiter (R58, R68). -/
def State.recovered (n : StrikerId) (s : State) : State :=
  if (s.striker n).lockPending then s.enterLocked n
  else (s.modStriker n (fun k => { k with state := .idle, recoveryEnd := none })).wake (railOf n)

/-- RECOVER until the recovery end, or straight to the state of a recovery end that has been reached (R56, R57). -/
def State.startRecover (n : StrikerId) (s : State) : State :=
  let s := s.modStriker n (fun k => { k with state := .recover, driveEnd := none, holdEnd := none, playing := none })
  match (s.striker n).recoveryEnd with
  | some t => if s.now < t then s else s.recovered n
  | none => s.recovered n

/-- The verdict of a listen window on the striker that fired the stroke (R60). -/
def State.verdict (n : StrikerId) (silent : Bool) (s : State) : State :=
  if silent then
    let s := s.modStriker n (fun k => { k with silentCount := min 255 (k.silentCount + 1) })
    let k := s.striker n
    if k.lockThreshold ≠ 0 && k.lockThreshold ≤ k.silentCount then
      match k.state with
      | .idle => s.enterLocked n
      | .locked => s
      | _ => s.modStriker n (fun k => { k with lockPending := true })
    else s
  else s.modStriker n (fun k => { k with silentCount := 0 })

/-- An entry's flags changed. -/
def State.flag (k : SlotId) (f : EchoFlags → EchoFlags) (s : State) : State :=
  s.modEntry k (fun e => { e with flags := f e.flags })

/-- A hold end: the striker recovers, and the PRESS leaves with PLAYED where no window of it remains to close (R57, R40). A
hold ended by the heat limit carries DERATED. The striker is first (log entry 15). -/
def State.holdEnded (n : StrikerId) (early : Bool) (s : State) : State :=
  match (s.striker n).playing with
  | none => s.startRecover n
  | some k =>
    let s := if early then s.flag k (fun f => { f with derated := true }) else s
    let s := s.startRecover n
    if s.windowFor k then s else s.leave k .played

/-- A cut striker: its gate is off, and it recovers for its full recovery time from now (R59). -/
def Striker.cut (now : Nat) (k : Striker) : Striker :=
  if k.state = .drive || k.state = .hold then
    { k with state := .recover, driveEnd := none, holdEnd := none, recoveryEnd := some (now + k.recovery), playing := none }
  else k

/-- The striker that drives or holds the stroke of the entry in a slot. -/
def State.strikerOf (s : State) (k : SlotId) : Option StrikerId :=
  (List.finRange 96).find? (fun n =>
    (s.striker n).playing = some k && ((s.striker n).state = .drive || (s.striker n).state = .hold))

/-- The calendar's part of a cut (R41): a ROLL leaves whole with its cut stroke missed, a stroke with a window open waits for its
close, any other leaves at the cut. -/
def State.cutEntry (k : SlotId) (s : State) : State :=
  match s.entryAt k with
  | none => s
  | some e =>
    if e.part.isRoll then
      (s.modEntry k (Entry.modRoll (fun r => { r with missed := r.missed + 1 }))).leave k .wasCut
    else if s.windowFor k then s.modEntry k (fun e => { e with wasCut := true })
    else s.leave k .wasCut

/-- The calendar's part of the stage leaving PLAYING, entry by entry in calendar order: RELEASED entries drop, cut ones leave as
R41 gives. `before` is the state at the report. -/
def State.dropOrCut (before : State) : List SlotId → State → State
  | [], s => s
  | k :: rest, s =>
    let s := match before.entryAt k with
      | some e => match e.state with
        | .released => s.leave k .droppedStage
        | .firing => if (before.strikerOf k).isSome then s.cutEntry k else s
        | .waiting => s
      | none => s
    State.dropOrCut before rest s

/-- The stage has left PLAYING (R155): drives and holds are cut, RELEASED entries drop, the dampers spring-return. -/
def State.leavePlaying (s : State) : State :=
  let cut := { s with strikers := s.strikers.mapWith (fun _ k => k.cut s.now) }
  (State.dropOrCut s (s.entries.map (·.slot)) cut).allDampers (Damper.springReturn s.now)

/-- What a cooling step does to one striker's heat; `duty` is the hold duty of a striker in HOLD (R57, R89, R92). -/
def Striker.coolWith (duty : Option Nat) (k : Striker) : Striker :=
  match duty with
  | some d => { k with heat := cooled (if k.hard ≤ k.heat + holdHeat d then k.hard else k.heat + holdHeat d) }
  | none => { k with heat := cooled k.heat }

/-- The hold duty of a striker in HOLD. -/
def State.dutyOf (s : State) (n : StrikerId) : Option Nat :=
  if (s.striker n).state = .hold then (s.pressPart (s.striker n).playing).map (·.duty) else none

/-- The hold heat of the step brings the striker's H to Hh or above, so that its hold ends (R57, R92). -/
def State.holdOverheats (s : State) (n : StrikerId) : Bool :=
  match s.dutyOf n with
  | some d => (s.striker n).hard ≤ (s.striker n).heat + holdHeat d
  | none => false

/-- The holds that end at a cooling step, in calendar order of their entries (R49). -/
def State.overheated (s : State) : List StrikerId :=
  s.entries.filterMap (fun e => match s.strikerOf e.slot with
    | some n => if s.holdOverheats n then some n else none
    | none => none)

/-- Several holds end early, one after another. -/
def State.endHolds : List StrikerId → State → State
  | [], s => s
  | n :: rest, s => State.endHolds rest (s.holdEnded n true)

/-- A cooling step of all 96 strikers (R89): hold heat, the loss, and the holds that the heat limit ends. -/
def State.coolAll (s : State) : State :=
  let ends := s.overheated
  State.endHolds ends
    { s with strikers := s.strikers.mapWith (fun n k => k.coolWith (s.dutyOf n)) }

end Sys2Proof.Machine
end

