-- ==== Sys2Proof/Machine/Sensing.lean ====
section
/-! DEFINITION. The sense unit (spec/07): the converter, listen windows and their verdicts, and the drive end that opens them. -/
namespace Sys2Proof.Machine

/-! ## The converter -/

/-- The converter's order (R131): window samples before the rail conversion, the earliest due first, then the lower number. -/
def Waiting.rank (x : Waiting) : Nat × Nat × Nat :=
  match x.input with
  | .pickup k => (0, x.came, k.1)
  | .rail r => (1, x.came, r.1)

/-- The waiting conversion that the converter takes next (R131). -/
def firstWaiting : List Waiting → Option Waiting
  | [] => none
  | x :: rest => match firstWaiting rest with
    | none => some x
    | some y => if rankBelow y.rank x.rank then some y else some x

/-- The converter starts a conversion: 10 µs, at the gain now in force (R131, R132). -/
def Sense.startConversion (now : Nat) (x : Waiting) (n : Sense) : Sense :=
  { n with conv := some {
      input := x.input
      came := x.came
      done := now + 10
      gain := match x.input with
        | .pickup k => (n.pickups.look k).gain
        | .rail _ => 1 } }

/-- A window closed early counts on the conversion of an input (R140), which is then in progress and never interrupted (R131;
log entry 25). -/
def Sense.committed (input : SenseInput) (n : Sense) : Bool :=
  match n.closing with
  | some w => input = .pickup w.pickup
  | none => false

/-- A conversion comes due (R131): it starts at once at a free converter and waits at a busy one. One that comes due at the
instant at which another, also due at that instant, has started is chosen among with it by the same order (log entry 25). -/
def Sense.ask (now : Nat) (input : SenseInput) (n : Sense) : Sense :=
  let x : Waiting := { input := input, came := now }
  match n.conv with
  | none => n.startConversion now x
  | some c =>
    let y : Waiting := { input := c.input, came := c.came }
    if c.came = now && c.done = now + 10 && !n.committed c.input && rankBelow x.rank y.rank then
      { n with waiting := n.waiting ++ [y] }.startConversion now x
    else { n with waiting := n.waiting ++ [x] }

/-- The conversion in progress completes, and the next that waits starts at that instant (R131). -/
def Sense.next (now : Nat) (n : Sense) : Sense :=
  match firstWaiting n.waiting with
  | none => { n with conv := none }
  | some x => { n with waiting := n.waiting.erase x }.startConversion now x

/-- The figure that a pickup's conversion delivers: the input, in eighths of a gain-1 count, times the gain, held at −32,768
or 32,767 (R132; the fraction below one count is dropped, log entry 8). -/
def pickupFigure (input : Int) (gain : Nat) : Int := max (-32768) (min 32767 (input * gain / 8))

/-- The absolute value of a figure, −32,768 taken as 32,767 (R138). -/
def figurePeak (figure : Int) : Nat := min 32767 figure.natAbs

/-- A completed sample counts in its window (R138). -/
def Window.sample (peak : Nat) (w : Window) : Window :=
  { w with samples := w.samples + 1, peak := some (max (w.peak.getD 0) peak) }

/-! ## Closing a window -/

/-- A window's close handed to the calendar (R139, R40, R41): the entry gets what the window found and leaves, unless its press is
still held by the striker. -/
def State.windowClosed (n : StrikerId) (k : SlotId) (f : Entry → Entry) (s : State) : State :=
  let s := s.modEntry k f
  match s.entryAt k with
  | none => s
  | some e =>
    if e.wasCut then s.leave k .wasCut
    else if (s.striker n).playing = some k then s
    else s.leave k .played

/-- A window is judged (R139, R140): its verdict goes to the striker and its close to the calendar; with no peak there is no
verdict, and the stroke carries NO_LISTEN. -/
def State.judge (w : Window) (s : State) : State :=
  match s.entryAt w.slot with
  | none => s
  | some e => match w.peak with
    | none => s.windowClosed w.striker w.slot (fun e => { e with flags := { e.flags with noListen := true } })
    | some peak =>
      let silent := decide (peak < (s.bar e.bar).threshold)
      (s.verdict w.striker silent).windowClosed w.striker w.slot (fun e =>
        { e with peak := some peak, flags := { e.flags with silent := silent } })

/-- The open window on a pickup. -/
def Sense.windowOn (n : Sense) (k : PickupId) : Option Window := n.windows.find? (fun w => w.pickup = k)

/-- The sense unit without the open window on a pickup. -/
def Sense.removeWindow (k : PickupId) (n : Sense) : Sense :=
  { n with windows := n.windows.filter (fun w => w.pickup ≠ k) }

/-- The conversion in progress is a sample of the window open on a pickup, not of one closed early. -/
def Sense.converting (n : Sense) (k : PickupId) : Bool :=
  (match n.conv with | some c => c.input = .pickup k | none => false) &&
    (match n.closing with | some w => w.pickup ≠ k | none => true)

/-- A sample of the window open on a pickup has come due and has not completed (R139). -/
def Sense.sampleOutstanding (n : Sense) (k : PickupId) : Bool :=
  n.converting k || n.waiting.any (fun x => x.input = .pickup k)

/-- A window closes and is judged (R139). -/
def State.closeWindow (w : Window) (s : State) : State := (s.modSense (Sense.removeWindow w.pickup)).judge w

/-- A new stroke on the pickup closes its window early (R140): a waiting sample is discarded, a conversion in progress is
waited for. -/
def State.closeEarly (w : Window) (s : State) : State :=
  let running := s.sense.converting w.pickup
  let s := s.modSense (fun n => { n.removeWindow w.pickup with
    waiting := n.waiting.filter (fun x => x.input ≠ .pickup w.pickup) })
  if running then s.modSense (fun n => { n with closing := some w }) else s.judge w

/-- The sense unit's part of a drive end (R137): whether a listen window opens for the stroke, and the window. -/
def State.openWindow (n : StrikerId) (k : SlotId) (fired : Nat) (s : State) : State × Bool :=
  match (s.entryAt k).bind (fun e => (s.bar e.bar).pickup) with
  | none => (s, false)
  | some q =>
    let s := match s.sense.windowOn q with
      | some w => s.closeEarly w
      | none => s
    if 8 ≤ s.sense.windows.length then (s, false)
    else
      let w : Window := {
        pickup := q
        slot := k
        striker := n
        closeTime := fired + (s.sense.pickups.look q).length
        nextSample := s.now + 250
        samples := 0
        peak := none }
      (s.modSense (fun m => { m with windows := m.windows ++ [w] }.ask s.now (.pickup q)), true)

/-- The entry's part of an opened or unopened window: it waits for the close, or carries NO_LISTEN (R40, R137). -/
def Entry.heard (opened : Bool) (e : Entry) : Entry :=
  { e with listened := e.listened || opened, flags := { e.flags with noListen := e.flags.noListen || !opened } }

/-- The drive end of a PRESS (R56): HOLD, or at once a hold end where the striker is hot. -/
def State.pressDriven (n : StrikerId) (k : SlotId) (q : PressPart) (fired : Nat) (s : State) : State :=
  let hot := (s.striker n).hot
  let s := s.modStriker n (fun x =>
    { x with state := .hold, driveEnd := none, holdEnd := some (s.now + if hot then 0 else q.holdMs * 1000) })
  let (s, opened) := s.openWindow n k fired
  let s := s.modEntry k (Entry.heard opened)
  if hot then s.holdEnded n true else s

/-- The drive end of a SINGLE (R56, R40), the striker first (log entry 15). -/
def State.singleDriven (n : StrikerId) (k : SlotId) (fired : Nat) (s : State) : State :=
  let (s, opened) := (s.startRecover n).openWindow n k fired
  let s := s.modEntry k (Entry.heard opened)
  if opened then s else s.leave k .played

/-- A striker's drive end (R56): the sense unit first, then the calendar. A roll stroke opens no window. -/
def State.driveEnded (n : StrikerId) (s : State) : State :=
  let fired := (s.striker n).lastFire.getD s.now
  match (s.striker n).playing with
  | none => s.startRecover n
  | some k => match s.entryAt k with
    | none => s.startRecover n
    | some e => match e.part with
      | .press q => s.pressDriven n k q fired
      | .single => s.singleDriven n k fired
      | .roll _ => (s.startRecover n).playStroke k

/-- A figure is delivered to the window open on a pickup, which closes now where its close time is reached (R138, R139). -/
def State.deliverOpen (k : PickupId) (peak : Nat) (s : State) : State :=
  match s.sense.windowOn k with
  | none => s
  | some w =>
    if w.closeTime ≤ s.now then s.closeWindow (w.sample peak)
    else s.modSense (fun n => { n with
      windows := n.windows.map (fun v => if v.pickup = k then v.sample peak else v) })

/-- A pickup's conversion delivers its figure: to the window closed early that counts on it (R140), or to the open window. That the
window closed early is judged by the threshold that the bar record has at the completion, and not by the one it had at the early
close, is the model's reading (R139, R140; log entry 14). -/
def State.deliverPickup (k : PickupId) (peak : Nat) (s : State) : State :=
  match s.sense.closing with
  | some w =>
    if w.pickup = k then (s.modSense (fun n => { n with closing := none })).judge (w.sample peak)
    else s.deliverOpen k peak
  | none => s.deliverOpen k peak

end Sys2Proof.Machine
end

