-- ==== Sys2Proof/Machine/FiringEvents.lean ====
section
/-! DEFINITION. The events of the calendar's RELEASED entries, of rails, strikers and damper units (R56 to R58, R64, R68, R72, R89,
R99, R101, R102), one meaning each. Every decision that an event leads to is taken before the command ends. -/
namespace Sys2Proof.Machine

/-! ## RELEASED entries -/

/-- The target fire time of the member in a slot, until its event has been taken (R68). -/
def State.targetDue (s : State) (k : SlotId) : Option Nat :=
  match s.entryAt k with
  | some e => if e.state = .released && !e.targetReached then e.target else none
  | none => none

/-- The arbiter of a bar's rail has a decision to take. -/
def State.wakeRailOf (b : BarId) (s : State) : State :=
  match (s.bar b).rail with
  | some r => s.wake r
  | none => s

/-- A member's target fire time is reached, which is an event for its rail's arbiter (R68). -/
def State.targetReached (k : SlotId) (s : State) : State :=
  match s.entryAt k with
  | some e => ((s.modEntry k (fun e => { e with targetReached := true })).wakeRailOf e.bar).settle
  | none => s

/-- TARGET_FIRE_TIME_REACHED (R68). -/
def execTargetFireTimeReached (w : When) (slot : SlotId) (s : State) : Answer :=
  .next (timerEvent w (s.targetDue slot) (State.targetReached slot) s)

/-- The first microsecond after the deadline of the member in a slot (R72). -/
def State.deadlineDue (s : State) (k : SlotId) : Option Nat :=
  match s.entryAt k with
  | some e => if e.state = .released then e.deadline.map (· + 1) else none
  | none => none

/-- The reason that a passed deadline gives (R72). -/
def State.lateReason (s : State) (b : BarId) : EntryOutcome :=
  match (s.bar b).rail with
  | some r => if (s.rail r).state = .low then .droppedSupply else .droppedLate
  | none => .droppedLate

/-- A member's deadline has passed (R72). -/
def State.deadlinePassed (k : SlotId) (s : State) : State :=
  match s.entryAt k with
  | some e => (s.removeMember k (s.lateReason e.bar)).settle
  | none => s

/-- DEADLINE_EXPIRY (R72). -/
def execDeadlineExpiry (w : When) (slot : SlotId) (s : State) : Answer :=
  .next (timerEvent w (s.deadlineDue slot) (State.deadlinePassed slot) s)

/-! ## Rails -/

/-- SPACING_END (R64). -/
def execSpacingEnd (w : When) (rail : RailId) (s : State) : Answer :=
  .next (timerEvent w (s.rail rail).spacingEnd
    (fun s => ((s.modRail rail (fun r => { r with spacingEnd := none })).wake rail).settle) s)

/-- The moment at which the oldest recent fire leaves the list (R64). -/
def Rail.freeingDue (r : Rail) : Option Nat := r.recent.head?.map (· + r.window)

/-- WINDOW_SLOT_FREEING (R64). -/
def execWindowSlotFreeing (w : When) (rail : RailId) (s : State) : Answer :=
  .next (timerEvent w (s.rail rail).freeingDue
    (fun s => ((s.modRail rail (fun r => { r with recent := r.recent.tail })).wake rail).settle) s)

/-! ## Strikers -/

/-- The end of the drive in progress. -/
def Striker.driveDue (k : Striker) : Option Nat := if k.state = .drive then k.driveEnd else none

/-- DRIVE_END (R56). -/
def execDriveEnd (w : When) (striker : StrikerId) (s : State) : Answer :=
  .next (timerEvent w (s.striker striker).driveDue (fun s => (s.driveEnded striker).settle) s)

/-- The end of the hold in progress. -/
def Striker.holdDue (k : Striker) : Option Nat := if k.state = .hold then k.holdEnd else none

/-- HOLD_END (R57). -/
def execHoldEnd (w : When) (striker : StrikerId) (s : State) : Answer :=
  .next (timerEvent w (s.striker striker).holdDue (fun s => (s.holdEnded striker false).settle) s)

/-- The end of the recovery in progress. -/
def Striker.recoveryDue (k : Striker) : Option Nat := if k.state = .recover then k.recoveryEnd else none

/-- RECOVERY_END (R58). -/
def execRecoveryEnd (w : When) (striker : StrikerId) (s : State) : Answer :=
  .next (timerEvent w (s.striker striker).recoveryDue (fun s => (s.recovered striker).settle) s)

/-- The cooling step timer starts again (R89). -/
def State.nextCooling (s : State) : State := { s with shaper := { s.shaper with coolDue := s.shaper.coolDue + 25000 } }

/-- COOLING_STEP (R89, R92). -/
def execCoolingStep (w : When) (s : State) : Answer :=
  .next (timerEvent w (some s.shaper.coolDue) (fun s => s.nextCooling.coolAll.settle) s)

/-! ## Damper units -/

/-- The end of the lift in progress. -/
def Damper.liftDue (d : Damper) : Option Nat := if d.state = .lifting then d.liftEnd else none

/-- LIFT_END (R99). -/
def execLiftEnd (w : When) (unit : UnitId) (s : State) : Answer :=
  .next (timerEvent w (s.damper unit).liftDue (fun s => s.modDamper unit (Damper.lifted s.now)) s)

/-- The expiry of the minimum open time, until it has been taken (R101). -/
def Damper.minDue (d : Damper) : Option Nat :=
  if d.state = .opened && !d.minPassed then d.openSince.map (· + d.minOpen) else none

/-- MINIMUM_OPEN_EXPIRY (R101). -/
def execMinimumOpenExpiry (w : When) (unit : UnitId) (s : State) : Answer :=
  .next (timerEvent w (s.damper unit).minDue (fun s => s.modDamper unit (Damper.minExpired s.now)) s)

/-- The end of the clamp in progress. -/
def Damper.clampDue (d : Damper) : Option Nat := if d.state = .clamping then d.clampEnd else none

/-- CLAMP_END (R102). -/
def execClampEnd (w : When) (unit : UnitId) (s : State) : Answer :=
  .next (timerEvent w (s.damper unit).clampDue (fun s => s.modDamper unit (Damper.clamped s.now)) s)

end Sys2Proof.Machine
end

