-- ==== Sys2Proof/Machine/Players.lean ====
section
/-! DEFINITION. The phrase players (spec/06): reading and decoding a step, taking steps within the horizon, loops, streams, the
ends of a phrase, and starting a player. -/
namespace Sys2Proof.Machine

/-- What a step record holds (R196). -/
inductive StepBody where
  | mark
  | ended
  | rest
  | stroke (bar : BarId) (part : StrokePart) (strength : Nat) (tag : Byte) (sustain : Option Nat)
  | invalid
  deriving DecidableEq, Repr

/-- A step: its delta and what it holds. -/
structure Step where
  delta : Nat
  body : StepBody
  deriving DecidableEq, Repr

/-- The kind field of a step: the high bit times 2 plus the low bit (R196). -/
def stepKind (b2 b4 : Byte) : Nat := 2 * (b4.extractLsb' 7 1).toNat + (b2.extractLsb' 7 1).toNat

/-- The bar or marker code of a step: bits 0–6 of byte 2 (R196). -/
def stepBar (b2 : Byte) : BarId := ⟨(b2.extractLsb' 0 7).toNat, (b2.extractLsb' 0 7).isLt⟩

/-- Decodes the 8 bytes at an address (R196, R114): parameter A of a PRESS is in 4 ms units. -/
def decodeStep (m : List Host.Cell) (a : Nat) : Step :=
  let x := fun i => memRead m (a + i)
  let bar := stepBar (x 2)
  let paramA := ((x 4).extractLsb' 0 7).toNat
  let paramB := (half (x 6) (x 7)).toNat
  let strength := (x 3).toNat
  { delta := (half (x 0) (x 1)).toNat
    body := match stepKind (x 2) (x 4) with
      | 0 => .stroke bar .single strength (x 5) (if paramB = 0 then none else some paramB)
      | 1 => .stroke bar (.roll (RollPart.asked paramA paramB)) strength (x 5) none
      | 2 => .stroke bar (.press { holdMs := paramA * 4, duty := paramB }) strength (x 5) none
      | _ => match bar.1 with
        | 0 => .mark
        | 1 => .ended
        | 2 => .rest
        | _ => .invalid }

/-- The port to which a voice's player reports: the voice's owner, or for voice 15 the chime port (R32, R128). -/
def State.reportPort (s : State) (v : VoiceId) : Option PortId :=
  if v = chimeVoice then s.chimePort else (s.voice v).owner

/-- The address of the step that a player reads next, and whether one is there: none in a stream with nothing retained (R124).
Outside STREAM an address past the area is read as END with delta 0 (R122). -/
def State.nextStep (s : State) (v : VoiceId) : Option Step :=
  let q := s.player v
  match (s.voice v).area, q.mode with
  | some area, .stream => if area.retained = 0 then none else some (decodeStep s.mem area.read)
  | none, .stream => none
  | some area, _ => if q.nextAddress + 7 ≤ area.last then some (decodeStep s.mem q.nextAddress)
      else some { delta := 0, body := .ended }
  | none, _ => some { delta := 0, body := .ended }

/-- A stream's read position moves on by one step, from the area's last step to its start, and a step fewer is retained
(R124). -/
def Area.taken (a : Area) : Area :=
  { a with read := if a.last < a.read + 15 then a.first else a.read + 8, retained := a.retained - 8 }

/-- The player has taken a step with this due: it becomes the previous due, and reading moves on (R115, R122, R124). -/
def State.stepTaken (v : VoiceId) (due : Nat) (s : State) : State :=
  let q := s.player v
  match q.mode with
  | .stream => (s.modPlayer v (fun q => { q with previousDue := due, nextDue := none })).modVoice v (fun x =>
      { x with area := x.area.map Area.taken })
  | _ => s.modPlayer v (fun q => { q with previousDue := due, nextDue := none, nextAddress := q.nextAddress + 8 })

/-- A phrase ends (R128): the player is IDLE with the reason, and PHRASE_END is raised on its reporting port. That the due of a next
step it had computed does not stand is the model's choice (log entry 36). -/
def State.endPhrase (v : VoiceId) (why : EndReason) (s : State) : State :=
  let s := s.modPlayer v (fun q => { q with state := .idle, endReason := why, nextDue := none, told := false })
  match s.reportPort v with
  | some p => s.raise .phraseEnd p
  | none => s

/-- END in LOOP mode (R122): a pass is counted, and the phrase ends or the player returns. -/
def State.loopEnd (v : VoiceId) (due : Nat) (s : State) : State :=
  let s := s.modPlayer v (fun q => { q with passes := min 255 (q.passes + 1) })
  let q := s.player v
  if q.loops ≠ 0 && q.passes = q.loops then s.endPhrase v .ended
  else if due = q.passDue then s.endPhrase v .range
  else s.modPlayer v (fun q => { q with
    nextAddress := (q.returnPoint.map (· + 8)).getD q.startAddress, passDue := due })

/-- END in each mode (R122, R124). -/
def State.phraseEnd (v : VoiceId) (due : Nat) (s : State) : State :=
  match (s.player v).mode with
  | .loop => s.loopEnd v due
  | _ => s.endPhrase v .ended

/-- A step counted as refused with RANGE (R114, R120). -/
def State.stepRefused (v : VoiceId) (s : State) : State :=
  s.modPlayer v (fun q => { q with refused := min 65535 (q.refused + 1) })

/-- The player enters STALLED with the step still its next (R120). -/
def State.stall (v : VoiceId) (due : Nat) (s : State) : State :=
  s.modPlayer v (fun q => { q with state := .stalled, nextDue := some due, told := false })

/-- A step due within the horizon is acted on (R115, R120). -/
def State.actOnStep (o : Interleaving) (v : VoiceId) (p : PortId) (due address : Nat) (x : StepBody) (s : State) : State :=
  match x with
  | .mark => (s.modPlayer v (fun q => { q with returnPoint := some address })).stepTaken v due
  | .rest => s.stepTaken v due
  | .ended => (s.stepTaken v due).phraseEnd v due
  | .invalid => (s.stepRefused v).stepTaken v due
  | .stroke bar part strength tag sustain =>
    let a : Ask := { voice := v, bar := bar, due := due, strength := strength, tag := tag, sustain := sustain, part := part }
    match s.askRefusal a p with
    | some .full => s.stall v due
    | some _ => (s.stepRefused v).stepTaken v due
    | none => ((s.admitEntry a p).1.settleAtJoin o).stepTaken v due

/-- The address of the next step, for MARK to record. -/
def State.stepAddress (s : State) (v : VoiceId) : Nat :=
  match (s.player v).mode, (s.voice v).area with
  | .stream, some area => area.read
  | _, _ => (s.player v).nextAddress

/-- The player reads its next step (R119): it takes the step and goes on, or stops at a step beyond the horizon, at a due beyond
the tick range (R115), in STALLED, in STARVED, or at the end of the phrase. The first argument bounds the steps taken. -/
def State.takeStepsUpTo (o : Interleaving) (v : VoiceId) (p : PortId) : Nat → State → State
  | 0, s => s
  | n + 1, s =>
    if (s.player v).state ≠ .running then s
    else match s.nextStep v with
      | none => s.modPlayer v (fun q => { q with state := .starved, nextDue := none })
      | some x =>
        let due := (s.player v).previousDue + x.delta
        if maxTick < due then s.endPhrase v .range
        else if s.timeline.position + (s.player v).horizon < due then
          s.modPlayer v (fun q => { q with nextDue := some due })
        else State.takeStepsUpTo o v p n (s.actOnStep o v p due (s.stepAddress v) x.body)

/-- A RUNNING player takes steps while the timeline is not STOPPED (R119). The bound is never what ends it: a pass that returns
has advanced a tick (R122), and a pass takes no more steps than phrase memory holds and one END. -/
def State.takeSteps (o : Interleaving) (v : VoiceId) (s : State) : State :=
  if s.timeline.state = .stopped then s
  else match s.reportPort v with
    | none => s
    | some p => State.takeStepsUpTo o v p ((s.timeline.position + (s.player v).horizon + 2) * 4098) s

/-- The ARMED test (R118). -/
def State.armedTest (o : Interleaving) (v : VoiceId) (s : State) : State :=
  let q := s.player v
  if s.timeline.state ≠ .stopped && q.state = .armed && q.start ≤ s.timeline.position + q.horizon then
    (s.modPlayer v (fun q => { q with state := .running })).takeSteps o v
  else s

/-- One player's part of a tick expiry: the ARMED test, then steps (R118, R119). -/
def State.playerTick (o : Interleaving) (v : VoiceId) (s : State) : State :=
  if (s.player v).state = .running then s.takeSteps o v else s.armedTest o v

/-- Several players take one tick expiry one after another. -/
def State.playersTick (o : Interleaving) : List VoiceId → State → State
  | [], s => s
  | v :: rest, s => State.playersTick o rest (s.playerTick o v)

/-- HALT's effect on a player: IDLE without PHRASE_END, its end reason as it was (R126). That the due of a next step it had computed
does not stand is the model's choice (R128; log entry 36). -/
def State.haltPlayer (v : VoiceId) (s : State) : State :=
  s.modPlayer v (fun q => { q with state := .idle, nextDue := none, told := false })

/-- Starts a player (R117, R129): ARMED, and tested at once. -/
def State.startPlayer (o : Interleaving) (v : VoiceId) (mode : PlayerMode) (loops start horizon address : Nat)
    (s : State) : State :=
  (s.modPlayer v (fun q => { q with
    state := .armed
    mode := mode
    loops := loops
    passes := 0
    start := start
    horizon := horizon
    startAddress := if mode = .stream then q.startAddress else address
    nextAddress := if mode = .stream then q.nextAddress else address
    returnPoint := none
    passDue := start
    previousDue := start
    refused := 0
    endReason := .none
    nextDue := none
    told := false })).armedTest o v

/-- A STALLED or STARVED player enters RUNNING and takes steps (R121, R123). The due of a step held by STALLED is fixed (R120),
and stays computed where no step is taken, the timeline being STOPPED. -/
def State.resumePlayer (o : Interleaving) (v : VoiceId) (s : State) : State :=
  (s.modPlayer v (fun q => { q with state := .running, told := false })).takeSteps o v

/-- The tick at which a start resolves: absolute, or the next bar line at the meter in force (R117). -/
def Timeline.resolveStart (t : Timeline) (nextBar : Bool) (start : Quad) : Nat :=
  if nextBar then t.position - t.tickInBar + t.ticksPerBar else start.toNat

/-- LOCATE sends every player that is not IDLE to IDLE with LOCATED, raising PHRASE_END (R127). That the due of a next step does not
stand is the model's choice (R128; log entry 36). -/
def State.locatePlayers : List VoiceId → State → State
  | [], s => s
  | v :: rest, s =>
    State.locatePlayers rest (if (s.player v).state = .idle then s else s.endPhrase v .located)

end Sys2Proof.Machine
end

