-- ==== Sys2Proof/Machine/TimelineOps.lean ====
section
/-! DEFINITION. The performance timeline's operations (spec/01): a tick expiry with what its neighbours do at it, the stops, SYNC
catch-up, HELD, and the changes of tempo. -/
namespace Sys2Proof.Machine

/-- What one tick expiry is, besides a tick (R5). -/
structure TickKind where
  beat : Bool
  barLine : Bool
  deriving DecidableEq, Repr

/-- The period that a pending period leaves in force (R4). -/
def Timeline.adoptPending (t : Timeline) : Timeline :=
  match t.pendingPeriod with
  | some p => { t.adopt p with pendingPeriod := none }
  | none => t

/-- A ramp's tempo after `k` beats, the quotient truncated toward zero (R11). -/
def Ramp.tempoAt (r : Ramp) (k : Nat) : Nat :=
  ((r.start : Int) + (((r.target : Int) - r.start) * k).tdiv r.length).toNat

/-- A ramp's step at a beat boundary (R11). -/
def Timeline.rampStep (t : Timeline) : Timeline :=
  match t.ramp with
  | none => t
  | some r =>
    let k := r.done + 1
    let c := r.tempoAt k
    { t.adopt (tempoPeriod c) with tempo := c, ramp := if r.length ≤ k then none else some { r with done := k } }

/-- A bar line (R7): the bar number advances, and a pending meter is adopted. -/
def Timeline.barLine (t : Timeline) : Timeline :=
  { t with
    beatInBar := 0
    barNumber := (t.barNumber + 1) % 65536
    beatsPerBar := t.pendingMeter.getD t.beatsPerBar
    pendingMeter := none }

/-- The timeline's own part of a tick expiry taken at `now` (R4 to R7, R11, R20): `measured` is a period measured by the pulse
that makes this crossing (R17). -/
def Timeline.tick (now : Nat) (measured : Option Nat) (t : Timeline) : Timeline × TickKind :=
  let t := t.adoptPending
  let t := { t with position := t.position + 1 }
  if t.tickInBeat ≠ 0 then (t, { beat := false, barLine := false })
  else
    let t := { t.rampStep with syncOutEnd := some (now + 1000) }
    let t : Timeline := match measured with
      | some p => t.adopt p
      | none => t
    if t.beatInBar + 1 < t.beatsPerBar then
      ({ t with beatInBar := t.beatInBar + 1 }, { beat := true, barLine := false })
    else (t.barLine, { beat := true, barLine := true })

/-- The calendar's part of one tick expiry: every releasable WAITING entry is released, in calendar order (R33). -/
def State.releaseAll (o : Interleaving) : List SlotId → State → State
  | [], s => s
  | k :: rest, s => State.releaseAll o rest (match s.entryAt k with
    | some e => if s.releasable e then (s.release k).settleAtJoin o else s
    | none => s)

/-- A neighbour to which the timeline hands a tick expiry or its bar line (R7, R9). -/
inductive Neighbour where
  | shaper | calendar | players | dampers
  deriving DecidableEq, Repr

/-- A neighbour's part of one tick expiry. -/
def State.neighbourTick (o : Interleaving) (kind : TickKind) (x : Neighbour) (s : State) : State :=
  match x with
  | .shaper => if kind.barLine then s.transferCurves else s
  | .calendar => State.releaseAll o (s.slotsWhere s.releasable) s
  | .players => State.playersTick o (arrange o.players (List.finRange 16)) s
  | .dampers => s.holdEnds

/-- The neighbours take one tick expiry one after another. -/
def State.neighboursTick (o : Interleaving) (kind : TickKind) : List Neighbour → State → State
  | [], s => s
  | x :: rest, s => State.neighboursTick o kind rest ((s.neighbourTick o kind x).settleAtBlock o)

/-- The timeline stops (R13): the counter and the loss timer stop, a pending period is adopted, the last pulse time is cleared,
and the damper units clear their holds. -/
def State.stopTimeline (why : StopReason) (s : State) : State :=
  (s.modTimeline (fun t => { t.adoptPending with
    state := .stopped, stopReason := why, tickDue := none, lossDue := none, lastPulse := none })).allDampers
    (Damper.stopped s.now)

/-- One tick expiry with all that is attached to it (R5, R9): the timeline's own update, the BAR_LINE notice, the neighbours in the
order that the command carries (log entry 3), the decisions it leads to, and the end-of-range stop (R13). -/
def State.tick (o : Interleaving) (measured : Option Nat) (s : State) : State :=
  let x := s.timeline.tick s.now measured
  let s := { s with timeline := x.1 }
  let s := if x.2.barLine then s.raiseAll .barLine else s
  let s := (State.neighboursTick o x.2 (arrange o.blocks [.shaper, .calendar, .players, .dampers]) s).settle
  if maxTick ≤ s.timeline.position then s.stopTimeline .rangeEnd else s

/-- The counter starts a full period at the wall µs taken as now (R2). -/
def State.startCounter (s : State) : State :=
  s.modTimeline (fun t => { t with tickDue := some (s.now * 8 + t.period) })

/-- The counter's expiry, taken as a tick expiry: the next falls one period after its exact instant (R2). -/
def State.counterTick (o : Interleaving) (due : Nat) (s : State) : State :=
  let s := s.tick o none
  if s.timeline.state = .running then s.modTimeline (fun t => { t with tickDue := some (due + t.period) }) else s

/-- Entry into HELD (R18): the counter stops, and the loss timer expires twice the last interval and 1 µs later. -/
def State.enterHeld (s : State) : State :=
  s.modTimeline (fun t => { t with
    state := .held, tickDue := none, lossDue := some (s.now + 2 * t.lastInterval + 1) })

/-- Several tick expiries at one instant in order of position, the last of them the crossing; an end-of-range stop ends them
(R17). A period already pending is adopted at the first of them (R4; log entry 30). That a STALLED player told by a leaving at one
of them resumes only after the last, against the crossing's position, is the model's choice (R121; log entry 16). -/
def State.catchUp (o : Interleaving) (measured : Option Nat) : Nat → State → State
  | 0, s => s
  | n + 1, s =>
    if s.timeline.state = .stopped then s
    else State.catchUp o measured n (s.tick o (if n = 0 then measured else none))

/-- The timeline crosses to the next beat boundary at once and runs with a full period (R15, R17, R19). -/
def State.crossBeat (o : Interleaving) (measured : Option Nat) (s : State) : State :=
  let n := if s.timeline.state = .held then 1 else 240 - s.timeline.tickInBeat
  let s := State.catchUp o measured n
    (s.modTimeline (fun t => { t with state := .running, tickDue := none, lossDue := none }))
  if s.timeline.state = .running then s.startCounter else s

/-- A measured period, clamped to the range of P (R16). -/
def measuredPeriod (interval : Nat) : Nat := max 6667 (min 100000 (roundDiv interval 30))

/-- A rising edge on SYNC_IN (R16, R17). -/
def State.syncPulse (o : Interleaving) (s : State) : State :=
  if s.timeline.source = .internal || s.timeline.state = .stopped then s
  else match s.timeline.lastPulse with
    | none => (s.modTimeline (fun t => { t with lastPulse := some s.now })).crossBeat o none
    | some last =>
      let interval := s.now - last
      if interval < 100000 then s
      else (s.modTimeline (fun t => { t with
          lastPulse := some s.now, lastInterval := min 4000000 interval })).crossBeat o (some (measuredPeriod interval))

/-- The fall back to INTERNAL (R15, R19): the tempo goes on at the rate of P, and the last pulse time is cleared. -/
def Timeline.toInternal (t : Timeline) : Timeline :=
  { t with source := .internal, tempo := tempoPeriod t.period, lastPulse := none }

/-- SOURCE INTERNAL in SYNC mode (R15), and the loss of sync (R19): a HELD timeline crosses at once. That the tempo is set from the P
in force, and a period still pending in HELD adopted at the crossing after it, is the model's reading (R4, log entry 30). -/
def State.toInternal (o : Interleaving) (s : State) : State :=
  let s := s.modTimeline Timeline.toInternal
  if s.timeline.state = .held then s.crossBeat o none else s

/-- SOURCE SYNC in INTERNAL mode (R15). -/
def Timeline.toSync (t : Timeline) : Timeline :=
  { t with source := .sync, ramp := none, lastPulse := none, lastInterval := 30 * t.period }

/-- TEMPO (R3). -/
def Timeline.setTempo (c : Nat) (t : Timeline) : Timeline :=
  let t := { t with tempo := c, ramp := none }
  if t.state = .stopped then t.adopt (tempoPeriod c) else { t with pendingPeriod := some (tempoPeriod c) }

/-- LOCATE's part of the timeline (R14). -/
def Timeline.locate (p : Nat) (t : Timeline) : Timeline :=
  let beats := t.pendingMeter.getD t.beatsPerBar
  { t with
    beatsPerBar := beats
    pendingMeter := none
    position := p
    beatInBar := p % (beats * 240) / 240
    barNumber := p / (beats * 240) % 65536 }

/-- LOCATE (R14, R48, R127): the timeline's part, the WAITING entries due before the position leave with PASSED, and the players
return to IDLE. -/
def State.locateTo (p : Nat) (s : State) : State :=
  let s := s.modTimeline (Timeline.locate p)
  let s := State.leaveAll .passed (s.slotsWhere (fun e => e.state = .waiting && e.due < p)) s
  State.locatePlayers (List.finRange 16) s

end Sys2Proof.Machine
end

