-- ==== Sys2Proof/Machine/SetupRequests.lean ====
section
/-! DEFINITION. The setup requests (R161, R177, R179 to R181): one definition of what each does and answers, and one meaning for
each command. Each result is built in the order of the checks; a refusal leaves the state as it was. -/
namespace Sys2Proof.Machine

/-- The stages that take stage-bound setup (R161). -/
def State.takesSetup (s : State) : Bool :=
  s.stage.stage = .dormant || s.stage.stage = .standby || s.stage.stage = .fault

/-- An accepted setup request: the stage check comes last (R161, R179). -/
def setupResult (s : State) (f : State → State) (results : State → List Byte) : Result :=
  if s.takesSetup then (f s, .ok, results (f s)) else refuse .stage s

/-! ## SET_RAIL -/

/-- The settings that SET_RAIL gives (R63). -/
structure RailSettings where
  fitted : Bool
  spacing : Nat
  window : Nat
  count : Nat
  nominal : Nat
  floor : Nat
  deriving DecidableEq, Repr

/-- The ranges of the rail table (R63). -/
def RailSettings.inRange (x : RailSettings) : Bool :=
  x.spacing ≤ 10000 && 1000 ≤ x.window && x.window ≤ 100000 && 1 ≤ x.count && x.count ≤ 8 &&
  1200 ≤ x.nominal && x.nominal ≤ 4800 && 50 ≤ x.floor && x.floor ≤ 95

/-- Some bar has a striker on a rail. -/
def State.railUsed (s : State) (r : RailId) : Bool := s.bars.toList.any (fun b => b.strikers.any (fun n => railOf n = r))

/-- A rail with new settings (R63); the marks of its charge and discharge stand (log entry 31). The newest times of its
recent-fire list are kept as far as the new count allows, but for those whose new window has already passed. -/
def Rail.withSettings (now : Nat) (x : RailSettings) (r : Rail) : Rail :=
  { r with
    fitted := x.fitted
    spacing := x.spacing
    window := x.window
    count := x.count
    nominal := x.nominal
    floor := x.floor
    recent := (r.recent.drop (r.recent.length - x.count)).filter (fun t => now < t + x.window) }

def setRailResult (rail fitted : Byte) (spacing : Half) (window : Quad) (count : Byte) (nominal : Half) (floor : Byte)
    (s : State) : Result :=
  match fieldId 6 rail, fieldBool fitted with
  | some r, some f =>
    let x : RailSettings := {
      fitted := f, spacing := spacing.toNat, window := window.toNat, count := count.toNat, nominal := nominal.toNat
      floor := floor.toNat }
    if !x.inRange || (!f && s.railUsed r) then refuse .range s
    else if f ≠ (s.rail r).fitted && s.stage.stage ≠ .dormant then refuse .stage s
    else setupResult s (fun s => s.modRail r (Rail.withSettings s.now x)) (fun _ => [])
  | _, _ => refuse .range s

/-- SET_RAIL (R63). -/
def execSetRail (w : When) (p : PortId) (rail fitted : Byte) (spacing : Half) (window : Quad) (count : Byte) (nominal : Half)
    (floor : Byte) (s : State) : Answer :=
  .next (request w p 0x01#8 (setRailResult rail fitted spacing window count nominal floor) s)

/-! ## SET_STRIKER -/

/-- The parameters that SET_STRIKER gives, the pulses in µs (R54). -/
structure StrikerSettings where
  recovery : Nat
  minPulse : Nat
  maxPulse : Nat
  table : TableId
  soft : Nat
  hard : Nat
  lock : Nat
  deriving DecidableEq, Repr

/-- The ranges of the striker table (R54). -/
def StrikerSettings.inRange (x : StrikerSettings) : Bool :=
  8000 ≤ x.recovery && x.recovery ≤ 250000 && 200 ≤ x.minPulse && x.minPulse ≤ 2000 && x.minPulse ≤ x.maxPulse &&
  x.maxPulse ≤ 12000 && 2000 ≤ x.hard && x.hard ≤ 60000 && 1000 ≤ x.soft && x.soft + 1000 ≤ x.hard && x.lock ≤ 15

/-- A striker with new parameters (R54). -/
def Striker.withSettings (x : StrikerSettings) (k : Striker) : Striker :=
  { k with
    recovery := x.recovery
    minPulse := x.minPulse
    maxPulse := x.maxPulse
    table := x.table
    soft := x.soft
    hard := x.hard
    lockThreshold := x.lock }

def setStrikerResult (striker : Byte) (recovery : Quad) (minPulse : Byte) (maxPulse : Half) (table : Byte) (soft hard : Half)
    (lock : Byte) (s : State) : Result :=
  match fieldId 96 striker, fieldId 8 table with
  | some n, some t =>
    let x : StrikerSettings := {
      recovery := recovery.toNat, minPulse := minPulse.toNat * 10, maxPulse := maxPulse.toNat * 10, table := t
      soft := soft.toNat, hard := hard.toNat, lock := lock.toNat }
    if !x.inRange then refuse .range s
    else setupResult s (fun s => s.modStriker n (Striker.withSettings x)) (fun _ => [])
  | _, _ => refuse .range s

/-- SET_STRIKER (R54). -/
def execSetStriker (w : When) (p : PortId) (striker : Byte) (recovery : Quad) (minPulse : Byte) (maxPulse : Half)
    (table : Byte) (soft hard : Half) (lock : Byte) (s : State) : Answer :=
  .next (request w p 0x02#8 (setStrikerResult striker recovery minPulse maxPulse table soft hard lock) s)

/-! ## SET_BAR -/

/-- A bar's new record names strikers that are the same or lie on different rails (R51, check 2). -/
def Bar.pairRefused (b : Bar) : Bool :=
  match b.first, b.second with
  | some m, some n => m = n || railOf m ≠ railOf n
  | _, _ => false

/-- The strikers of the new record take the bar; those of the old record alone lose it with their fired-last mark (R51). -/
def Striker.rebar (n : StrikerId) (b : BarId) (old new : Bar) (k : Striker) : Striker :=
  if n ∈ new.strikers then { k with bar := some b }
  else if n ∈ old.strikers then { k with bar := none, firedLast := false }
  else k

/-- A bar's record replaced whole (R51). -/
def State.replaceBar (b : BarId) (new : Bar) (s : State) : State :=
  let old := s.bar b
  { s with
    bars := s.bars.put b new
    strikers := s.strikers.mapWith (fun n k => k.rebar n b old new) }

def setBarResult (bar cls first second damper pickup : Byte) (threshold : Half) (s : State) : Result :=
  match fieldId 128 bar, fieldClass cls, fieldStrikers first second, optionalId 4 damper, optionalId 24 pickup with
  | some b, some c, some (m, n), some d, some k =>
    let new : Bar := { cls := c, first := m, second := n, damper := d, pickup := k, threshold := threshold.toNat }
    if 32767 < new.threshold then refuse .range s
    else if new.pairRefused then refuse .range s
    else if new.strikers.any (fun n => !(s.rail (railOf n)).fitted) then refuse .range s
    else if new.strikers.any (fun n => match (s.striker n).bar with | some a => a ≠ b | none => false) then refuse .busy s
    else setupResult s (State.replaceBar b new) (fun _ => [])
  | _, _, _, _, _ => refuse .range s

/-- SET_BAR (R51). -/
def execSetBar (w : When) (p : PortId) (bar cls first second damper pickup : Byte) (threshold : Half) (s : State) : Answer :=
  .next (request w p 0x03#8 (setBarResult bar cls first second damper pickup threshold) s)

/-! ## SET_CLASS, SET_DAMPER, SET_CHARGE, SET_QUOTA -/

def setClassResult (cls : Byte) (lead slip : Half) (s : State) : Result :=
  match fieldClass cls with
  | some c =>
    if 60000 < lead.toNat || 50000 < slip.toNat then refuse .range s
    else setupResult s
      (fun s => s.modTimeline (fun t => t.modTimes c (fun _ =>
        { lead := lead.toNat, slip := slip.toNat, leadTicks := leadTicksOf lead.toNat t.period })))
      (fun s => let x := s.timeline.times c
        b1 c.code ++ b2 x.lead ++ b2 x.slip ++ b4 x.leadTicks)
  | none => refuse .range s

/-- SET_CLASS (R180, R23, R35). -/
def execSetClass (w : When) (p : PortId) (cls : Byte) (lead slip : Half) (s : State) : Answer :=
  .next (request w p 0x04#8 (setClassResult cls lead slip) s)

def setDamperResult (unit : Byte) (lift clamp : Half) (minOpen : Quad) (s : State) : Result :=
  match fieldId 4 unit with
  | some u =>
    if lift.toNat < 2000 || 50000 < lift.toNat || clamp.toNat < 2000 || 50000 < clamp.toNat || 500000 < minOpen.toNat then
      refuse .range s
    else setupResult s
      (fun s => s.modDamper u (fun d => { d with lift := lift.toNat, clamp := clamp.toNat, minOpen := minOpen.toNat }))
      (fun _ => [])
  | none => refuse .range s

/-- SET_DAMPER (R94). -/
def execSetDamper (w : When) (p : PortId) (unit : Byte) (lift clamp : Half) (minOpen : Quad) (s : State) : Answer :=
  .next (request w p 0x05#8 (setDamperResult unit lift clamp minOpen) s)

def setChargeResult (settle timeout : Half) (s : State) : Result :=
  if settle.toNat < 50 || 2000 < settle.toNat || timeout.toNat < 500 || 10000 < timeout.toNat ||
      timeout.toNat ≤ settle.toNat then refuse .range s
  else setupResult s (fun s => s.modStage (fun c => { c with settleMs := settle.toNat, timeoutMs := timeout.toNat }))
    (fun _ => [])

/-- SET_CHARGE (R162). -/
def execSetCharge (w : When) (p : PortId) (settle timeout : Half) (s : State) : Answer :=
  .next (request w p 0x06#8 (setChargeResult settle timeout) s)

/-- The four quotas, the four use counts and the chime count (R180). -/
def State.quotaReport (s : State) : List Byte :=
  b2 (s.quotas.look 0) ++ b2 (s.quotas.look 1) ++ b2 (s.quotas.look 2) ++ b2 (s.quotas.look 3) ++
  b1 (s.useCount 0) ++ b1 (s.useCount 1) ++ b1 (s.useCount 2) ++ b1 (s.useCount 3) ++ b1 s.chimeCount

/-- A port's quota set; where it rises, the port's STALLED players are told (R180, R121). -/
def State.setQuotaOf (q : PortId) (n : Nat) (s : State) : State :=
  let raised := s.quotas.look q < n
  let s := { s with quotas := s.quotas.put q n }
  if raised then s.tell (fun v => v ≠ chimeVoice && (s.voice v).owner = some q) else s

def setQuotaResult (port : Byte) (quota : Half) (s : State) : Result :=
  match fieldId 4 port with
  | some q =>
    let n := quota.toNat
    if 256 < n then refuse .range s
    else if n < s.useCount q || 224 < quotaSum (s.quotas.put q n) then refuse .range s
    else setupResult s (State.setQuotaOf q n) State.quotaReport
  | none => refuse .range s

/-- SET_QUOTA (R30, R180). -/
def execSetQuota (w : When) (p : PortId) (port : Byte) (quota : Half) (s : State) : Answer :=
  .next (request w p 0x07#8 (setQuotaResult port quota) s)

/-! ## Curve tables -/

/-- A table with points written by the update mode, none where the copy written would decrease or pass 12,000 (R77). -/
def CurveTable.write (mode : UpdateMode) (first : Nat) (points : List Half) (c : CurveTable) : Option CurveTable :=
  match mode with
  | .direct =>
    let v := writePoints c.live first points
    if monotonePoints v then some { c with live := v, staging := writePoints c.staging first points } else none
  | .staged =>
    let v := writePoints c.staging first points
    if monotonePoints v then some { c with staging := v } else none

def setCurveResult (table first : Byte) (points : List Half) (s : State) : Result :=
  if !pointsAllowed points then refuse .length s
  else match fieldId 8 table with
    | some t =>
      if 16 < first.toNat + points.length || points.any (fun x => 12000 < x.toNat) then refuse .range s
      else match (s.table t).write s.shaper.mode first.toNat points with
        | some c => (s.modTable t (fun _ => c), .ok, bBool c.commitPending ++ b1 s.shaper.mode.code)
        | none => refuse .range s
    | none => refuse .range s

/-- A command whose payload no frame carries: a length byte above 60 abandons the frame silently (R167). -/
def oversize (n : Nat) : Bool := 60 < n

/-- SET_CURVE (R77). -/
def execSetCurve (w : When) (p : PortId) (table first : Byte) (points : List Half) (s : State) : Answer :=
  if oversize (2 + 2 * points.length) then .next (s.reach w.time)
  else .next (request w p 0x08#8 (setCurveResult table first points) s)

/-- The number of tables whose staging copy differs from its live copy. -/
def State.stagingChanges (s : State) : Nat := s.shaper.tables.toList.countP (fun c => c.staging ≠ c.live)

def curveModeResult (mode : Byte) (s : State) : Result :=
  match fieldUpdateMode mode with
  | none => refuse .range s
  | some m =>
    if m = s.shaper.mode then (s, .ok, b1 0)
    else match m with
      | .staged => ({ s with shaper := { s.shaper with mode := .staged } }, .ok, b1 0)
      | .direct =>
        if s.shaper.tables.toList.any (·.commitPending) then refuse .busy s
        else ({ s with shaper := { s.shaper with
            mode := .direct
            tables := s.shaper.tables.mapWith (fun _ c => { c with staging := c.live }) } }, .ok, b1 s.stagingChanges)

/-- CURVE_MODE (R78). -/
def execCurveMode (w : When) (p : PortId) (mode : Byte) (s : State) : Answer :=
  .next (request w p 0x09#8 (curveModeResult mode) s)

/-- The set of tables whose flag is set, bit n for table n (R79, R195). -/
def State.pendingTables (s : State) : Nat :=
  ((List.finRange 8).map (fun t => if (s.table t).commitPending then 2 ^ t.1 else 0)).sum

/-- COMMIT for the tables named (R79). -/
def State.commitTables (named : TableId → Bool) (s : State) : State :=
  match s.shaper.mode with
  | .direct => s
  | .staged => { s with shaper := { s.shaper with
      tables := s.shaper.tables.mapWith (fun t c =>
        if named t then (if s.timeline.state = .stopped then c.transfer else { c with commitPending := true }) else c) } }

def commitResult (table : Byte) (s : State) : Result :=
  match optionalId 8 table with
  | none => refuse .range s
  | some one =>
    let s := s.commitTables (fun t => match one with | some u => t = u | none => true)
    (s, .ok, b1 s.pendingTables)

/-- COMMIT (R79). -/
def execCommit (w : When) (p : PortId) (table : Byte) (s : State) : Answer :=
  .next (request w p 0x0A#8 (commitResult table) s)

/-! ## SET_SCAN and SET_PORT -/

def setScanResult (pickup gain : Byte) (length : Quad) (s : State) : Result :=
  match fieldId 24 pickup, fieldGain gain with
  | some k, some g =>
    if length.toNat < 5000 || 100000 < length.toNat then refuse .range s
    else (s.modSense (fun n => { n with pickups := n.pickups.put k { gain := g, length := length.toNat } }), .ok, [])
  | _, _ => refuse .range s

/-- SET_SCAN (R132). -/
def execSetScan (w : When) (p : PortId) (pickup gain : Byte) (length : Quad) (s : State) : Answer :=
  .next (request w p 0x0B#8 (setScanResult pickup gain length) s)

/-- A port with its three settings replaced (R173): NOTICE follows the enables, the watermark is applied at once, and the
silence timeout counts from now. -/
def Port.withSettings (now : Nat) (enables : Byte) (watermark silence : Nat) (q : Port) : Port :=
  ({ q with enables := enables, watermark := watermark, silenceMs := silence }.restartSilence now).levelCheck

def setPortResult (p : PortId) (enables watermark : Byte) (silence : Half) (s : State) : Result :=
  if !namesNotices enables || watermark.toNat < 1 || 128 < watermark.toNat ||
      (1 ≤ silence.toNat && silence.toNat ≤ 99) || 10000 < silence.toNat then refuse .range s
  else
    let s := s.modPort p (Port.withSettings s.now enables watermark.toNat silence.toNat)
    (s, .ok, [(s.port p).enables] ++ b1 (s.port p).watermark ++ b2 (s.port p).silenceMs)

/-- SET_PORT (R173). -/
def execSetPort (w : When) (p : PortId) (enables watermark : Byte) (silence : Half) (s : State) : Answer :=
  .next (request w p 0x0C#8 (setPortResult p enables watermark silence) s)

end Sys2Proof.Machine
end

