-- ==== Sys2Proof/Machine/ConductorRequests.lean ====
section
/-! DEFINITION. The conductor and timeline requests (R21, R22, R182): the role, the checks in R22's order, and one meaning for
each request. -/
namespace Sys2Proof.Machine

/-- The timeline summary that a conductor request replies with (R182): the items of its list, and then whether a meter is pending, the
one change deferred to a bar line. R182 has such a change show as pending and gives its mark no place in the list; that it is one
byte, after the listed items, is the model's choice (log entry 35). -/
def State.summary (s : State) : List Byte :=
  let t := s.timeline
  b1 t.state.code ++ b1 t.stopReason.code ++ b4 t.position ++ b4 t.tickInBeat ++ b1 t.beatInBar ++ b2 t.barNumber ++
  b2 t.tempo ++ b4 t.period ++ bBool t.pendingPeriod.isSome ++ bBool t.ramp.isSome ++ b1 t.source.code ++ oId t.conductor ++
  bBool t.pendingMeter.isSome

/-- The conductor port set. -/
def State.setConductor (c : Option PortId) (s : State) : State := s.modTimeline (fun t => { t with conductor := c })

/-- What CONDUCT answers: the conductor port after the request (R182). -/
def conductOk (s : State) : Result := (s, .ok, oId s.timeline.conductor)

/-- CONDUCT: claim and release (R21). -/
def conductResult (p : PortId) (release : Byte) (s : State) : Result :=
  match fieldBool release, s.timeline.conductor with
  | none, _ => refuse .range s
  | some false, none => conductOk (s.setConductor (some p))
  | some false, some q => if q = p then conductOk s else refuse .busy s
  | some true, some q => if q = p then conductOk (s.setConductor none) else refuse .owner s
  | some true, none => refuse .owner s

/-- CONDUCT (R21). -/
def execConduct (w : When) (p : PortId) (release : Byte) (s : State) : Answer :=
  .next (request w p 0x10#8 (conductResult p release) s)

/-- A conductor request: the role, then the state it needs, then its arguments (R22); taken, it replies with the summary. -/
def conducted (p : PortId) (stateRefused rangeRefused : Bool) (f : State → State) (s : State) : Result :=
  if s.timeline.conductor ≠ some p then refuse .owner s
  else if stateRefused then refuse .state s
  else if rangeRefused then refuse .range s
  else (f s, .ok, (f s).summary)

/-- A tempo outside 2,000–30,000 (R3). -/
def tempoOutside (c : Nat) : Bool := c < 2000 || 30000 < c

def tempoResult (p : PortId) (c : Half) (s : State) : Result :=
  conducted p (s.timeline.source = .sync) (tempoOutside c.toNat)
    (fun s => s.modTimeline (Timeline.setTempo c.toNat)) s

/-- TEMPO (R3). -/
def execTempo (w : When) (p : PortId) (c : Half) (s : State) : Answer := .next (request w p 0x11#8 (tempoResult p c) s)

/-- A ramp from the present tempo (R10). -/
def Timeline.startRamp (target beats : Nat) (t : Timeline) : Timeline :=
  { t with ramp := some { target := target, start := t.tempo, length := beats, done := 0 } }

def rampResult (p : PortId) (target : Half) (beats : Byte) (s : State) : Result :=
  conducted p (s.timeline.source = .sync) (tempoOutside target.toNat || beats.toNat < 1 || 64 < beats.toNat)
    (fun s => s.modTimeline (Timeline.startRamp target.toNat beats.toNat)) s

/-- RAMP (R10). -/
def execRamp (w : When) (p : PortId) (target : Half) (beats : Byte) (s : State) : Answer :=
  .next (request w p 0x12#8 (rampResult p target beats) s)

def meterResult (p : PortId) (beats : Byte) (s : State) : Result :=
  conducted p false (beats.toNat < 1 || 16 < beats.toNat)
    (fun s => s.modTimeline (fun t => { t with pendingMeter := some beats.toNat })) s

/-- METER (R8). -/
def execMeter (w : When) (p : PortId) (beats : Byte) (s : State) : Answer := .next (request w p 0x13#8 (meterResult p beats) s)

/-- RUN in STOPPED starts the counter with a full period; in RUNNING and HELD it changes nothing (R12). -/
def State.runTimeline (s : State) : State :=
  if s.timeline.state = .stopped then (s.modTimeline (fun t => { t with state := .running })).startCounter else s

def runResult (p : PortId) (s : State) : Result :=
  conducted p false (maxTick ≤ s.timeline.position) State.runTimeline s

/-- RUN (R12). -/
def execRun (w : When) (p : PortId) (s : State) : Answer := .next (request w p 0x14#8 (runResult p) s)

/-- STOP in RUNNING or HELD; in STOPPED it changes nothing and is not handed on (R13). -/
def State.stopRequest (s : State) : State := if s.timeline.state = .stopped then s else s.stopTimeline .request

def stopResult (p : PortId) (s : State) : Result := conducted p false false State.stopRequest s

/-- STOP (R13). -/
def execStop (w : When) (p : PortId) (s : State) : Answer := .next (request w p 0x15#8 (stopResult p) s)

def locateResult (p : PortId) (position : Quad) (s : State) : Result :=
  conducted p (s.timeline.state ≠ .stopped) false (State.locateTo position.toNat) s

/-- LOCATE (R14). -/
def execLocate (w : When) (p : PortId) (position : Quad) (s : State) : Answer :=
  .next (request w p 0x16#8 (locateResult p position) s)

/-- SOURCE naming a mode; the mode already in force changes nothing (R15). -/
def State.setSource (o : Interleaving) (m : Option SourceMode) (s : State) : State :=
  match m, s.timeline.source with
  | some .sync, .internal => s.modTimeline Timeline.toSync
  | some .internal, .sync => s.toInternal o
  | _, _ => s

def sourceResult (o : Interleaving) (p : PortId) (mode : Byte) (s : State) : Result :=
  conducted p false (fieldSource mode).isNone (State.setSource o (fieldSource mode)) s

/-- SOURCE (R15). -/
def execSource (w : When) (p : PortId) (mode : Byte) (s : State) : Answer :=
  .next (request w p 0x17#8 (sourceResult w.order p mode) s)

end Sys2Proof.Machine
end

