-- ==== Sys2Proof/Machine/StageOps.lean ====
section
/-! DEFINITION. The stage controller's operations (spec/08): entering and leaving stages, charging and discharging, faults, and
what a rail's sample does to its rail and to the stage (spec/07). -/
namespace Sys2Proof.Machine

/-- The stage enters a stage whose entry raises STAGE_CHANGE (R160). -/
def State.enterStage (g : Stage) (s : State) : State :=
  (s.modStage (fun c => { c with stage := g })).raiseAll .stageChange

/-- A change made to every fitted rail. -/
def State.fittedRails (f : Rail → Rail) (s : State) : State :=
  { s with rails := s.rails.mapWith (fun _ r => if r.fitted then f r else r) }

/-- Every fitted rail passes a test. -/
def State.allFitted (s : State) (p : Rail → Bool) : Bool := s.rails.toList.all (fun r => !r.fitted || p r)

/-- Some rail is fitted. -/
def State.anyFitted (s : State) : Bool := s.rails.toList.any (·.fitted)

/-- Entry into CHARGING (R150). -/
def State.startCharge (target : ChainTarget) (s : State) : State :=
  (s.fittedRails (fun r => { r with state := .charging, settleSince := none })).modStage (fun c => { c with
    stage := .charging, target := some target, chargeDue := some (s.now + c.timeoutMs * 1000) })

/-- A rail has stood at or above its charge threshold for the settle time (R151, R153). -/
def Rail.settled (now settleMs : Nat) (r : Rail) : Bool :=
  match r.settleSince with
  | some t => t + settleMs * 1000 ≤ now
  | none => false

/-- The charge completes (R151, R152): every fitted rail is UP, and the stage enters the chain target, or GUARDED with the guard
open. -/
def State.chargeComplete (s : State) : State :=
  let g : Stage := if !s.stage.guardClosed then .guarded
    else match s.stage.target with
      | some .playing => .playing
      | _ => .standby
  ((s.fittedRails (fun r => { r with state := .up, settleSince := none })).modStage (fun c =>
    { c with target := none, chargeDue := none })).enterStage g

/-- Entry into FAULT (R159): from PLAYING the stage first leaves PLAYING; the rails not in FAULT become OFF, and their settle
since stands until DOWN (R156). -/
def State.enterFault (cause : FaultCause) (s : State) : State :=
  let s := if s.stage.stage = .playing then s.leavePlaying else s
  ((s.fittedRails (fun r => { r with state := if r.state = .fault then .fault else .off })).modStage
    (fun c => { c with target := none, chargeDue := none, cause := cause })).enterStage .fault

/-- Entry into DISCHARGING (R156): the marks are those of the fitted rails (log entry 31). -/
def State.startDischarge (s : State) : State :=
  let s := if s.stage.stage = .playing then s.leavePlaying else s
  (s.fittedRails (fun r => { r with state := .off, settleSince := none, bled := false })).modStage (fun c => { c with
    stage := .discharging, target := none, chargeDue := none, dischargeDue := some (s.now + 5000000) })

/-- The discharge completes (R157). -/
def State.dischargeComplete (s : State) : State :=
  (s.modStage (fun c => { c with dischargeDue := none })).enterStage .dormant

/-- A rail's state and low-run count after a sample (R135, R136). -/
def Rail.sampled (sample : Nat) (r : Rail) : Rail :=
  let r := { r with lastSample := some sample }
  if r.state = .up || r.state = .low then
    let state : RailState :=
      if r.state = .up then (if sample < r.floorLevel then .low else .up)
      else if r.floorLevel + 5 ≤ sample then .up else .low
    let run := if 2 * sample < r.nominal then r.lowRun + 1 else 0
    if 3 ≤ run then { r with state := .fault, lowRun := 0 } else { r with state := state, lowRun := run }
  else { r with lowRun := 0 }

/-- The settle since of a fitted rail after a sample in CHARGING (R151). -/
def Rail.settle (now sample : Nat) (r : Rail) : Rail :=
  if sample < r.chargeThreshold then { r with settleSince := none }
  else { r with settleSince := some (r.settleSince.getD now) }

/-- The stage controller's part of a rail sample, by the stage (R151, R157). -/
def State.sampleInStage (r : RailId) (sample : Nat) (s : State) : State :=
  if !(s.rail r).fitted then s
  else match s.stage.stage with
    | .charging =>
      let s := s.modRail r (Rail.settle s.now sample)
      if s.allFitted (Rail.settled s.now s.stage.settleMs) then s.chargeComplete else s
    | .discharging =>
      let s := s.modRail r (fun x => { x with bled := sample < 200 })
      if s.allFitted (·.bled) then s.dischargeComplete else s
    | _ => s

/-- A rail sample (R134 to R136, R159): the rail's last sample, its state and low-run count, what its arbiter and the stage
controller make of it. -/
def State.railSample (r : RailId) (sample : Nat) (s : State) : State :=
  let before := (s.rail r).state
  let s := s.modRail r (Rail.sampled sample)
  let after := (s.rail r).state
  let s := if before = .low && after = .up then s.wake r else s
  let s := if before ≠ .fault && after = .fault then
      (match s.stage.stage with
        | .standby | .playing | .guarded => s.enterFault (.railFault r)
        | _ => s)
    else s
  s.sampleInStage r sample

/-- The charge expiry in CHARGING (R153): the fitted rails that have not settled enter FAULT, and the stage enters FAULT. -/
def State.chargeFailed (s : State) : State :=
  let settle := s.stage.settleMs
  (s.fittedRails (fun r => if r.settled s.now settle then r else { r with state := .fault })).enterFault .chargeTimeout

/-- A guard edge in the stages that it moves (R158). -/
def State.guardMoved (closed : Bool) (s : State) : State :=
  let s := s.modStage (fun c => { c with guardClosed := closed })
  match s.stage.stage, closed with
  | .standby, false => s.enterStage .guarded
  | .playing, false => s.leavePlaying.enterStage .guarded
  | .guarded, true => s.enterStage .standby
  | _, _ => s

end Sys2Proof.Machine
end

