-- ==== Sys2Proof/Machine/StrokeRequests.lean ====
section
/-! DEFINITION. The voice and stroke requests (R25, R26, R31, R45 to R47, R61, R183 to R185): opening and closing voices, asking
for strokes, acting on entries, and UNLOCK. -/
namespace Sys2Proof.Machine

/-- The port holds the voice: an OPEN voice 0–14 that it owns (check 1 of R31). -/
def State.owns (s : State) (p : PortId) (v : VoiceId) : Bool :=
  v ≠ chimeVoice && (s.voice v).state = .opened && (s.voice v).owner = some p

/-- CHOP, CANCEL, FLUSH and HALT are taken from the voice's owner, and for voice 15 from the chime port (R45 to R47, R126). -/
def State.commands (s : State) (p : PortId) (v : VoiceId) : Bool :=
  if v = chimeVoice then s.chimePort = some p else s.owns p v

/-- A request of a voice's holder: a voice above 15 is refused with RANGE (R177), another port with OWNER. -/
def forVoice (holds : State → VoiceId → Bool) (voice : Byte) (body : VoiceId → State → Result) (s : State) : Result :=
  match fieldId 16 voice with
  | none => refuse .range s
  | some v => if holds s v then body v s else refuse .owner s

/-! ## OPEN and CLOSE -/

/-- The voices that ports open. -/
def portVoices : List VoiceId := (List.finRange 16).filter (· ≠ chimeVoice)

/-- The lowest-numbered CLOSED voice among 0 to 14 (R25). -/
def State.freeVoice (s : State) : Option VoiceId := portVoices.find? (fun v => (s.voice v).state = .closed)

/-- A voice opened by a port (R25). -/
def State.openVoice (p : PortId) (v : VoiceId) (priority low high : Nat) (s : State) : State :=
  (s.modVoice v (fun _ => {
    state := .opened, owner := some p, priority := priority, low := low, high := high, area := none })).haltPlayer v

/-- What OPEN takes: the voice, or the refusal (R25). -/
def State.voiceToOpen (s : State) (named : Option VoiceId) : Except Status VoiceId :=
  match named with
  | some v => if (s.voice v).state = .opened then .error .busy else .ok v
  | none => match s.freeVoice with
    | some v => .ok v
    | none => .error .full

def openResult (p : PortId) (voice priority low high : Byte) (s : State) : Result :=
  match optionalId 15 voice with
  | none => refuse .range s
  | some named =>
    if 3 < priority.toNat || 127 < low.toNat || 127 < high.toNat || high.toNat < low.toNat then refuse .range s
    else match s.voiceToOpen (named.map (Fin.castLE (by omega))) with
      | .error st => refuse st s
      | .ok v => (s.openVoice p v priority.toNat low.toNat high.toNat, .ok, b1 v.1)

/-- OPEN (R25). -/
def execOpenVoice (w : When) (p : PortId) (voice priority low high : Byte) (s : State) : Answer :=
  .next (request w p 0x20#8 (openResult p voice priority low high) s)

/-- Closes a voice (R26): its entries are flushed, its player halted, its pedal holds removed, its area freed. -/
def State.closeVoice (v : VoiceId) (s : State) : State × Nat × Nat :=
  let x := s.flushVoice v
  (((x.1.haltPlayer v).dropPedals v).modVoice v (fun d => { d with state := .closed, owner := none, area := none }), x.2)

def closeResult (p : PortId) (voice : Byte) (s : State) : Result :=
  forVoice (fun s => s.owns p) voice (fun v s =>
    let x := s.closeVoice v
    (x.1, .ok, b1 x.2.1 ++ b1 x.2.2)) s

/-- CLOSE (R26). -/
def execCloseVoice (w : When) (p : PortId) (voice : Byte) (s : State) : Answer :=
  .next (request w p 0x21#8 (closeResult p voice) s)

/-! ## STRIKE, ROLL and PRESS -/

/-- A stroke request (R31, R184): the fields that name things, the ownership, then admission; the arbiters decide about what
its release has let join before the reply is composed. -/
def strokeResult (p : PortId) (voice bar form : Byte) (due : Quad) (strength tag : Byte) (sustain : Half)
    (part : StrokePart) (s : State) : Result :=
  match fieldId 128 bar, fieldForm form with
  | some b, some f =>
    forVoice (fun s => s.owns p) voice (fun v s =>
      let a : Ask := {
        voice := v
        bar := b
        due := if f.1 then s.timeline.position + due.toNat else due.toNat
        strength := strength.toNat
        tag := tag
        sustain := if f.2 then some sustain.toNat else none
        part := part }
      match s.admitEntry a p with
      | (s, .refused st) => refuse st s
      | (s, .admitted slot seq) => (s.settle, .ok, b1 slot.1 ++ b4 seq)) s
  | _, _ => refuse .range s

/-- STRIKE (R31, R184). -/
def execStrike (w : When) (p : PortId) (voice bar form : Byte) (due : Quad) (strength tag : Byte) (sustain : Half)
    (s : State) : Answer :=
  .next (request w p 0x22#8 (strokeResult p voice bar form due strength tag sustain .single) s)

/-- ROLL (R31, R184). -/
def execRoll (w : When) (p : PortId) (voice bar form : Byte) (due : Quad) (strength tag : Byte) (sustain : Half)
    (count spacing : Byte) (s : State) : Answer :=
  .next (request w p 0x23#8
    (strokeResult p voice bar form due strength tag sustain (.roll (RollPart.asked count.toNat spacing.toNat))) s)

/-- PRESS (R31, R184). -/
def execPress (w : When) (p : PortId) (voice bar form : Byte) (due : Quad) (strength tag : Byte) (sustain : Half)
    (hold : Half) (duty : Byte) (s : State) : Answer :=
  .next (request w p 0x24#8
    (strokeResult p voice bar form due strength tag sustain (.press { holdMs := hold.toNat, duty := duty.toNat })) s)

/-! ## CHOP, CANCEL, FLUSH and UNLOCK -/

/-- A ROLL of the voice with the tag whose chop mark is not set (R45). -/
def Entry.choppable (v : VoiceId) (tag : Byte) (e : Entry) : Bool :=
  e.voice = v && e.tag = tag && (match e.part with | .roll r => !r.chopMark | _ => false)

/-- Every ROLL of the voice with the tag receives the chop mark (R45). -/
def State.chop (v : VoiceId) (tag : Byte) (s : State) : State :=
  { s with entries := s.entries.map (fun e =>
      if e.choppable v tag then e.modRoll (fun r => { r with chopMark := true }) else e) }

def chopResult (p : PortId) (voice tag : Byte) (s : State) : Result :=
  forVoice (fun s => s.commands p) voice (fun v s =>
    (s.chop v tag, .ok, b1 (s.entries.countP (Entry.choppable v tag)))) s

/-- CHOP (R45). -/
def execChop (w : When) (p : PortId) (voice tag : Byte) (s : State) : Answer :=
  .next (request w p 0x25#8 (chopResult p voice tag) s)

/-- The WAITING entries of the voice with the tag leave with CANCELLED (R46). -/
def State.cancel (v : VoiceId) (tag : Byte) (s : State) : State × Nat :=
  let gone := s.slotsWhere (fun e => e.voice = v && e.tag = tag && e.state = .waiting)
  (State.leaveAll .cancelled gone s, gone.length)

def cancelResult (p : PortId) (voice tag : Byte) (s : State) : Result :=
  forVoice (fun s => s.commands p) voice (fun v s =>
    let x := s.cancel v tag
    (x.1, .ok, b1 x.2)) s

/-- CANCEL (R46). -/
def execCancel (w : When) (p : PortId) (voice tag : Byte) (s : State) : Answer :=
  .next (request w p 0x26#8 (cancelResult p voice tag) s)

def flushResult (p : PortId) (voice : Byte) (s : State) : Result :=
  forVoice (fun s => s.commands p) voice (fun v s =>
    let x := s.flushVoice v
    (x.1, .ok, b1 x.2.1 ++ b1 x.2.2)) s

/-- FLUSH (R47). -/
def execFlush (w : When) (p : PortId) (voice : Byte) (s : State) : Answer :=
  .next (request w p 0x27#8 (flushResult p voice) s)

/-- UNLOCK (R61): a LOCKED striker enters IDLE, which is an event for its rail's arbiter; any other keeps its state, its silent
count 0 and its pending lock cleared. -/
def State.unlock (n : StrikerId) (s : State) : State :=
  if (s.striker n).state = .locked then
    (s.modStriker n (fun k => { k with state := .idle, silentCount := 0, lockPending := false })).wake (railOf n)
  else s.modStriker n (fun k => { k with silentCount := 0, lockPending := false })

/-- The reply carries the state before the request and after it, before the arbiter has decided (R185: IDLE for a striker that
was LOCKED; log entry 20). -/
def unlockResult (striker : Byte) (s : State) : Result :=
  match fieldId 96 striker with
  | none => refuse .range s
  | some n => ((s.unlock n).settle, .ok, b1 (s.striker n).state.code ++ b1 ((s.unlock n).striker n).state.code)

/-- UNLOCK (R61). -/
def execUnlock (w : When) (p : PortId) (striker : Byte) (s : State) : Answer :=
  .next (request w p 0x28#8 (unlockResult striker) s)

end Sys2Proof.Machine
end

