-- ==== Sys2Proof/Machine/StageRequests.lean ====
section
/-! DEFINITION. PEDAL (R97, R189), the stage requests (R149, R190), and the echo and notice requests (R144, R172, R191). -/
namespace Sys2Proof.Machine

/-! ## PEDAL -/

/-- The pedal hold of a voice (R97). -/
def pedalHold (v : VoiceId) : Hold := { voice := v, bar := none, endTick := none }

/-- A change made to the units named: one, or all four. -/
def State.namedDampers (named : Option UnitId) (f : Damper → Damper) (s : State) : State :=
  { s with dampers := s.dampers.mapWith (fun u d => if named = none ∨ named = some u then f d else d) }

/-- A figure summed over the units named. -/
def State.sumDampers (s : State) (named : Option UnitId) (f : Damper → Nat) : Nat :=
  ((List.finRange 4).map (fun u => if named = none ∨ named = some u then f (s.damper u) else 0)).sum

/-- PEDAL down (R97): the holds placed and the holds that left full lists. -/
def State.pedalDown (v : VoiceId) (named : Option UnitId) (s : State) : Result :=
  (s.namedDampers named (Damper.arrive s.now (pedalHold v)), .ok,
    b1 (s.sumDampers named (fun _ => 1)) ++ b1 (s.sumDampers named (fun d => if 16 ≤ d.holds.length then 1 else 0)))

/-- PEDAL up (R97): the holds removed. -/
def State.pedalUp (v : VoiceId) (named : Option UnitId) (s : State) : Result :=
  (s.namedDampers named (Damper.drop s.now (Hold.pedalOf v)), .ok,
    b1 (s.sumDampers named (fun d => d.holds.countP (Hold.pedalOf v))))

def pedalResult (p : PortId) (voice unit direction : Byte) (s : State) : Result :=
  match optionalId 4 unit, fieldBool direction with
  | some named, some isUp =>
    forVoice (fun s => s.owns p) voice (fun v s =>
      if isUp then s.pedalUp v named
      else if s.stage.stage ≠ .playing then refuse .stage s
      else s.pedalDown v named) s
  | _, _ => refuse .range s

/-- PEDAL (R97, R189). -/
def execPedal (w : When) (p : PortId) (voice unit direction : Byte) (s : State) : Answer :=
  .next (request w p 0x40#8 (pedalResult p voice unit direction) s)

/-! ## UP, PLAY, REST and DOWN -/

/-- The stage and the chain target, which a stage request replies with under every status (R149, R190). -/
def State.stageReport (s : State) : List Byte := b1 s.stage.stage.code ++ b1 (targetCode s.stage.target)

/-- The first refusal of UP and PLAY (R149). -/
def State.upRefusal (s : State) : Option Status :=
  if s.stage.stage = .discharging then some .busy
  else if s.stage.stage = .guarded || s.stage.stage = .fault then some .stage
  else if !s.stage.guardClosed then some .stage
  else if s.stage.stage = .dormant && !s.anyFitted then some .state
  else none

/-- A stage request's answer. -/
def stageResult (refusal : Option Status) (f : State → State) (s : State) : Result :=
  match refusal with
  | some st => (s, st, s.stageReport)
  | none => (f s, .ok, (f s).stageReport)

/-- UP accepted (R149). -/
def State.stageUp (s : State) : State := if s.stage.stage = .dormant then s.startCharge .standby else s

/-- PLAY accepted (R149, R154). -/
def State.stagePlay (s : State) : State :=
  match s.stage.stage with
  | .dormant => s.startCharge .playing
  | .charging => s.modStage (fun c => { c with target := some .playing })
  | .standby => s.enterStage .playing
  | _ => s

/-- REST (R149, R154). -/
def State.stageRest (s : State) : State :=
  match s.stage.stage with
  | .charging => s.modStage (fun c => { c with target := some .standby })
  | .playing => s.leavePlaying.enterStage .standby
  | _ => s

/-- DOWN (R149, R156). -/
def State.stageDown (s : State) : State :=
  match s.stage.stage with
  | .dormant | .discharging => s
  | _ => s.startDischarge

def upResult (s : State) : Result := stageResult s.upRefusal State.stageUp s
def playResult (s : State) : Result := stageResult s.upRefusal State.stagePlay s
def restResult (s : State) : Result := stageResult none State.stageRest s
def downResult (s : State) : Result := stageResult none State.stageDown s

/-- UP (R149). -/
def execUp (w : When) (p : PortId) (s : State) : Answer := .next (request w p 0x41#8 upResult s)

/-- PLAY (R149). -/
def execPlay (w : When) (p : PortId) (s : State) : Answer := .next (request w p 0x42#8 playResult s)

/-- REST (R149). -/
def execRest (w : When) (p : PortId) (s : State) : Answer := .next (request w p 0x43#8 restResult s)

/-- DOWN (R149, R156). -/
def execDown (w : When) (p : PortId) (s : State) : Answer := .next (request w p 0x44#8 downResult s)

/-! ## ECHO_READ and NOTICES -/

def echoReadResult (p : PortId) (count : Byte) (s : State) : Result :=
  if count.toNat < 1 || 8 < count.toNat then refuse .range s
  else
    let taken := (s.port p).echo.take count.toNat
    let left := (s.port p).echo.drop count.toNat
    (s.modPort p (fun q => { q with echo := left }), .ok,
      b1 taken.length ++ b1 left.length ++ taken.flatMap EchoRecord.bytes)

/-- ECHO_READ (R144, R191). -/
def execEchoRead (w : When) (p : PortId) (count : Byte) (s : State) : Answer :=
  .next (request w p 0x50#8 (echoReadResult p count) s)

/-- The clear of a port's pending set, handed to its echo queue (R172, R145). -/
def Port.clearNotices (q : Port) : Port := { q with pendingNotices := 0#8 }.levelCheck

def noticesResult (p : PortId) (s : State) : Result :=
  (s.modPort p Port.clearNotices, .ok, [(s.port p).pendingNotices, (s.port p).enables])

/-- NOTICES (R172, R191). -/
def execNotices (w : When) (p : PortId) (s : State) : Answer := .next (request w p 0x51#8 (noticesResult p) s)

end Sys2Proof.Machine
end

