-- ==== Sys2Proof/Machine/PhraseRequests.lean ====
section
/-! DEFINITION. The phrase memory and player requests (R110 to R113, R117, R123, R125, R126, R129, R186 to R188). -/
namespace Sys2Proof.Machine

/-! ## SEEK, LOAD and PEEK -/

def seekResult (p : PortId) (address : Half) (s : State) : Result :=
  if 32767 < address.toNat then refuse .range s
  else (s.modPort p (fun q => { q with loadPointer := address.toNat }), .ok, b2 address.toNat)

/-- SEEK (R111). -/
def execSeek (w : When) (p : PortId) (address : Half) (s : State) : Answer :=
  .next (request w p 0x30#8 (seekResult p address) s)

/-- The bytes from `first` to `last` lie within an area. -/
def Area.holds (a : Area) (first last : Nat) : Bool := a.first ≤ first && last ≤ a.last

/-- The voice whose area holds the bytes of a LOAD from a port: a voice that the port owns, or the chime voice (R112). -/
def State.areaFor (s : State) (p : PortId) (first last : Nat) : Option VoiceId :=
  (List.finRange 16).find? (fun v =>
    (v = chimeVoice || s.owns p v) && (match (s.voice v).area with | some a => a.holds first last | none => false))

/-- Writes the bytes at the port's load pointer and advances it, to 0 where it would pass 32,767 (R112). -/
def State.loadBytes (p : PortId) (data : List Byte) (s : State) : State :=
  let a := (s.port p).loadPointer
  { s with mem := memWriteAll s.mem a data }.modPort p (fun q =>
    { q with loadPointer := if 32767 < a + data.length then 0 else a + data.length })

def loadResult (p : PortId) (data : List Byte) (s : State) : Result :=
  if !dataAllowed data then refuse .length s
  else
    let a := (s.port p).loadPointer
    match s.areaFor p a (a + data.length - 1) with
    | none => refuse .owner s
    | some v =>
      if (s.player v).state ≠ .idle then refuse .busy s
      else (s.loadBytes p data, .ok, b2 ((s.loadBytes p data).port p).loadPointer)

/-- LOAD (R112). -/
def execLoad (w : When) (p : PortId) (data : List Byte) (s : State) : Answer :=
  if oversize data.length then .next (s.reach w.time) else .next (request w p 0x31#8 (loadResult p data) s)

def peekResult (address : Half) (count : Byte) (s : State) : Result :=
  if count.toNat < 1 || 56 < count.toNat || 32768 < address.toNat + count.toNat then refuse .range s
  else (s, .ok, memBytes s.mem address.toNat count.toNat)

/-- PEEK (R113). -/
def execPeek (w : When) (p : PortId) (address : Half) (count : Byte) (s : State) : Answer :=
  .next (request w p 0x32#8 (peekResult address count) s)

/-! ## SET_AREA -/

/-- The form of an area's addresses (R109, R110 check 2). -/
def areaForm (first last : Nat) : Bool :=
  first % 8 = 0 && (last + 1) % 8 = 0 && first ≤ last && 4096 ≤ first && last ≤ 32767

/-- The range includes a byte of another voice's area (R110 check 3). -/
def State.areaTaken (s : State) (v : VoiceId) (first last : Nat) : Bool :=
  (List.finRange 16).any (fun u => u ≠ v &&
    (match (s.voice u).area with | some a => first ≤ a.last && a.first ≤ last | none => false))

/-- An area newly bound: the ring empty at its start (R110). -/
def Area.bound (first last : Nat) : Area := { first := first, last := last, read := first, write := first, retained := 0 }

/-- The size of an area in bytes. -/
def Area.size (a : Area) : Nat := a.last + 1 - a.first

def setAreaResult (p : PortId) (voice : Byte) (first last : Half) (s : State) : Result :=
  forVoice (fun s => s.owns p) voice (fun v s =>
    let area := if first.toNat = 0 && last.toNat = 0 then none else some (Area.bound first.toNat last.toNat)
    if area.isSome && (!areaForm first.toNat last.toNat || s.areaTaken v first.toNat last.toNat) then refuse .range s
    else if (s.player v).state ≠ .idle then refuse .busy s
    else (s.modVoice v (fun d => { d with area := area }), .ok, b2 ((area.map (fun a => a.size / 8)).getD 0))) s

/-- SET_AREA (R110). -/
def execSetArea (w : When) (p : PortId) (voice : Byte) (first last : Half) (s : State) : Answer :=
  .next (request w p 0x33#8 (setAreaResult p voice first last) s)

/-! ## CUE, CHIME and HALT -/

/-- The ranges of a start and a horizon (R117 check 3). -/
def cueInRange (start horizon : Nat) : Bool := 240 ≤ horizon && horizon ≤ 1920 && start ≤ maxTick

def cueResult (o : Interleaving) (p : PortId) (voice mode loops form : Byte) (start : Quad) (horizon : Half) (s : State) :
    Result :=
  match fieldMode mode, fieldBool form with
  | some m, some nextBar =>
    forVoice (fun s => s.owns p) voice (fun v s =>
      match (s.voice v).area with
      | none => refuse .state s
      | some area =>
        let t := s.timeline.resolveStart nextBar start
        if !cueInRange t (fieldHorizon horizon) then refuse .range s
        else if (s.player v).state ≠ .idle then refuse .busy s
        else
          let s := (s.startPlayer o v m loops.toNat t (fieldHorizon horizon) area.first).settle
          (s, .ok, b4 t ++ b1 (s.player v).state.code)) s
  | _, _ => refuse .range s

/-- CUE (R117, R187). -/
def execCue (w : When) (p : PortId) (voice mode loops form : Byte) (start : Quad) (horizon : Half) (s : State) : Answer :=
  .next (request w p 0x34#8 (cueResult w.order p voice mode loops form start horizon) s)

def chimeResult (o : Interleaving) (p : PortId) (address : Half) (loops form : Byte) (start : Quad) (horizon : Half)
    (s : State) : Result :=
  match fieldBool form with
  | none => refuse .range s
  | some nextBar =>
    let t := s.timeline.resolveStart nextBar start
    if address.toNat % 8 ≠ 0 || 4088 < address.toNat || !cueInRange t (fieldHorizon horizon) then refuse .range s
    else if (s.player chimeVoice).state ≠ .idle then refuse .busy s
    else
      let s := ({ s with chimePort := some p }.startPlayer o chimeVoice .loop loops.toNat t (fieldHorizon horizon)
        address.toNat).settle
      (s, .ok, b4 t ++ b1 (s.player chimeVoice).state.code ++ oId s.chimePort)

/-- CHIME (R129, R187). -/
def execChime (w : When) (p : PortId) (address : Half) (loops form : Byte) (start : Quad) (horizon : Half) (s : State) :
    Answer :=
  .next (request w p 0x35#8 (chimeResult w.order p address loops form start horizon) s)

def haltResult (p : PortId) (voice option : Byte) (s : State) : Result :=
  match fieldBool option with
  | none => refuse .range s
  | some flush =>
    forVoice (fun s => s.commands p) voice (fun v s =>
      let x := if flush then (s.haltPlayer v).flushVoice v else (s.haltPlayer v, 0, 0)
      (x.1, .ok, b1 (s.player v).state.code ++ b1 x.2.1 ++ b1 x.2.2)) s

/-- HALT (R126, R187). -/
def execHalt (w : When) (p : PortId) (voice option : Byte) (s : State) : Answer :=
  .next (request w p 0x36#8 (haltResult p voice option) s)

/-! ## PUSH and CLEAR -/

/-- Free space of a ring in bytes (R123). -/
def Area.free (a : Area) : Nat := a.size - a.retained

/-- A step position in a ring moved on by one step (R123). -/
def Area.following (a : Area) (position : Nat) : Nat := if a.last < position + 15 then a.first else position + 8

/-- Whole steps written to a ring at its write position, which wraps as it goes (R123). -/
def pushSteps (m : List Host.Cell) (a : Area) : List Byte → List Host.Cell × Area
  | b0 :: b1 :: b2 :: b3 :: b4 :: b5 :: b6 :: b7 :: rest =>
    pushSteps (memWriteAll m a.write [b0, b1, b2, b3, b4, b5, b6, b7])
      { a with write := a.following a.write, retained := a.retained + 8 } rest
  | _ => (m, a)

/-- A stream's player refuses PUSH and CLEAR while it plays in ONCE or LOOP mode (R123, R125). -/
def Player.streamBusy (q : Player) : Bool := q.state ≠ .idle && q.mode ≠ .stream

/-- The free space and the player's state, which CLEAR and PUSH report. -/
def State.ringReport (s : State) (v : VoiceId) : List Byte :=
  b2 (((s.voice v).area.map Area.free).getD 0) ++ b1 (s.player v).state.code

/-- The retained count of a voice's ring. -/
def State.retained (s : State) (v : VoiceId) : Nat := ((s.voice v).area.map (·.retained)).getD 0

/-- The effect of an accepted PUSH (R123): the steps are appended, and a STARVED player takes steps. -/
def State.pushed (o : Interleaving) (v : VoiceId) (a : Area) (steps : List Byte) (s : State) : State :=
  let x := pushSteps s.mem a steps
  let s := { s with mem := x.1 }.modVoice v (fun d => { d with area := some x.2 })
  if (s.player v).state = .starved then (s.resumePlayer o v).settle else s

def pushResult (o : Interleaving) (p : PortId) (voice : Byte) (steps : List Byte) (s : State) : Result :=
  if !stepsAllowed steps then refuse .length s
  else forVoice (fun s => s.owns p) voice (fun v s =>
    match (s.voice v).area with
    | none => refuse .state s
    | some a =>
      if (s.player v).streamBusy then refuse .busy s
      else if a.free < steps.length then refuse .full s
      else
        let s := s.pushed o v a steps
        (s, .ok, b2 (s.retained v) ++ s.ringReport v)) s

/-- PUSH (R123, R188). -/
def execPush (w : When) (p : PortId) (voice : Byte) (steps : List Byte) (s : State) : Answer :=
  if oversize (1 + steps.length) then .next (s.reach w.time)
  else .next (request w p 0x37#8 (pushResult w.order p voice steps) s)

/-- The effect of an accepted CLEAR (R125): the ring is empty at the area's start, and a RUNNING or STALLED player enters
STARVED. -/
def State.clearRing (v : VoiceId) (a : Area) (s : State) : State :=
  (s.modVoice v (fun d => { d with area := some (Area.bound a.first a.last) })).modPlayer v (fun q =>
    if q.state = .running || q.state = .stalled then { q with state := .starved, nextDue := none, told := false } else q)

def clearResult (p : PortId) (voice : Byte) (s : State) : Result :=
  forVoice (fun s => s.owns p) voice (fun v s =>
    match (s.voice v).area with
    | none => refuse .state s
    | some a =>
      if (s.player v).streamBusy then refuse .busy s
      else (s.clearRing v a, .ok, (s.clearRing v a).ringReport v)) s

/-- CLEAR (R125, R188). -/
def execClear (w : When) (p : PortId) (voice : Byte) (s : State) : Answer :=
  .next (request w p 0x38#8 (clearResult p voice) s)

end Sys2Proof.Machine
end

