-- ==== Sys2Proof/Machine/StatusRequests.lean ====
section
/-! DEFINITION. The status requests (R192 to R194): each reads the values in force at its taking and changes none. Every status
reply begins with the wall count; the layout choices are log entry 21. -/
namespace Sys2Proof.Machine

/-- The wall µs remaining until a time (R178). -/
def State.remaining (s : State) (t : Option Nat) : List Byte := o4 (t.map (· - s.now))

/-- The wall µs since a time, held at a bound where there is one. -/
def State.since (s : State) (bound : Nat) (t : Option Nat) : List Byte := o4 (t.map (fun x => min bound (s.now - x)))

/-- A time as a signed figure of wall µs from now (R194). -/
def State.fromNow (s : State) (t : Nat) : List Byte := bSigned ((t : Int) - s.now)

/-- A status reply: the wall count, then the contents (R192). -/
def statusOk (contents : State → List Byte) (s : State) : Result := (s, .ok, b4 s.wallCount ++ contents s)

/-- A status reply about one member of a numbered subject (R192, R177). -/
def statusOf (n : Nat) (member : Byte) (contents : Fin n → State → List Byte) (s : State) : Result :=
  match fieldId n member with
  | none => refuse .range s
  | some i => statusOk (contents i) s

/-! ## TIME_STATUS and CALENDAR_STATUS -/

/-- A ramp, each field all ones where there is none. -/
def rampBytes (r : Option Ramp) : List Byte :=
  o2 (r.map (·.target)) ++ o2 (r.map (·.start)) ++ o1 (r.map (·.length)) ++ o1 (r.map (·.done))

/-- A class's lead, maximum slip and lead ticks; ticks take four bytes (R195). -/
def ClassTimes.bytes (c : ClassTimes) : List Byte := b2 c.lead ++ b2 c.slip ++ b4 c.leadTicks

/-- The contents of TIME_STATUS (R193). -/
def State.timeContents (s : State) : List Byte :=
  let t := s.timeline
  b1 t.state.code ++ b1 t.stopReason.code ++ b4 t.position ++ b4 t.tickInBeat ++ b1 t.beatInBar ++ b2 t.barNumber ++
  b1 t.beatsPerBar ++ o1 t.pendingMeter ++ b2 t.tempo ++ b4 t.period ++ o4 t.pendingPeriod ++ rampBytes t.ramp ++
  b1 t.source.code ++ b4 t.lastInterval ++ oId t.conductor ++ s.since 4294967294 t.lastPulse ++ s.remaining t.lossDue ++
  t.marimba.bytes ++ t.vibes.bytes ++ t.perc.bytes

def timeStatusResult (s : State) : Result := statusOk State.timeContents s

/-- TIME_STATUS (R193). -/
def execTimeStatus (w : When) (p : PortId) (s : State) : Answer := .next (request w p 0x60#8 timeStatusResult s)

/-- The contents of CALENDAR_STATUS (R193). -/
def State.calendarContents (s : State) : List Byte :=
  b2 s.entries.length ++ (List.finRange 4).flatMap (fun p => b2 (s.quotas.look p) ++ b1 (s.useCount p)) ++
  b1 s.chimeCount ++ oId s.chimePort ++ b4 s.nextSeq

def calendarStatusResult (s : State) : Result := statusOk State.calendarContents s

/-- CALENDAR_STATUS (R193). -/
def execCalendarStatus (w : When) (p : PortId) (s : State) : Answer := .next (request w p 0x61#8 calendarStatusResult s)

/-! ## ENTRY_STATUS -/

/-- The roll or press part of an entry (R194). -/
def StrokePart.bytes : StrokePart → List Byte
  | .single => []
  | .roll r => b1 r.count ++ b1 r.spacing ++ b4 r.firstDue ++ b1 r.played ++ b1 r.missed ++ bBool r.chopMark ++
      bBool r.flushMark
  | .press q => b2 q.holdMs ++ b1 q.duty

/-- The fire details an entry has kept since its grant (R194). -/
def Entry.fireBytes (e : Entry) : List Byte :=
  match e.fire with
  | none => []
  | some f => b1 f.striker.1 ++ b2 f.offset ++ b1 f.applied ++ b2 f.pulse ++ [e.flags.byte] ++ o2 e.peak

/-- The contents of ENTRY_STATUS for a slot that holds an entry (R194). -/
def State.entryBytes (s : State) (e : Entry) : List Byte :=
  b1 1 ++ b1 e.voice.1 ++ b1 e.port.1 ++ bBool e.report ++ b1 e.bar.1 ++ b4 e.due ++ b1 e.part.code ++ b1 e.strength ++
  o2 e.sustain ++ [e.tag] ++ b4 e.seq ++ b1 e.state.code ++ e.part.bytes ++
  (e.target.elim [] s.fromNow) ++ (e.deadline.elim [] s.fromNow) ++ e.fireBytes

/-- The contents of ENTRY_STATUS: a free slot is marked so and has no fields (R194). -/
def entryContents (k : SlotId) (s : State) : List Byte :=
  match s.entryAt k with
  | none => b1 0
  | some e => s.entryBytes e

def entryStatusResult (slot : Byte) (s : State) : Result := statusOf 256 slot entryContents s

/-- ENTRY_STATUS (R194). -/
def execEntryStatus (w : When) (p : PortId) (slot : Byte) (s : State) : Answer :=
  .next (request w p 0x62#8 (entryStatusResult slot) s)

/-! ## VOICE_STATUS and BAR_STATUS -/

/-- A player's items (R128): the next address, or in STREAM the read position. -/
def Player.bytes (q : Player) (area : Option Area) : List Byte :=
  b1 q.state.code ++ b1 q.mode.code ++ b1 q.loops ++ b1 q.passes ++ b4 q.start ++ b2 q.horizon ++
  (match q.mode with | .stream => o2 (area.map (·.read)) | _ => b2 q.nextAddress) ++
  o4 q.nextDue ++ o2 q.returnPoint ++ b2 q.refused ++ b1 q.endReason.code

/-- An area's items, all ones where there is none (R128). -/
def areaBytes (area : Option Area) : List Byte :=
  o2 (area.map (·.first)) ++ o2 (area.map (·.last)) ++ o2 (area.map (·.retained)) ++ o2 (area.map Area.free) ++
  o2 (area.map (·.read)) ++ o2 (area.map (·.write))

/-- The contents of VOICE_STATUS (R193). -/
def voiceContents (v : VoiceId) (s : State) : List Byte :=
  let d := s.voice v
  b1 d.state.code ++ oId d.owner ++ b1 d.priority ++ b1 d.low ++ b1 d.high ++ b1 (s.voiceCount v) ++
  (s.player v).bytes d.area ++ areaBytes d.area

def voiceStatusResult (voice : Byte) (s : State) : Result := statusOf 16 voice voiceContents s

/-- VOICE_STATUS (R193). -/
def execVoiceStatus (w : When) (p : PortId) (voice : Byte) (s : State) : Answer :=
  .next (request w p 0x63#8 (voiceStatusResult voice) s)

/-- The contents of BAR_STATUS (R193). -/
def barContents (b : BarId) (s : State) : List Byte :=
  let d := s.bar b
  b1 d.cls.code ++ oId d.first ++ oId d.second ++ oId d.damper ++ oId d.pickup ++ b2 d.threshold

def barStatusResult (bar : Byte) (s : State) : Result := statusOf 128 bar barContents s

/-- BAR_STATUS (R193). -/
def execBarStatus (w : When) (p : PortId) (bar : Byte) (s : State) : Answer :=
  .next (request w p 0x64#8 (barStatusResult bar) s)

/-! ## STRIKER_STATUS and RAIL_STATUS -/

/-- The contents of STRIKER_STATUS (R193, R74): pulses in 10 µs units as SET_STRIKER gives them. That a recovery end passed while
the striker is still in DRIVE or HOLD is reported as 0 µs remaining is the model's choice (log entry 21). -/
def strikerContents (n : StrikerId) (s : State) : List Byte :=
  let k := s.striker n
  oId k.bar ++ b1 k.state.code ++ b2 k.heat ++ b1 k.silentCount ++ bBool k.lockPending ++ bBool k.firedLast ++
  s.since 250001 k.lastFire ++ b4 k.recovery ++ b1 (k.minPulse / 10) ++ b2 (k.maxPulse / 10) ++ b1 k.table.1 ++
  b2 k.soft ++ b2 k.hard ++ b1 k.lockThreshold ++ s.remaining k.driveEnd ++ s.remaining k.holdEnd ++
  s.remaining k.recoveryEnd

def strikerStatusResult (striker : Byte) (s : State) : Result := statusOf 96 striker strikerContents s

/-- STRIKER_STATUS (R193). -/
def execStrikerStatus (w : When) (p : PortId) (striker : Byte) (s : State) : Answer :=
  .next (request w p 0x65#8 (strikerStatusResult striker) s)

/-- The contents of RAIL_STATUS (R193, R74). -/
def railContents (r : RailId) (s : State) : List Byte :=
  let d := s.rail r
  bBool d.fitted ++ b1 d.state.code ++ o2 d.lastSample ++ b1 d.recent.length ++ bBool d.spacingEnd.isSome ++
  b2 (s.members r).length ++ bBool d.fitted ++ b2 d.spacing ++ b4 d.window ++ b1 d.count ++ b2 d.nominal ++ b1 d.floor ++
  s.remaining d.spacingEnd ++ b1 d.lowRun

def railStatusResult (rail : Byte) (s : State) : Result := statusOf 6 rail railContents s

/-- RAIL_STATUS (R193). -/
def execRailStatus (w : When) (p : PortId) (rail : Byte) (s : State) : Answer :=
  .next (request w p 0x66#8 (railStatusResult rail) s)

/-! ## CURVE_STATUS and DAMPER_STATUS -/

/-- The contents of CURVE_STATUS (R82). -/
def curveContents (t : TableId) (s : State) : List Byte :=
  let c := s.table t
  c.live.toList.flatMap b2 ++ c.staging.toList.flatMap b2 ++ bBool c.commitPending ++ b1 s.shaper.mode.code

def curveStatusResult (table : Byte) (s : State) : Result := statusOf 8 table curveContents s

/-- CURVE_STATUS (R82). -/
def execCurveStatus (w : When) (p : PortId) (table : Byte) (s : State) : Answer :=
  .next (request w p 0x67#8 (curveStatusResult table) s)

/-- A hold's items (R107). -/
def Hold.bytes (h : Hold) : List Byte := b1 h.voice.1 ++ oId h.bar ++ o4 h.endTick

/-- The end of a unit's lift or clamp in progress. -/
def Damper.moveEnd (d : Damper) : Option Nat := d.liftEnd.or d.clampEnd

/-- The contents of DAMPER_STATUS (R107). -/
def damperContents (u : UnitId) (s : State) : List Byte :=
  let d := s.damper u
  b1 d.state.code ++ b2 d.lift ++ b2 d.clamp ++ b4 d.minOpen ++ s.remaining d.moveEnd ++ s.since 500001 d.openSince ++
  b1 d.holds.length ++ d.holds.flatMap Hold.bytes

def damperStatusResult (unit : Byte) (s : State) : Result := statusOf 4 unit damperContents s

/-- DAMPER_STATUS (R107). -/
def execDamperStatus (w : When) (p : PortId) (unit : Byte) (s : State) : Answer :=
  .next (request w p 0x68#8 (damperStatusResult unit) s)

/-! ## SENSE_STATUS and STAGE_STATUS -/

/-- A listen window's items (R141). A window past its close time that waits for its last conversion has 0 µs remaining (log entry
21). -/
def State.windowBytes (s : State) (x : Window) : List Byte :=
  b1 x.pickup.1 ++ b1 x.slot.1 ++ b1 x.striker.1 ++ s.remaining (some x.closeTime) ++ b2 x.samples ++ o2 x.peak

/-- The contents of SENSE_STATUS (R141, R193): the open windows, and the settings of a pickup named. That the number of windows stands
before them, and that they stand in the order in which they opened, is the model's choice (log entry 21). -/
def senseContents (named : Option PickupId) (s : State) : List Byte :=
  b1 s.sense.windows.length ++ s.sense.windows.flatMap s.windowBytes ++
  (match named with
    | some k => b1 (s.sense.pickups.look k).gain ++ b4 (s.sense.pickups.look k).length
    | none => [])

def senseStatusResult (pickup : Byte) (s : State) : Result :=
  match optionalId 24 pickup with
  | none => refuse .range s
  | some named => statusOk (senseContents named) s

/-- SENSE_STATUS (R141). -/
def execSenseStatus (w : When) (p : PortId) (pickup : Byte) (s : State) : Answer :=
  .next (request w p 0x69#8 (senseStatusResult pickup) s)

/-- The contents of STAGE_STATUS (R160): for each fitted rail, in order of number, the time since its settle since and its
bled mark. -/
def State.stageContents (s : State) : List Byte :=
  let c := s.stage
  b1 c.stage.code ++ b1 (targetCode c.target) ++ bBool c.guardClosed ++ bBool s.permission ++ bBool s.alert ++
  b1 c.cause.code ++ b2 c.settleMs ++ b2 c.timeoutMs ++ s.remaining (c.chargeDue.or c.dischargeDue) ++
  (s.rails.toList.filter (·.fitted)).flatMap (fun r => s.since 4294967294 r.settleSince ++ bBool r.bled)

def stageStatusResult (s : State) : Result := statusOk State.stageContents s

/-- STAGE_STATUS (R160). -/
def execStageStatus (w : When) (p : PortId) (s : State) : Answer := .next (request w p 0x6A#8 stageStatusResult s)

end Sys2Proof.Machine
end

