-- ==== Sys2Proof/Machine/LinkOps.lean ====
section
/-! DEFINITION. The link ports (spec/09): the port reset, the receiver, and the frame that a check byte completes. -/
namespace Sys2Proof.Machine

/-! ## Port reset -/

/-- The report mark of every entry that reports to the port is cleared (R27). -/
def State.clearMarks (p : PortId) (s : State) : State :=
  { s with entries := s.entries.map (fun e => if e.port = p then { e with report := false } else e) }

/-- Several voices close one after another. -/
def State.closeVoices : List VoiceId → State → State
  | [], s => s
  | v :: rest, s => State.closeVoices rest (s.closeVoice v).1

/-- The WAITING and RELEASED entries of voice 15 lose their report marks, so that they leave without records (R27), those that
an earlier chime port started too (log entry 28). -/
def State.clearChimeMarks (s : State) : State :=
  { s with entries := s.entries.map (fun e =>
      if e.voice = chimeVoice && e.state ≠ .firing then { e with report := false } else e) }

/-- The chime is halted and flushed, without records, by a reset of the chime port (R27). -/
def State.dropChime (p : PortId) (s : State) : State :=
  if s.chimePort = some p then
    { ((s.haltPlayer chimeVoice).clearChimeMarks.flushVoice chimeVoice).1 with chimePort := none }
  else s

/-- The conductor role is released where the port holds it (R21). -/
def State.dropConductor (p : PortId) (s : State) : State :=
  if s.timeline.conductor = some p then s.setConductor none else s

/-- A port's own state after its reset (R175): link state, echo queue, notices, settings and load pointer. What the line has
done so far stands (log entry 24). -/
def Port.reset (q : Port) : Port :=
  { Port.initial with gapStart := q.gapStart, lineLow := q.lineLow, highSince := q.highSince }

/-- A port reset (R175, R27). -/
def State.portReset (p : PortId) (s : State) : State :=
  let s := s.clearMarks p
  ((State.closeVoices (portVoices.filter (fun v => s.owns p v)) s).dropChime p).dropConductor p |>.modPort p Port.reset

/-! ## The reply on the line -/

/-- The frame that carries a reply (R170): the start byte, the payload's length, the kind, the payload and its check byte. -/
def Reply.frame (r : Reply) : List Byte := frameBytes r.kind r.payload

/-- The bytes that a port sends while a reply is in progress (R169, R170). -/
def State.sending (p : PortId) (s : State) : List Byte := (s.port p).reply.elim [] Reply.frame

/-! ## Answers of the port itself -/

/-- A reply that the port makes of itself, of kind 0xFF (R168, checks 1 and 2). -/
def Port.refuseFrame (st : Status) (q : Port) : Port := q.hunt.answer 0xFF#8 st []

/-- A frame whose check byte does not match (R168, check 1): the silence timer goes on. -/
def State.frameMismatch (p : PortId) (s : State) : State :=
  if s.ready p then s.modPort p (Port.refuseFrame .frame) else s.loseFrame p

/-- A good frame whose kind names no request (R168, check 2). -/
def State.frameUnknown (p : PortId) (s : State) : State :=
  if s.ready p then s.modPort p (fun q => (q.restartSilence s.now).refuseFrame .unknown) else s.loseFrame p

/-! ## What each request does, by its command -/

/-- The effect of a request with its answer, none for a command that is no request. -/
def resultOf : Instr → Option (State → Result)
  | .setRail _ _ a b c d e f g => some (setRailResult a b c d e f g)
  | .setStriker _ _ a b c d e f g h => some (setStrikerResult a b c d e f g h)
  | .setBar _ _ a b c d e f g => some (setBarResult a b c d e f g)
  | .setClass _ _ a b c => some (setClassResult a b c)
  | .setDamper _ _ a b c d => some (setDamperResult a b c d)
  | .setCharge _ _ a b => some (setChargeResult a b)
  | .setQuota _ _ a b => some (setQuotaResult a b)
  | .setCurve _ _ a b c => some (setCurveResult a b c)
  | .curveMode _ _ a => some (curveModeResult a)
  | .commit _ _ a => some (commitResult a)
  | .setScan _ _ a b c => some (setScanResult a b c)
  | .setPort _ p a b c => some (setPortResult p a b c)
  | .conduct _ p a => some (conductResult p a)
  | .tempo _ p a => some (tempoResult p a)
  | .ramp _ p a b => some (rampResult p a b)
  | .meter _ p a => some (meterResult p a)
  | .run _ p => some (runResult p)
  | .stop _ p => some (stopResult p)
  | .locate _ p a => some (locateResult p a)
  | .source w p a => some (sourceResult w.order p a)
  | .openVoice _ p a b c d => some (openResult p a b c d)
  | .closeVoice _ p a => some (closeResult p a)
  | .strike _ p a b c d e f g => some (strokeResult p a b c d e f g .single)
  | .roll _ p a b c d e f g h i =>
    some (strokeResult p a b c d e f g (.roll (RollPart.asked h.toNat i.toNat)))
  | .press _ p a b c d e f g h i =>
    some (strokeResult p a b c d e f g (.press { holdMs := h.toNat, duty := i.toNat }))
  | .chop _ p a b => some (chopResult p a b)
  | .cancel _ p a b => some (cancelResult p a b)
  | .flush _ p a => some (flushResult p a)
  | .unlock _ _ a => some (unlockResult a)
  | .seek _ p a => some (seekResult p a)
  | .load _ p a => some (loadResult p a)
  | .peek _ _ a b => some (peekResult a b)
  | .setArea _ p a b c => some (setAreaResult p a b c)
  | .cue w p a b c d e f => some (cueResult w.order p a b c d e f)
  | .chime w p a b c d e => some (chimeResult w.order p a b c d e)
  | .halt _ p a b => some (haltResult p a b)
  | .push w p a b => some (pushResult w.order p a b)
  | .clear _ p a => some (clearResult p a)
  | .pedal _ p a b c => some (pedalResult p a b c)
  | .up _ _ => some upResult
  | .play _ _ => some playResult
  | .rest _ _ => some restResult
  | .down _ _ => some downResult
  | .echoRead _ p a => some (echoReadResult p a)
  | .notices _ p => some (noticesResult p)
  | .timeStatus _ _ => some timeStatusResult
  | .calendarStatus _ _ => some calendarStatusResult
  | .entryStatus _ _ a => some (entryStatusResult a)
  | .voiceStatus _ _ a => some (voiceStatusResult a)
  | .barStatus _ _ a => some (barStatusResult a)
  | .strikerStatus _ _ a => some (strikerStatusResult a)
  | .railStatus _ _ a => some (railStatusResult a)
  | .curveStatus _ _ a => some (curveStatusResult a)
  | .damperStatus _ _ a => some (damperStatusResult a)
  | .senseStatus _ _ a => some (senseStatusResult a)
  | .stageStatus _ _ => some stageStatusResult
  | _ => none

/-! ## The receiver -/

/-- A byte taken outside CHECK (R167): the next receiver state. -/
def Port.accept (now : Nat) (value : Byte) (q : Port) : Port :=
  match q.receiver with
  | .hunt => if value = startByte then { q with receiver := .length, gapStart := now } else q
  | .length =>
    if value.toNat ≤ 60 then { q with receiver := .kind, frameLength := value.toNat, gapStart := now } else q.hunt
  | .kind =>
    { q with receiver := if q.frameLength = 0 then .check else .payload, frameKind := value, gapStart := now }
  | .payload =>
    { q with
      receiver := if q.frameLength ≤ q.framePayload.length + 1 then .check else .payload
      framePayload := q.framePayload ++ [value]
      gapStart := now }
  | .check => q.hunt

/-- The byte comes so late that the gap before its start bit is longer than 200 µs: its stop bit ends 10 µs after that start
(R166, R167). -/
def Port.lateByte (now : Nat) (q : Port) : Bool := q.receiver ≠ .hunt && q.gapStart + 210 < now

/-- The receiver takes a byte that ends now: after a framing error only one whose start bit, 10 µs before, came once the line
had been high for one bit time (R166; log entry 11). -/
def Port.listens (now : Nat) (q : Port) : Bool :=
  match q.highSince with
  | none => true
  | some t => decide (t + 11 ≤ now)

/-- The length, kind and payload bytes of the frame being received (R168). -/
def Port.frameBody (q : Port) : List Byte := BitVec.ofNat 8 q.frameLength :: q.frameKind :: q.framePayload

/-- A frame received whole (R168): the check byte, the kind, the length, the request itself. That a stage request's frame of a wrong
length is answered without the stage and the chain target is the model's choice (R170, R190, log entry 34). -/
def State.wholeFrame (w : When) (p : PortId) (check : Byte) (s : State) : State :=
  let q := s.port p
  if crc8 q.frameBody ≠ check then s.frameMismatch p
  else match readRequest w p q.frameKind q.framePayload with
    | .unknown => s.frameUnknown p
    | .badLength => request w p q.frameKind (refuse .length) s
    | .request c => match resultOf c with
      | some body => request w p q.frameKind body s
      | none => s.frameUnknown p

/-- A byte that the receiver takes while READY is asserted (R167). -/
def State.takeByte (w : When) (p : PortId) (value : Byte) (s : State) : State :=
  let s := if (s.port p).lateByte s.now then s.modPort p Port.hunt else s
  if (s.port p).receiver = .check then s.wholeFrame w p value else s.modPort p (Port.accept s.now value)

/-- A byte that arrives (R165, R166, R167, R169): not taken, taken, discarded, or discarded with the overflow flag set. -/
def State.byteArrives (w : When) (p : PortId) (value : Byte) (s : State) : State :=
  if !(s.port p).listens s.now then s
  else if s.ready p then s.takeByte w p value
  else if value = startByte then s.loseFrame p
  else s

end Sys2Proof.Machine
end

