-- ==== Sys2Proof/Machine/LinkEvents.lean ====
section
/-! DEFINITION. The events of the serial line and of the ports' own timers (R166 to R170, R174), one meaning each. -/
namespace Sys2Proof.Machine

/-- A byte whose stop bit is sampled low (R166): the frame in progress is abandoned silently, and the receiver waits for the
line to be high for one bit time. -/
def Port.misframed (now : Nat) (q : Port) : Port := { q.hunt with highSince := some now }

/-- FRAMING_ERROR (R166). -/
def execFramingError (w : When) (p : PortId) (s : State) : Answer :=
  .next (event w.time (fun s => if s.held then s else s.modPort p (Port.misframed s.now)) s)

/-- BREAK (R166): one port reset, and READY stays deasserted until the line returns high. None is detected while READY is held
deasserted for the fill or for RESET (R165), and a low that lasts longer does not repeat it. -/
def execLineBreak (w : When) (p : PortId) (s : State) : Answer :=
  .next (event w.time (fun s =>
    if s.held || (s.port p).lineLow then s
    else (s.portReset p).modPort p (fun q => { q with lineLow := true })) s)

/-- The line returns high after a break (R166): a receiver that waits since a framing error sees it high from now on. -/
def Port.lineHigh (now : Nat) (q : Port) : Port :=
  { q with lineLow := false, highSince := if q.lineLow then q.highSince.map (fun _ => now) else q.highSince }

/-- BREAK_END (R166). -/
def execBreakEnd (w : When) (p : PortId) (s : State) : Answer :=
  .next (event w.time (fun s => s.modPort p (Port.lineHigh s.now)) s)

/-- The first moment at which a gap outside HUNT is known to last more than 200 µs (R167): a byte whose start bit came within
200 µs would have ended 10 µs after that (log entry 11). -/
def Port.gapDue (q : Port) : Option Nat := if q.receiver = .hunt then none else some (q.gapStart + 211)

/-- FRAME_GAP_TIMEOUT (R167): the frame is abandoned silently. -/
def execFrameGapTimeout (w : When) (p : PortId) (s : State) : Answer :=
  .next (timerEvent w (s.port p).gapDue (fun s => s.modPort p Port.hunt) s)

/-- FRAME_LENGTH_ABANDON (R167): a length byte of 61–255 taken in LENGTH abandons the frame silently. -/
def execFrameLengthAbandon (w : When) (p : PortId) (length : Byte) (s : State) : Answer :=
  .next (event w.time (fun s =>
    if s.ready p && (s.port p).receiver = .length && 60 < length.toNat then s.modPort p Port.hunt else s) s)

/-- START_BYTE_OVERFLOW (R169): a 0xC5 received while READY is deasserted. -/
def execStartByteOverflow (w : When) (p : PortId) (s : State) : Answer :=
  .next (event w.time (fun s => if s.ready p then s else s.loseFrame p) s)

/-- CHECK_BYTE_MISMATCH (R168, check 1). -/
def execCheckByteMismatch (w : When) (p : PortId) (s : State) : Answer :=
  .next (event w.time (State.frameMismatch p) s)

/-- UNKNOWN_KIND (R168, check 2). -/
def execUnknownKind (w : When) (p : PortId) (s : State) : Answer := .next (event w.time (State.frameUnknown p) s)

/-- REPLY_SENT (R169): the reply is out, and READY is asserted again. -/
def execReplySent (w : When) (p : PortId) (s : State) : Answer :=
  .next (event w.time (fun s => s.modPort p (fun q => { q with reply := none })) s)

/-- SILENCE_EXPIRY (R174): the port resets. -/
def execSilenceExpiry (w : When) (p : PortId) (s : State) : Answer :=
  .next (timerEvent w (s.port p).silenceDue (State.portReset p) s)

/-- BYTE_TAKEN (R167), at the end of the byte's stop bit. -/
def execByteTaken (w : When) (p : PortId) (value : Byte) (s : State) : Answer :=
  .next (event w.time (State.byteArrives w p value) s)

end Sys2Proof.Machine
end

