-- ==== Sys2Proof/Machine/PowerEvents.lean ====
section
/-! DEFINITION. Power-on, the RESET pin, GUARD and the stage controller's timers (R153, R157, R158, R163, R164). -/
namespace Sys2Proof.Machine

/-- POWER_ON (R163): every block takes its power-on values, and the fill begins. -/
def State.powerUp (s : State) : State :=
  State.initial s.now s.power.guardHigh s.mem (.running (s.now + 2000)) s.pending

/-- POWER_ON (R163). -/
def execPowerOn (w : When) (s : State) : Answer := .next (s.reach w.time).powerUp

/-- The time at which a fill in progress ends. -/
def Fill.due : Fill → Option Nat
  | .running t => some t
  | _ => Option.none

/-- PHRASE_MEMORY_FILL_END (R108, R163): memory holds END steps throughout, and READY is asserted on every port. -/
def execPhraseMemoryFillEnd (w : When) (s : State) : Answer :=
  .next (timerEvent w s.power.fill.due (fun s => { s with mem := [], power := { s.power with fill := .none } }) s)

/-- The fill as an assertion of RESET leaves it: ended where it stands, to begin again (R164). -/
def Fill.interrupt : Fill → Fill
  | .none => .none
  | _ => .interrupted

/-- RESET asserted (R164): frames and replies are abandoned, and from here on no event is taken. -/
def State.assertReset (s : State) : State :=
  { s with
    power := { s.power with inReset := true, fill := s.power.fill.interrupt }
    ports := s.ports.mapWith (fun _ q => { q.hunt with reply := none }) }

/-- RESET_ASSERT (R164). -/
def execResetAssert (w : When) (s : State) : Answer := .next (s.reach w.time).assertReset

/-- RESET released (R164): every block takes its RESET values, and memory keeps its bytes; a fill that was ended begins again. -/
def State.releaseReset (s : State) : State :=
  if s.power.inReset then
    State.initial s.now s.power.guardHigh s.mem
      (if s.power.fill = .none then .none else .running (s.now + 2000)) s.pending
  else s

/-- RESET_RELEASE (R164). -/
def execResetRelease (w : When) (s : State) : Answer := .next (s.reach w.time).releaseReset

/-- The level of GUARD. It is kept while RESET is asserted, for the release to take the guard state from (R147). -/
def State.guardLevel (high : Bool) (s : State) : State := { s with power := { s.power with guardHigh := high } }

/-- GUARD_EDGE (R158): a level that the guard state already shows is no edge. -/
def execGuardEdge (w : When) (closed : Bool) (s : State) : Answer :=
  .next (event w.time (fun s => if s.stage.guardClosed = closed then s else s.guardMoved closed)
    (s.guardLevel closed))

/-- CHARGE_EXPIRY (R153). -/
def execChargeExpiry (w : When) (s : State) : Answer := .next (timerEvent w s.stage.chargeDue State.chargeFailed s)

/-- DISCHARGE_EXPIRY (R157). -/
def execDischargeExpiry (w : When) (s : State) : Answer :=
  .next (timerEvent w s.stage.dischargeDue State.dischargeComplete s)

end Sys2Proof.Machine
end

