-- ==== Sys2Proof/Machine/SenseEvents.lean ====
section
/-! DEFINITION. The sense unit's events (R131 to R139), one meaning each. -/
namespace Sys2Proof.Machine

/-- The first fitted rail from the next rail upward, and after rail 5 on from rail 0 (R133). -/
def State.scanRail (s : State) : Option RailId :=
  ((List.finRange 6).map (fun i => s.sense.nextRail + i)).find? (fun r => (s.rail r).fitted)

/-- A firing of the scan pacer (R133). -/
def State.pacerFires (s : State) : State :=
  let s := s.modSense (fun n => { n with scanDue := n.scanDue + 250 })
  match s.scanRail with
  | none => s
  | some r => s.modSense (fun n => { n.ask s.now (.rail r) with nextRail := r + 1 })

/-- SCAN_PACER_FIRING (R133). -/
def execScanPacerFiring (w : When) (s : State) : Answer :=
  .next (timerEvent w (some s.sense.scanDue) State.pacerFires s)

/-- The completion of a rail conversion in progress. -/
def Sense.railDone (n : Sense) : Option Nat :=
  match n.conv with
  | some c => match c.input with
    | .rail _ => some c.done
    | .pickup _ => none
  | none => none

/-- A rail conversion delivers the input at its start, in mV (R131, R134). -/
def State.railConverted (millivolts : Nat) (s : State) : State :=
  match s.sense.conv with
  | some c => match c.input with
    | .rail r => ((s.modSense (Sense.next s.now)).railSample r (millivolts / 10)).settle
    | .pickup _ => s
  | none => s

/-- RAIL_CONVERSION_COMPLETE (R134): `millivolts` is the input at the conversion's start. -/
def execRailConversionComplete (w : When) (millivolts : Half) (s : State) : Answer :=
  .next (timerEvent w s.sense.railDone (State.railConverted millivolts.toNat) s)

/-- The time at which the open window on a pickup next has a sample due (R138). -/
def Sense.sampleTime (n : Sense) (k : PickupId) : Option Nat :=
  match n.windowOn k with
  | some x => if x.nextSample < x.closeTime then some x.nextSample else none
  | none => none

/-- A window's sample comes due (R138, R131). -/
def Sense.sampleDue (now : Nat) (k : PickupId) (n : Sense) : Sense :=
  { n with windows := n.windows.map (fun (x : Window) => if x.pickup = k then { x with nextSample := x.nextSample + 250 } else x) }.ask
    now (.pickup k)

/-- WINDOW_SAMPLE_DUE (R138). -/
def execWindowSampleDue (w : When) (pickup : PickupId) (s : State) : Answer :=
  .next (timerEvent w (s.sense.sampleTime pickup) (fun s => s.modSense (Sense.sampleDue s.now pickup)) s)

/-- The completion of a pickup conversion in progress. -/
def Sense.pickupDone (n : Sense) : Option Nat :=
  match n.conv with
  | some c => match c.input with
    | .pickup _ => some c.done
    | .rail _ => none
  | none => none

/-- A pickup conversion delivers its figure at the gain in force at its start (R131, R132, R138). -/
def State.pickupConverted (input : Int) (s : State) : State :=
  match s.sense.conv with
  | some c => match c.input with
    | .pickup k =>
      ((s.modSense (Sense.next s.now)).deliverPickup k (figurePeak (pickupFigure input c.gain))).settle
    | .rail _ => s
  | none => s

/-- PICKUP_CONVERSION_COMPLETE (R138): `input` is the input at the conversion's start, in eighths of a gain-1 count (log
entry 8). -/
def execPickupConversionComplete (w : When) (input : Int) (s : State) : Answer :=
  .next (timerEvent w s.sense.pickupDone (State.pickupConverted input) s)

/-- The close time of the open window on a pickup, where no sample of it is outstanding (R139). -/
def Sense.closeDue (n : Sense) (k : PickupId) : Option Nat :=
  match n.windowOn k with
  | some x => if n.sampleOutstanding k then none else some x.closeTime
  | none => none

/-- WINDOW_CLOSE (R139). -/
def execWindowClose (w : When) (pickup : PickupId) (s : State) : Answer :=
  .next (timerEvent w (s.sense.closeDue pickup) (fun s =>
    match s.sense.windowOn pickup with
    | some x => (s.closeWindow x).settle
    | none => s) s)

end Sys2Proof.Machine
end

