-- ==== Sys2Proof/Machine/TimelineEvents.lean ====
section
/-! DEFINITION. The timeline's events (R5, R16, R18 to R20) and the players' resumption (R121). -/
namespace Sys2Proof.Machine

/-- The wall time taken as now at the counter's next expiry (R2). -/
def Timeline.expiryTime (t : Timeline) : Option Nat := t.tickDue.map nearestWall

/-- The counter's expiry: in SYNC mode at the last tick of a beat it is not taken as a tick expiry, and the timeline enters
HELD (R18). -/
def State.counterExpires (o : Interleaving) (s : State) : State :=
  match s.timeline.tickDue with
  | none => s
  | some due =>
    if s.timeline.source = .sync && s.timeline.tickInBeat = 239 then s.enterHeld else s.counterTick o due

/-- TICK_EXPIRY (R5, R18). -/
def execTickExpiry (w : When) (s : State) : Answer :=
  .next (timerEvent w s.timeline.expiryTime (State.counterExpires w.order) s)

/-- SYNC_OUT_PULSE_END (R20). -/
def execSyncOutPulseEnd (w : When) (s : State) : Answer :=
  .next (timerEvent w s.timeline.syncOutEnd (State.modTimeline (fun t => { t with syncOutEnd := none })) s)

/-- SYNC_IN_PULSE (R16, R17). -/
def execSyncInPulse (w : When) (s : State) : Answer := .next (event w.time (State.syncPulse w.order) s)

/-- Sync is lost (R19): the timeline falls back to INTERNAL and crosses the beat boundary at once. -/
def State.syncLost (o : Interleaving) (s : State) : State := (s.toInternal o).raiseAll .syncLost

/-- LOSS_TIMER_EXPIRY (R19). -/
def execLossTimerExpiry (w : When) (s : State) : Answer :=
  .next (timerEvent w s.timeline.lossDue (State.syncLost w.order) s)

/-- PLAYER_STALL_RESUME (R121): a STALLED player that has been told enters RUNNING and takes steps. -/
def execPlayerStallResume (w : When) (v : VoiceId) (s : State) : Answer :=
  .next (event w.time (fun s =>
    if (s.player v).state = .stalled && (s.player v).told then (s.resumePlayer w.order v).settle else s) s)

end Sys2Proof.Machine
end

