-- ==== Sys2Proof/Machine/Dispatch.lean ====
section
/-! DEFINITION. One arm per command: each calls its meaning. -/
namespace Sys2Proof.Machine

/-- The effect of a command on everything but the queue. -/
def exec (i : Instr) (s : State) : Host.Outcome State Fault Refusal :=
  match i with
  | .powerOn w => Sys2Proof.Machine.execPowerOn w s
  | .phraseMemoryFillEnd w => Sys2Proof.Machine.execPhraseMemoryFillEnd w s
  | .resetAssert w => Sys2Proof.Machine.execResetAssert w s
  | .resetRelease w => Sys2Proof.Machine.execResetRelease w s
  | .framingError w p => Sys2Proof.Machine.execFramingError w p s
  | .lineBreak w p => Sys2Proof.Machine.execLineBreak w p s
  | .breakEnd w p => Sys2Proof.Machine.execBreakEnd w p s
  | .frameGapTimeout w p => Sys2Proof.Machine.execFrameGapTimeout w p s
  | .frameLengthAbandon w p length => Sys2Proof.Machine.execFrameLengthAbandon w p length s
  | .startByteOverflow w p => Sys2Proof.Machine.execStartByteOverflow w p s
  | .checkByteMismatch w p => Sys2Proof.Machine.execCheckByteMismatch w p s
  | .unknownKind w p => Sys2Proof.Machine.execUnknownKind w p s
  | .replySent w p => Sys2Proof.Machine.execReplySent w p s
  | .silenceExpiry w p => Sys2Proof.Machine.execSilenceExpiry w p s
  | .setRail w p rail fitted spacing window count nominal floor => Sys2Proof.Machine.execSetRail w p rail fitted spacing window count nominal floor s
  | .setStriker w p striker recovery minPulse maxPulse table soft hard lock => Sys2Proof.Machine.execSetStriker w p striker recovery minPulse maxPulse table soft hard lock s
  | .setBar w p bar cls first second damper pickup threshold => Sys2Proof.Machine.execSetBar w p bar cls first second damper pickup threshold s
  | .setClass w p cls lead slip => Sys2Proof.Machine.execSetClass w p cls lead slip s
  | .setDamper w p unit lift clamp minOpen => Sys2Proof.Machine.execSetDamper w p unit lift clamp minOpen s
  | .setCharge w p settle timeout => Sys2Proof.Machine.execSetCharge w p settle timeout s
  | .setQuota w p port quota => Sys2Proof.Machine.execSetQuota w p port quota s
  | .setCurve w p table first points => Sys2Proof.Machine.execSetCurve w p table first points s
  | .curveMode w p mode => Sys2Proof.Machine.execCurveMode w p mode s
  | .commit w p table => Sys2Proof.Machine.execCommit w p table s
  | .setScan w p pickup gain length => Sys2Proof.Machine.execSetScan w p pickup gain length s
  | .setPort w p enables watermark silence => Sys2Proof.Machine.execSetPort w p enables watermark silence s
  | .conduct w p release => Sys2Proof.Machine.execConduct w p release s
  | .tempo w p c => Sys2Proof.Machine.execTempo w p c s
  | .ramp w p target beats => Sys2Proof.Machine.execRamp w p target beats s
  | .meter w p beats => Sys2Proof.Machine.execMeter w p beats s
  | .run w p => Sys2Proof.Machine.execRun w p s
  | .stop w p => Sys2Proof.Machine.execStop w p s
  | .locate w p position => Sys2Proof.Machine.execLocate w p position s
  | .source w p mode => Sys2Proof.Machine.execSource w p mode s
  | .openVoice w p voice priority low high => Sys2Proof.Machine.execOpenVoice w p voice priority low high s
  | .closeVoice w p voice => Sys2Proof.Machine.execCloseVoice w p voice s
  | .strike w p voice bar form due strength tag sustain => Sys2Proof.Machine.execStrike w p voice bar form due strength tag sustain s
  | .roll w p voice bar form due strength tag sustain count spacing => Sys2Proof.Machine.execRoll w p voice bar form due strength tag sustain count spacing s
  | .press w p voice bar form due strength tag sustain hold duty => Sys2Proof.Machine.execPress w p voice bar form due strength tag sustain hold duty s
  | .chop w p voice tag => Sys2Proof.Machine.execChop w p voice tag s
  | .cancel w p voice tag => Sys2Proof.Machine.execCancel w p voice tag s
  | .flush w p voice => Sys2Proof.Machine.execFlush w p voice s
  | .unlock w p striker => Sys2Proof.Machine.execUnlock w p striker s
  | .seek w p address => Sys2Proof.Machine.execSeek w p address s
  | .load w p data => Sys2Proof.Machine.execLoad w p data s
  | .peek w p address count => Sys2Proof.Machine.execPeek w p address count s
  | .setArea w p voice first last => Sys2Proof.Machine.execSetArea w p voice first last s
  | .cue w p voice mode loops form start horizon => Sys2Proof.Machine.execCue w p voice mode loops form start horizon s
  | .chime w p address loops form start horizon => Sys2Proof.Machine.execChime w p address loops form start horizon s
  | .halt w p voice option => Sys2Proof.Machine.execHalt w p voice option s
  | .push w p voice steps => Sys2Proof.Machine.execPush w p voice steps s
  | .clear w p voice => Sys2Proof.Machine.execClear w p voice s
  | .pedal w p voice unit direction => Sys2Proof.Machine.execPedal w p voice unit direction s
  | .up w p => Sys2Proof.Machine.execUp w p s
  | .play w p => Sys2Proof.Machine.execPlay w p s
  | .rest w p => Sys2Proof.Machine.execRest w p s
  | .down w p => Sys2Proof.Machine.execDown w p s
  | .echoRead w p count => Sys2Proof.Machine.execEchoRead w p count s
  | .notices w p => Sys2Proof.Machine.execNotices w p s
  | .timeStatus w p => Sys2Proof.Machine.execTimeStatus w p s
  | .calendarStatus w p => Sys2Proof.Machine.execCalendarStatus w p s
  | .entryStatus w p slot => Sys2Proof.Machine.execEntryStatus w p slot s
  | .voiceStatus w p voice => Sys2Proof.Machine.execVoiceStatus w p voice s
  | .barStatus w p bar => Sys2Proof.Machine.execBarStatus w p bar s
  | .strikerStatus w p striker => Sys2Proof.Machine.execStrikerStatus w p striker s
  | .railStatus w p rail => Sys2Proof.Machine.execRailStatus w p rail s
  | .curveStatus w p table => Sys2Proof.Machine.execCurveStatus w p table s
  | .damperStatus w p unit => Sys2Proof.Machine.execDamperStatus w p unit s
  | .senseStatus w p pickup => Sys2Proof.Machine.execSenseStatus w p pickup s
  | .stageStatus w p => Sys2Proof.Machine.execStageStatus w p s
  | .tickExpiry w => Sys2Proof.Machine.execTickExpiry w s
  | .syncOutPulseEnd w => Sys2Proof.Machine.execSyncOutPulseEnd w s
  | .syncInPulse w => Sys2Proof.Machine.execSyncInPulse w s
  | .lossTimerExpiry w => Sys2Proof.Machine.execLossTimerExpiry w s
  | .targetFireTimeReached w slot => Sys2Proof.Machine.execTargetFireTimeReached w slot s
  | .deadlineExpiry w slot => Sys2Proof.Machine.execDeadlineExpiry w slot s
  | .spacingEnd w rail => Sys2Proof.Machine.execSpacingEnd w rail s
  | .windowSlotFreeing w rail => Sys2Proof.Machine.execWindowSlotFreeing w rail s
  | .driveEnd w striker => Sys2Proof.Machine.execDriveEnd w striker s
  | .holdEnd w striker => Sys2Proof.Machine.execHoldEnd w striker s
  | .recoveryEnd w striker => Sys2Proof.Machine.execRecoveryEnd w striker s
  | .coolingStep w => Sys2Proof.Machine.execCoolingStep w s
  | .liftEnd w unit => Sys2Proof.Machine.execLiftEnd w unit s
  | .minimumOpenExpiry w unit => Sys2Proof.Machine.execMinimumOpenExpiry w unit s
  | .clampEnd w unit => Sys2Proof.Machine.execClampEnd w unit s
  | .playerStallResume w voice => Sys2Proof.Machine.execPlayerStallResume w voice s
  | .scanPacerFiring w => Sys2Proof.Machine.execScanPacerFiring w s
  | .railConversionComplete w millivolts => Sys2Proof.Machine.execRailConversionComplete w millivolts s
  | .windowSampleDue w pickup => Sys2Proof.Machine.execWindowSampleDue w pickup s
  | .pickupConversionComplete w input => Sys2Proof.Machine.execPickupConversionComplete w input s
  | .windowClose w pickup => Sys2Proof.Machine.execWindowClose w pickup s
  | .chargeExpiry w => Sys2Proof.Machine.execChargeExpiry w s
  | .dischargeExpiry w => Sys2Proof.Machine.execDischargeExpiry w s
  | .guardEdge w closed => Sys2Proof.Machine.execGuardEdge w closed s
  | .byteTaken w p value => Sys2Proof.Machine.execByteTaken w p value s

end Sys2Proof.Machine
end

