-- ==== Sys2Proof/Machine/Due.lean ====
section
/-! DEFINITION. What the part does of itself when no command waits: of all the events that its timers have coming, the one due
earliest (log entry 9). What comes from outside, the levels on the analog inputs and the open orders, are free values. -/
namespace Sys2Proof.Machine

/-- An event that the part has coming: when, and as which command. -/
abbrev Coming := Nat × Instr

/-- The moment of an event that the part raises by itself. -/
def ownMoment (t : Nat) : When := { time := t, order := Config.interleaving t }

/-- An event on a timer, where the timer runs. -/
def comingAt (due : Option Nat) (c : When → Instr) : List Coming :=
  match due with
  | some t => [(t, c (ownMoment t))]
  | none => []

/-- The events that several numbered things have coming. -/
def comingOf (n : Nat) (due : Fin n → Option Nat) (c : Fin n → When → Instr) : List Coming :=
  (List.finRange n).flatMap (fun i => comingAt (due i) (c i))

/-- A pickup's level held within its input span (pin table). -/
def pickupInput (k : PickupId) (t : Nat) : Int := max (-262144) (min 262143 (Config.pickupLevel k t))

/-- The completion of the conversion in progress: the level is that at its start, 10 µs before (R131). -/
def Sense.coming (n : Sense) : List Coming :=
  match n.conv with
  | none => []
  | some c => match c.input with
    | .rail r => comingAt (some c.done) (fun w => .railConversionComplete w (Config.railLevel r (c.done - 10)))
    | .pickup k => comingAt (some c.done) (fun w => .pickupConversionComplete w (pickupInput k (c.done - 10)))

/-- The events of the timeline, the power-on fill, the shaper and the stage controller. -/
def State.comingSingles (s : State) : List Coming :=
  comingAt s.power.fill.due .phraseMemoryFillEnd ++ comingAt s.timeline.expiryTime .tickExpiry ++
  comingAt s.timeline.syncOutEnd .syncOutPulseEnd ++ comingAt s.timeline.lossDue .lossTimerExpiry ++
  comingAt (some s.shaper.coolDue) .coolingStep ++ comingAt s.stage.chargeDue .chargeExpiry ++
  comingAt s.stage.dischargeDue .dischargeExpiry ++ comingAt (some s.sense.scanDue) .scanPacerFiring ++ s.sense.coming

/-- The events of entries, strikers, rails, damper units, players, windows and ports. -/
def State.comingMany (s : State) : List Coming :=
  comingOf 256 s.targetDue (fun k w => .targetFireTimeReached w k) ++
  comingOf 256 s.deadlineDue (fun k w => .deadlineExpiry w k) ++
  comingOf 6 (fun r => (s.rail r).spacingEnd) (fun r w => .spacingEnd w r) ++
  comingOf 6 (fun r => (s.rail r).freeingDue) (fun r w => .windowSlotFreeing w r) ++
  comingOf 96 (fun n => (s.striker n).driveDue) (fun n w => .driveEnd w n) ++
  comingOf 96 (fun n => (s.striker n).holdDue) (fun n w => .holdEnd w n) ++
  comingOf 96 (fun n => (s.striker n).recoveryDue) (fun n w => .recoveryEnd w n) ++
  comingOf 4 (fun u => (s.damper u).liftDue) (fun u w => .liftEnd w u) ++
  comingOf 4 (fun u => (s.damper u).minDue) (fun u w => .minimumOpenExpiry w u) ++
  comingOf 4 (fun u => (s.damper u).clampDue) (fun u w => .clampEnd w u) ++
  comingOf 16 (fun v => if (s.player v).state = .stalled && (s.player v).told then some s.now else none)
    (fun v w => .playerStallResume w v) ++
  comingOf 24 s.sense.sampleTime (fun k w => .windowSampleDue w k) ++
  comingOf 24 s.sense.closeDue (fun k w => .windowClose w k) ++
  comingOf 4 (fun p => (s.port p).silenceDue) (fun p w => .silenceExpiry w p) ++
  comingOf 4 (fun p => (s.port p).gapDue) (fun p w => .frameGapTimeout w p)

/-- Every event that the part has coming; none while RESET is asserted (R164). -/
def State.coming (s : State) : List Coming := if s.power.inReset then [] else s.comingSingles ++ s.comingMany

/-- The earliest time among some events. -/
def earliest : List Coming → Option Nat
  | [] => none
  | x :: rest => match earliest rest with
    | none => some x.1
    | some t => some (min x.1 t)

/-- One of the events due earliest; which of several is a free choice. -/
def pickComing (l : List Coming) : Option Instr :=
  match earliest l with
  | none => none
  | some t => match l.filter (fun x => x.1 = t) with
    | [] => none
    | [x] => some x.2
    | x :: rest => some ((x :: rest).getD (Config.tieBreak t % (rest.length + 1)) x).2

/-- The event that the part takes next by itself. -/
def State.nextEvent (s : State) : Option Instr := pickComing s.coming

end Sys2Proof.Machine
end

