-- ==== Sys2Proof/Machine/Step.lean ====
section
/-! DEFINITION. One step: the command at the front of the queue, or, with none waiting, the part's own next event, which is put
into the queue (log entry 9). -/
namespace Sys2Proof.Machine

/-- The state with another queue. -/
def State.withQueue (q : List Instr) (s : State) : State := { s with pending := q }

/-- One step. -/
def step (s : State) : Host.Outcome State Fault Refusal :=
  match s.pending with
  | c :: rest => exec c (s.withQueue rest)
  | [] => .next (s.withQueue s.nextEvent.toList)

/-- The state with the command that a table word spells in front of its queue: the table spells none (log entry 4). -/
def State.withFetchWord (s : State) (nbits w : Nat) : State :=
  match decodeTableWord nbits w with
  | some c => s.withQueue (c :: s.pending)
  | none => s

end Sys2Proof.Machine
end

