-- ==== Sys2Proof/Safety.lean ====
section
/-! DEFINITION. The terms that claims about the part use: what a port's answer leaves, and the facts that hold of every sound
state (each an invariant of the step, stated as such in the obligations). -/
namespace Sys2Proof.Machine

/-- `u` answered on port `p` at the moment `w` (R167 to R170, R174): the wall time reached, the receiver hunting with an empty
buffer, the silence expiry moved on, and the reply begun with `st`, the flags byte and `results`, which takes the overflow flag. -/
def State.answering (w : When) (p : PortId) (kind : Byte) (st : Status) (results : List Byte) (u : State) : State :=
  let q := u.port p
  { u with
    now := max u.now w.time
    ports := u.ports.put p { q with
      receiver := .hunt
      frameLength := 0
      frameKind := 0#8
      framePayload := []
      silenceDue := if q.silenceMs = 0 then none else some (max u.now w.time + q.silenceMs * 1000)
      reply := some { kind := kind + 0x80#8, payload := st.code :: q.flagsByte :: results }
      overflow := false } }

/-- The part's reply on a port: kind, status and results (R170). -/
def Port.replied (q : Port) (kind : Byte) (st : Status) (results : List Byte) : Prop :=
  ∃ flags, q.reply = some { kind := kind + 0x80#8, payload := st.code :: flags :: results }

/-- The entries that a test picks leave one after another, in calendar order and with one outcome, each as `State.leave` has it (R46 to
R49). -/
def State.afterLeaving (o : EntryOutcome) (gone : Entry → Bool) (s : State) : State :=
  (s.entries.filter gone).foldl (fun t e => t.leave e.slot o) s

/-- A damper unit at the time `now` that the holds a test picks have left (R100, R101, R103, R105): an OPEN unit left empty whose minimum
open time has passed begins CLAMPING; any other keeps its state and its timers. -/
def Damper.without (now : Nat) (gone : Hold → Bool) (d : Damper) : Damper :=
  let left := d.holds.filter (fun h => !gone h)
  let passed := d.minPassed || (match d.openSince with | some t => decide (t + d.minOpen ≤ now) | none => false)
  if d.state = .opened && left.isEmpty && passed then
    { d with
      holds := left, state := .clamping, clampEnd := some (now + d.clamp), liftEnd := none, openSince := none
      minPassed := false }
  else { d with holds := left }

/-- The one byte that names a numbered thing, 0xFF where it names none (R195). -/
def fieldOf {n : Nat} : Option (Fin n) → Byte
  | some i => BitVec.ofNat 8 i.1
  | none => 0xFF#8

/-- Bytes taken one after another on a port, all at one moment. -/
def receiveBytes (w : When) (p : PortId) : List Byte → State → Answer
  | [], s => .next s
  | b :: rest, s => match exec (.byteTaken w p b) s with
    | .next t => receiveBytes w p rest t
    | other => other

/-- The values that power-on and the release of RESET give, block by block, as the chapters list them (R1, R24, R28, R35, R50, R53,
R62, R76, R93, R116, R130, R147, R165); timers count from the wall time that the state shows. -/
def State.AtInitialValues (t : State) : Prop :=
  (t.timeline.state = .stopped ∧ t.timeline.stopReason = .reset ∧ t.timeline.position = 0 ∧ t.timeline.beatInBar = 0 ∧
    t.timeline.barNumber = 0 ∧ t.timeline.beatsPerBar = 4 ∧ t.timeline.pendingMeter = none ∧ t.timeline.tempo = 12000 ∧
    t.timeline.period = 16667 ∧ t.timeline.pendingPeriod = none ∧ t.timeline.ramp = none ∧ t.timeline.source = .internal ∧
    t.timeline.lastPulse = none ∧ t.timeline.lastInterval = 500010 ∧ t.timeline.conductor = none ∧
    t.timeline.tickDue = none ∧ t.timeline.lossDue = none ∧ t.timeline.syncOutEnd = none ∧
    t.timeline.marimba.lead = 18000 ∧ t.timeline.vibes.lead = 20000 ∧ t.timeline.perc.lead = 12000 ∧
    t.timeline.marimba.leadTicks = 9 ∧ t.timeline.vibes.leadTicks = 10 ∧ t.timeline.perc.leadTicks = 6 ∧
    ∀ c, (t.timeline.times c).slip = 8000) ∧
  (∀ v, v ≠ chimeVoice → t.voice v =
    { state := .closed, owner := none, priority := 0, low := 0, high := 0, area := none }) ∧
  (t.voice chimeVoice).state = .opened ∧ (t.voice chimeVoice).owner = none ∧ (t.voice chimeVoice).priority = 3 ∧
    (t.voice chimeVoice).low = 0 ∧ (t.voice chimeVoice).high = 127 ∧
    (t.voice chimeVoice).area.map (fun a => (a.first, a.last)) = some (0, 4095) ∧
  t.chimePort = none ∧ t.entries = [] ∧ t.nextSeq = 0 ∧ (∀ p, t.quotas.look p = 56) ∧
  (∀ b, t.bar b = { cls := .marimba, first := none, second := none, damper := none, pickup := none, threshold := 0 }) ∧
  (∀ n, t.striker n = {
    bar := none, recovery := 40000, minPulse := 300, maxPulse := 9000, table := 0, soft := 24000, hard := 40000, heat := 0,
    lockThreshold := 3, silentCount := 0, state := .idle, lastFire := none, driveEnd := none, holdEnd := none,
    recoveryEnd := none, lockPending := false, firedLast := false, playing := none }) ∧
  (∀ r, t.rail r = {
    fitted := false, spacing := 1500, window := 20000, count := 4, recent := [], spacingEnd := none, nominal := 2400,
    floor := 80, lastSample := none, state := .off, lowRun := 0, settleSince := none, bled := false }) ∧
  (∀ c k, curvePoint (t.table c).live k = 300 + 580 * min k 15 ∧ (t.table c).staging = (t.table c).live ∧
    (t.table c).commitPending = false) ∧
  t.shaper.mode = .direct ∧ t.shaper.coolDue = t.now + 25000 ∧
  (∀ u, t.damper u = {
    lift := 12000, clamp := 8000, minOpen := 20000, state := .clamped, holds := [], liftEnd := none, clampEnd := none,
    openSince := none, minPassed := false }) ∧
  (∀ v, t.player v = {
    state := .idle, mode := .once, loops := 0, passes := 0, start := 0, horizon := 480, startAddress := 0,
    nextAddress := 0, returnPoint := none, passDue := 0, previousDue := 0, refused := 0, endReason := .none,
    nextDue := none, told := false }) ∧
  (t.sense.conv = none ∧ t.sense.waiting = [] ∧ t.sense.windows = [] ∧ t.sense.closing = none ∧ t.sense.nextRail = 0 ∧
    t.sense.scanDue = t.now + 250 ∧ ∀ k, t.sense.pickups.look k = { gain := 1, length := 40000 }) ∧
  (t.stage.stage = .dormant ∧ t.stage.target = none ∧ t.stage.chargeDue = none ∧ t.stage.dischargeDue = none ∧
    t.stage.cause = .none ∧ t.stage.settleMs = 200 ∧ t.stage.timeoutMs = 3000 ∧
    t.stage.guardClosed = t.power.guardHigh) ∧
  (∀ p, (t.port p).receiver = .hunt ∧ (t.port p).frameLength = 0 ∧ (t.port p).frameKind = 0#8 ∧
    (t.port p).framePayload = [] ∧ (t.port p).reply = none ∧
    (t.port p).overflow = false ∧ (t.port p).pendingNotices = 0#8 ∧ (t.port p).enables = 0#8 ∧
    (t.port p).watermark = 64 ∧ (t.port p).silenceMs = 0 ∧ (t.port p).silenceDue = none ∧ (t.port p).echo = [] ∧
    (t.port p).lost = false ∧ (t.port p).loadPointer = 0)

/-- A one-byte field that names nothing of `n` numbered things. -/
def beyond (n : Nat) (b : Byte) : Bool := n ≤ b.toNat

/-- A one-byte field that names nothing of `n` numbered things and is not absent. -/
def beyondOptional (n : Nat) (b : Byte) : Bool := n ≤ b.toNat && b ≠ 0xFF#8

/-- A gain that is none of the four (R132). -/
def noGain (b : Byte) : Bool := b ≠ 1#8 && b ≠ 2#8 && b ≠ 4#8 && b ≠ 8#8

/-- A request with a field that names a numbered resource beyond its numbering, or a code that names none of its values (R177,
with the numbers of R177 and the codes of R195). The conductor requests are the exception. -/
def namesNothing : Instr → Bool
  | .setRail _ _ rail fitted _ _ _ _ _ => beyond 6 rail || beyond 2 fitted
  | .setStriker _ _ striker _ _ _ table _ _ _ => beyond 96 striker || beyond 8 table
  | .setBar _ _ bar cls first second damper pickup _ =>
    beyond 128 bar || beyond 3 cls || beyondOptional 96 first || beyondOptional 96 second ||
      (first = 0xFF#8 && second ≠ 0xFF#8) || beyondOptional 4 damper || beyondOptional 24 pickup
  | .setClass _ _ cls _ _ => beyond 3 cls
  | .setDamper _ _ unit _ _ _ => beyond 4 unit
  | .setQuota _ _ port _ => beyond 4 port
  | .setCurve _ _ table _ _ => beyond 8 table
  | .curveMode _ _ mode => beyond 2 mode
  | .commit _ _ table => beyondOptional 8 table
  | .setScan _ _ pickup gain _ => beyond 24 pickup || noGain gain
  | .setPort _ _ enables _ _ => enables.toNat ≥ 64
  | .conduct _ _ release => beyond 2 release
  | .openVoice _ _ voice _ _ _ => beyondOptional 15 voice
  | .closeVoice _ _ voice => beyond 16 voice
  | .strike _ _ voice bar form _ _ _ _ => beyond 16 voice || beyond 128 bar || beyond 4 form
  | .roll _ _ voice bar form _ _ _ _ _ _ => beyond 16 voice || beyond 128 bar || beyond 4 form
  | .press _ _ voice bar form _ _ _ _ _ _ => beyond 16 voice || beyond 128 bar || beyond 4 form
  | .chop _ _ voice _ => beyond 16 voice
  | .cancel _ _ voice _ => beyond 16 voice
  | .flush _ _ voice => beyond 16 voice
  | .unlock _ _ striker => beyond 96 striker
  | .setArea _ _ voice _ _ => beyond 16 voice
  | .cue _ _ voice mode _ form _ _ => beyond 16 voice || beyond 3 mode || beyond 2 form
  | .chime _ _ _ _ form _ _ => beyond 2 form
  | .halt _ _ voice option => beyond 16 voice || beyond 2 option
  | .push _ _ voice _ => beyond 16 voice
  | .clear _ _ voice => beyond 16 voice
  | .pedal _ _ voice unit direction => beyond 16 voice || beyondOptional 4 unit || beyond 2 direction
  | .voiceStatus _ _ voice => beyond 16 voice
  | .barStatus _ _ bar => beyond 128 bar
  | .strikerStatus _ _ striker => beyond 96 striker
  | .railStatus _ _ rail => beyond 6 rail
  | .curveStatus _ _ table => beyond 8 table
  | .damperStatus _ _ unit => beyond 4 unit
  | .senseStatus _ _ pickup => beyondOptional 24 pickup
  | _ => false

/-- The seven setup requests that R161 binds to the stages DORMANT, STANDBY and FAULT. -/
def stageBound : Instr → Bool
  | .setRail .. | .setStriker .. | .setBar .. | .setClass .. | .setDamper .. | .setCharge .. | .setQuota .. => true
  | _ => false

/-- Phrase memory is in its canonical form. -/
def State.MemorySound (s : State) : Prop := memWf s.mem = true

/-- The quotas sum to 224 at most, each port's entries are within its quota, the chime's within the reserve, and no echo queue
holds more than 128 records (R30, R143). -/
def State.CalendarSound (s : State) : Prop :=
  quotaSum s.quotas ≤ 224 ∧ (∀ p, s.useCount p ≤ s.quotas.look p) ∧ s.chimeCount ≤ 32 ∧
    ∀ p, (s.port p).echo.length ≤ 128

/-- The entries stand in calendar order, their slots and arrivals are all different, and each arrival lies below the next
one to be given (R28, R29). -/
def State.CalendarOrdered (s : State) : Prop :=
  s.entries.Pairwise (fun a b => a.before b = true) ∧ (s.entries.map (·.slot)).Nodup ∧ (s.entries.map (·.seq)).Nodup ∧
    ∀ e ∈ s.entries, e.seq < s.nextSeq

/-- Both copies of every curve table do not decrease and stay within 12,000, and in DIRECT mode they are equal (R75, R78). -/
def State.CurvesSound (s : State) : Prop :=
  ∀ t, monotonePoints (s.table t).live = true ∧ monotonePoints (s.table t).staging = true ∧
    (s.shaper.mode = .direct → (s.table t).live = (s.table t).staging)

/-- The timeline's own consistency (R1, R5, R8, R10, R12 to R15, R18): the position lies in the tick range and below its end unless
STOPPED, the meter and beat-in-bar lie in their ranges, a ramp runs only in INTERNAL mode, HELD is a state of SYNC mode at the last
tick of a beat, the counter runs exactly in RUNNING, the loss timer exactly in HELD, and STOPPED has no period pending. -/
def State.TimelineSound (s : State) : Prop :=
  s.timeline.position ≤ 4294967295 ∧ (s.timeline.state ≠ .stopped → s.timeline.position < 4294967295) ∧
  1 ≤ s.timeline.beatsPerBar ∧ s.timeline.beatsPerBar ≤ 16 ∧ s.timeline.beatInBar < s.timeline.beatsPerBar ∧
  (∀ m, s.timeline.pendingMeter = some m → 1 ≤ m ∧ m ≤ 16) ∧
  (s.timeline.source = .sync → s.timeline.ramp = none) ∧
  (s.timeline.state = .held → s.timeline.source = .sync ∧ s.timeline.position % 240 = 239) ∧
  (s.timeline.state = .running ↔ s.timeline.tickDue.isSome = true) ∧
  (s.timeline.state = .held ↔ s.timeline.lossDue.isSome = true) ∧
  (s.timeline.state = .stopped → s.timeline.pendingPeriod = none)

/-- The lead ticks of every class are ceil(L × 8 / P) at the period in force (R23). -/
def State.LeadsSound (s : State) : Prop :=
  ∀ c, (s.timeline.times c).leadTicks = leadTicksOf (s.timeline.times c).lead s.timeline.period

/-- Voice 15 has its fixed form (R24, R109). -/
def State.ChimeSound (s : State) : Prop :=
  (s.voice chimeVoice).state = .opened ∧ (s.voice chimeVoice).owner = none ∧ (s.voice chimeVoice).priority = 3 ∧
    (s.voice chimeVoice).low = 0 ∧ (s.voice chimeVoice).high = 127 ∧
    (s.voice chimeVoice).area.map (fun a => (a.first, a.last)) = some (0, 4095)

/-- No rail holds more recent fires than its window count, which is 8 at most, and the strikers of a bar all lie on the bar's
rail (R51, R52, R63 to R65). -/
def State.RailsSound (s : State) : Prop :=
  (∀ r, (s.rail r).recent.length ≤ (s.rail r).count ∧ (s.rail r).count ≤ 8) ∧
    ∀ b, ∀ n ∈ (s.bar b).strikers, (s.bar b).rail = some (railOf n)

/-- Strikers drive and hold only in PLAYING, holds stand on damper lists only in PLAYING and 16 at most, PLAYING and STANDBY have
the guard closed and GUARDED has it open, and the charge and discharge timers run in their own stages (R95, R148, R158). -/
def State.StageSound (s : State) : Prop :=
  (∀ n, (s.striker n).state = .drive ∨ (s.striker n).state = .hold → s.stage.stage = .playing) ∧
  (∀ u, (s.damper u).holds.length ≤ 16 ∧ (s.stage.stage ≠ .playing → (s.damper u).holds = [])) ∧
  (s.stage.stage = .playing ∨ s.stage.stage = .standby → s.stage.guardClosed = true) ∧
  (s.stage.stage = .guarded → s.stage.guardClosed = false) ∧
  (s.stage.chargeDue.isSome = true → s.stage.stage = .charging) ∧
  (s.stage.dischargeDue.isSome = true → s.stage.stage = .discharging)

/-- No decision of an arbiter is left over between commands (the model's own worklist, R68). -/
def State.Settled (s : State) : Prop := s.decisions = []

end Sys2Proof.Machine
end

