-- ==== Sys2Proof/Certificates/Slice0/Obligations.lean ====
section
/-! DEFINITION. The statements for the provers. A request's statement gives the whole next state as an answer of its port
(`State.answering`: the reply, the receiver, the silence expiry) over the state the request leaves, so that it says at once that the
request completes, what it does, and that it leaves everything else. A timer's statement does the same at the time its event is
taken. Where a command hands work on to the calendar or an arbiter, a statement says what every such next state holds. -/

open Sys2Proof Sys2Proof.Machine

/-! ## The step and every command -/

/-- The block's step (the form of this model): the command at the front of the queue is taken with the queue's rest. The
model's own choice (log entry 9): with no command waiting the part's earliest due event is put into the queue, and nothing
else changes; while RESET is asserted there is none. -/
def Obligations.StepRunsFrontCommand : Prop :=
  (∀ (c : Instr) (rest : List Instr) (s : State), s.pending = c :: rest → step s = exec c (s.withQueue rest)) ∧
  (∀ s : State, s.pending = [] →
    step s = .next (s.withQueue s.nextEvent.toList) ∧ (s.power.inReset = true → step s = .next s))

/-- Every command answers with a next state, leaves the queue of waiting commands, never turns the clock back, and leaves no
arbiter's decision over (R68). The clock is the model's own choice, log entry 1. -/
def Obligations.EveryCommandAnswers : Prop :=
  ∀ (c : Instr) (s : State), ∃ t, exec c s = .next t ∧ t.pending = s.pending ∧ s.now ≤ t.now ∧
    (s.decisions = [] → t.decisions = [])

/-! ## Frames on the link -/

/-- Every request that can be sent is read back, field by field, from the kind code and payload that R195 gives it. -/
def Obligations.RequestFramesReadBack : Prop :=
  ∀ (c : Instr) (w : When) (p : PortId) (kind : Byte), c.wellFormed = true → requestPort c = some (w, p) →
    kindCode c = some kind → readRequest w p kind (requestPayload c) = .request c

/-- The bytes of a request's frame, all taken at one moment by a hunting receiver that does not wait after a framing error, do
what the request does. A frame is the start byte, the payload length, the kind, the payload and the check byte, the CRC-8 of the
bytes between; RUN's is C5 00 14 6C. -/
def Obligations.FrameOnTheLineIsTheRequest : Prop :=
  (∀ (kind : Byte) (payload : List Byte), frameBytes kind payload = [0xC5#8, BitVec.ofNat 8 payload.length, kind] ++ payload ++
    [crc8 ([BitVec.ofNat 8 payload.length, kind] ++ payload)]) ∧
  (∀ (w : When) (p : PortId), (kindCode (.run w p)).map (fun kind => frameBytes kind (requestPayload (.run w p))) =
    some [0xC5#8, 0x00#8, 0x14#8, 0x6C#8]) ∧
  ∀ (c : Instr) (w : When) (p : PortId) (kind : Byte) (s : State), c.wellFormed = true → requestPort c = some (w, p) →
    kindCode c = some kind → s.ready p = true → (s.port p).receiver = .hunt → (s.port p).framePayload = [] →
    (∀ t, (s.port p).highSince = some t → t + 11 ≤ max s.now w.time) →
    receiveBytes w p (frameBytes kind (requestPayload c)) s =
      exec c (s.modPort p (fun q => { q with gapStart := max s.now w.time }))

/-- The receiver acts on a byte by its state (the table of R167), and a byte that follows a gap of more than 200 µs is taken
in HUNT. That a byte ends 10 µs after its start bit begins, so that the gap is judged at 210 µs, is the model's reading, log
entry 11. -/
def Obligations.ReceiverFollowsItsTable : Prop :=
  ∀ (w : When) (p : PortId) (b : Byte) (s : State) (q : Port), s.ready p = true → q = s.port p →
    let now := max s.now w.time
    let after : Port → Answer := fun x => .next { s with now := now, ports := s.ports.put p x }
    let hunting : Port := { q with receiver := .hunt, frameLength := 0, frameKind := 0#8, framePayload := [] }
    let inTime : Prop := now ≤ q.gapStart + 210
    (∀ t, q.highSince = some t → t + 11 ≤ now) →
    (q.receiver = .hunt → b = 0xC5#8 →
      exec (.byteTaken w p b) s = after { q with receiver := .length, gapStart := now }) ∧
    (q.receiver = .hunt → b ≠ 0xC5#8 → exec (.byteTaken w p b) s = after q) ∧
    (q.receiver = .length → inTime → b.toNat ≤ 60 →
      exec (.byteTaken w p b) s = after { q with receiver := .kind, frameLength := b.toNat, gapStart := now }) ∧
    (q.receiver = .length → inTime → 60 < b.toNat → exec (.byteTaken w p b) s = after hunting) ∧
    (q.receiver = .kind → inTime → q.frameLength = 0 →
      exec (.byteTaken w p b) s = after { q with receiver := .check, frameKind := b, gapStart := now }) ∧
    (q.receiver = .kind → inTime → q.frameLength ≠ 0 →
      exec (.byteTaken w p b) s = after { q with receiver := .payload, frameKind := b, gapStart := now }) ∧
    (q.receiver = .payload → inTime → q.framePayload.length + 1 < q.frameLength →
      exec (.byteTaken w p b) s = after { q with framePayload := q.framePayload ++ [b], gapStart := now }) ∧
    (q.receiver = .payload → inTime → q.framePayload.length + 1 = q.frameLength →
      exec (.byteTaken w p b) s =
        after { q with receiver := .check, framePayload := q.framePayload ++ [b], gapStart := now }) ∧
    (q.receiver ≠ .hunt → ¬ inTime → b = 0xC5#8 →
      exec (.byteTaken w p b) s = after { hunting with receiver := .length, gapStart := now }) ∧
    (q.receiver ≠ .hunt → ¬ inTime → b ≠ 0xC5#8 → exec (.byteTaken w p b) s = after hunting)

/-- A whole frame is checked in R168's order: the check byte, the kind, the length, the request. A frame answered with FRAME
leaves the silence expiry; the others move it on. That the commands CHECK_BYTE_MISMATCH and UNKNOWN_KIND answer alike, in any
state of the receiver, is the model's choice, log entry 12, and so is a LENGTH answer without results to a stage request too, log
entry 34; that the gap is judged at 210 µs is its reading, log entry 11. -/
def Obligations.WholeFramesAreChecked : Prop :=
  ∀ (w : When) (p : PortId) (b : Byte) (s : State) (q : Port), s.ready p = true → q = s.port p →
    let body := BitVec.ofNat 8 q.frameLength :: q.frameKind :: q.framePayload
    let mismatch : Answer := .next { s with
      now := max s.now w.time
      ports := s.ports.put p { q with
        receiver := .hunt
        frameLength := 0
        frameKind := 0#8
        framePayload := []
        overflow := false
        reply := some { kind := 0xFF#8, payload := [7#8, q.flagsByte] } } }
    exec (.checkByteMismatch w p) s = mismatch ∧
    exec (.unknownKind w p) s = .next (s.answering w p 0x7F#8 .unknown []) ∧
    (q.receiver = .check → max s.now w.time ≤ q.gapStart + 210 →
      (∀ t, q.highSince = some t → t + 11 ≤ max s.now w.time) →
      (crc8 body ≠ b → exec (.byteTaken w p b) s = mismatch) ∧
      (crc8 body = b → readRequest w p q.frameKind q.framePayload = .unknown →
        exec (.byteTaken w p b) s = .next (s.answering w p 0x7F#8 .unknown [])) ∧
      (crc8 body = b → readRequest w p q.frameKind q.framePayload = .badLength →
        exec (.byteTaken w p b) s = .next (s.answering w p q.frameKind .length [])) ∧
      (∀ c, crc8 body = b → readRequest w p q.frameKind q.framePayload = .request c →
        exec (.byteTaken w p b) s = exec c s))

/-- While a reply is in progress a start byte is discarded and sets the overflow flag, any other byte is discarded and sets
nothing (R169), and a request sent then is lost so; while READY is held for the fill, no flag is set (R165). -/
def Obligations.FramesAreLostWhileNotReady : Prop :=
  ∀ (w : When) (p : PortId) (s : State), s.power.inReset = false →
    (s.power.fill = .none → (s.port p).lineLow = false → (s.port p).reply.isSome = true →
      let flagged : Answer := .next { s with
        now := max s.now w.time, ports := s.ports.put p { s.port p with overflow := true } }
      exec (.startByteOverflow w p) s = flagged ∧
      ((∀ t, (s.port p).highSince = some t → t + 11 ≤ max s.now w.time) → exec (.byteTaken w p 0xC5#8) s = flagged) ∧
      (∀ b, b ≠ 0xC5#8 → exec (.byteTaken w p b) s = .next { s with now := max s.now w.time }) ∧
      (∀ c, c.wellFormed = true → requestPort c = some (w, p) → exec c s = flagged)) ∧
    (s.power.fill ≠ .none →
      (∀ b, exec (.byteTaken w p b) s = .next { s with now := max s.now w.time }) ∧
      (∀ c, c.wellFormed = true → requestPort c = some (w, p) → exec c s = .next { s with now := max s.now w.time }))

/-- A framing error, a gap and a length byte above 60 abandon the frame silently, and after a framing error no byte is taken
until the line has been high for one bit time (R166, R167); the end of a reply and the line's return from a break raise READY
(R166, R169). The model's readings and choices: a gap is taken at 211 µs and the line counts as high from the framing error on,
or from the end of a break (log entry 11); FRAME_LENGTH_ABANDON is a command of its own (log entry 12); REPLY_SENT ends the reply
whenever it is taken (log entry 13). -/
def Obligations.LineEventsTakeEffect : Prop :=
  ∀ (w : When) (p : PortId) (s : State), s.power.inReset = false →
    let after : Nat → Port → Answer := fun now x => .next { s with now := now, ports := s.ports.put p x }
    let q := s.port p
    let now := max s.now w.time
    let hunting : Port := { q with receiver := .hunt, frameLength := 0, frameKind := 0#8, framePayload := [] }
    (s.power.fill = .none → exec (.framingError w p) s = after now { hunting with highSince := some now }) ∧
    (∀ t b, q.highSince = some t → now < t + 11 → exec (.byteTaken w p b) s = .next { s with now := now }) ∧
    (q.receiver ≠ .hunt → exec (.frameGapTimeout w p) s = after (max s.now (max (q.gapStart + 211) w.time)) hunting) ∧
    (∀ n : Byte, s.ready p = true → q.receiver = .length → 60 < n.toNat →
      exec (.frameLengthAbandon w p n) s = after now hunting) ∧
    exec (.replySent w p) s = after now { q with reply := none } ∧
    (q.lineLow = true → exec (.breakEnd w p) s =
      after now { q with lineLow := false, highSince := q.highSince.map (fun _ => now) }) ∧
    (q.lineLow = false → exec (.breakEnd w p) s = .next { s with now := now })

/-- A break and the silence expiry reset the port (R175, R27, R21): its own state, the voices it owns, the chime where it is the chime
port, the conductor role and the report marks; all else is left, every block and the other ports among it. The WAITING and RELEASED
entries of those voices leave, and the FIRING ROLLs receive the flush mark, as FLUSH has them; the others stay. No record reaches
another port but of an entry of such a voice that reports there, which no run makes. The players of those voices are halted; of the
others only a STALLED one is told, where an entry left that its admissions count (R30, R121). The closed voices' endless holds leave
the damper units (R105), and no others do. That the port keeps what its line has done so far (the end of its last byte, the line's
level) is the model's reading, log entry 24; that an earlier chime port's entry on voice 15 leaves without a record, and a FIRING one
keeps its report mark, its choice, log entry 28; that a halted player's next due is cleared, its choice, log entry 36. -/
def Obligations.PortResetLeavesNoTrace : Prop :=
  let resets : PortId → State → State → Prop := fun p s t =>
    t.port p = { Port.initial with
      gapStart := (s.port p).gapStart, lineLow := (t.port p).lineLow, highSince := (s.port p).highSince } ∧
    let ends : VoiceId → Bool := fun v => s.owns p v || (v = chimeVoice && s.chimePort = some p)
    let gone : Entry → Bool := fun e => ends e.voice && e.state ≠ .firing
    let unreported : Entry → Entry := fun e => if e.port = p then { e with report := false } else e
    let marked : Entry → Entry := fun e => match e.part with
      | .roll r => if ends e.voice then { e with part := .roll { r with flushMark := true } } else e
      | _ => e
    let endless : Hold → Bool := fun h => h.endTick.isNone && s.owns p h.voice
    (∀ v, t.voice v = if s.owns p v then { s.voice v with state := .closed, owner := none, area := none } else s.voice v) ∧
    (∀ u, t.damper u = if (s.damper u).holds.any endless then (s.damper u).without t.now endless else s.damper u) ∧
    ((s.entries.map (·.slot)).Nodup →
      t.entries = (s.entries.filter (fun e => !gone e)).map (fun e => marked (unreported e)) ∧
      (∀ v, t.player v = if ends v then { s.player v with state := .idle, nextDue := none, told := false }
        else if (s.player v).state = .stalled ∧ v ≠ chimeVoice ∧ ∃ e ∈ s.entries, gone e = true ∧ e.voice ≠ chimeVoice ∧
          (s.voice v).owner = some e.port then { s.player v with told := true }
        else s.player v) ∧
      (∀ q, q ≠ p → t.port q = ((List.finRange 16).flatMap (fun v => s.entries.filter (fun e =>
        e.voice = v && s.owns p v && e.state ≠ .firing && e.port = q && e.report))).foldl
          (fun x e => x.offer (e.echo .flushed)) (s.port q))) ∧
    t = { s with
      now := t.now
      ports := t.ports
      voices := t.voices
      entries := t.entries
      players := t.players
      dampers := t.dampers
      chimePort := if s.chimePort = some p then none else s.chimePort
      timeline := { s.timeline with
        conductor := if s.timeline.conductor = some p then none else s.timeline.conductor } }
  ∀ (w : When) (p : PortId) (s : State), s.power.inReset = false →
    (s.power.fill = .none → (s.port p).lineLow = false →
      ∃ t, exec (.lineBreak w p) s = .next t ∧ resets p s t ∧ (t.port p).lineLow = true ∧ t.ready p = false ∧
        t.now = max s.now w.time) ∧
    (∀ d, (s.port p).silenceDue = some d →
      ∃ t, exec (.silenceExpiry w p) s = .next t ∧ resets p s t ∧ (t.port p).lineLow = (s.port p).lineLow ∧
        t.now = max s.now (max d w.time))

/-! ## Power-on and RESET -/

/-- Power-on and the release of RESET give every block its initial values; RESET keeps the bytes of phrase memory, and both
begin the fill where power-on has not been completed (R163, R164). That the wall count goes on through both is the model's choice,
log entry 1; that READY is given on every port after a release, also where a line is still low after a break, is its reading, log
entry 24. -/
def Obligations.PowerOnAndResetInitialize : Prop :=
  State.reset.AtInitialValues ∧
  (∀ (w : When) (s : State), ∃ t, exec (.powerOn w) s = .next t ∧ t.AtInitialValues ∧ t.now = max s.now w.time ∧
    t.power = { inReset := false, fill := .running (t.now + 2000), guardHigh := s.power.guardHigh } ∧
    ∀ p, t.ready p = false) ∧
  (∀ (w : When) (s : State), s.power.inReset = true → ∃ t, exec (.resetRelease w) s = .next t ∧ t.AtInitialValues ∧
    t.now = max s.now w.time ∧ t.mem = s.mem ∧ t.power.inReset = false ∧ t.power.guardHigh = s.power.guardHigh ∧
    (s.power.fill = .none → t.power.fill = .none ∧ ∀ p, t.ready p = true) ∧
    (s.power.fill ≠ .none → t.power.fill = .running (t.now + 2000) ∧ ∀ p, t.ready p = false)) ∧
  (∀ (w : When) (s : State) (d : Nat), s.power.inReset = false → s.power.fill = .running d →
    exec (.phraseMemoryFillEnd w) s = .next { s with
      now := max s.now (max d w.time), mem := [], power := { s.power with fill := .none } }) ∧
  ∀ k, k < 4096 → memBytes [] (8 * k) 8 = [0#8, 0#8, 0x81#8, 0#8, 0x80#8, 0#8, 0#8, 0#8]

/-- While RESET is asserted every output is off, READY is deasserted on every port, frames and replies are abandoned, and no event
is taken until the release; GUARD's level alone is still seen, for the release to take (R164, R147). That SYNC_OUT is among the
outputs that go off, though a pulse be in progress, is the model's choice, log entry 29; that NOTICE is not, and stands as it
stood, its reading, log entry 33. -/
def Obligations.ResetHoldsThePart : Prop :=
  (∀ (w : When) (s : State), ∃ t, exec (.resetAssert w) s = .next t ∧
    t = { s with
      now := max s.now w.time
      power := { s.power with inReset := true, fill := if s.power.fill = .none then .none else .interrupted }
      ports := t.ports } ∧
    (∀ p, t.ready p = false ∧ t.port p = { s.port p with
      receiver := .hunt, frameLength := 0, frameKind := 0#8, framePayload := [], reply := none }) ∧
    t.alert = false ∧ (∀ n, t.gateOn n = false) ∧ (∀ r, t.railEnable r = false) ∧ (∀ u, t.damperDrive u = false) ∧
    t.syncOut = false) ∧
  ∀ (c : Instr) (s : State), s.power.inReset = true →
    (∀ w, c ≠ .powerOn w) → (∀ w, c ≠ .resetAssert w) → (∀ w, c ≠ .resetRelease w) →
    ∃ t, exec c s = .next t ∧
      t = { s with now := t.now, power := { s.power with guardHigh := t.power.guardHigh } } ∧
      ((∀ w b, c ≠ .guardEdge w b) → t.power.guardHigh = s.power.guardHigh)

/-! ## Checks of every request -/

/-- Every request taken on a port with READY asserted is answered there, under the kind of the request, and one refused leaves
the part as it was but for the silence timer and the overflow report (R168, R170, R177). The reply carries the kind plus 0x80, the
status by its code, the flags byte (bit 0 the overflow flag, bit 1 NOTICE, bit 2 an echo queue that is not empty) and the results
(R170). READY is asserted without RESET, outside the fill, with the line not low after a break and no reply in progress (R165, R166,
R169). -/
def Obligations.RequestsAreAnswered : Prop :=
  [Status.ok, .busy, .full, .range, .owner, .stage, .state, .frame, .unknown, .length].map Status.code =
    [0#8, 1#8, 2#8, 3#8, 4#8, 5#8, 6#8, 7#8, 8#8, 9#8] ∧
  (∀ (s : State) (p : PortId), s.ready p = true ↔ s.power.inReset = false ∧ s.power.fill = .none ∧
    (s.port p).lineLow = false ∧ (s.port p).reply = none) ∧
  ∀ (c : Instr) (w : When) (p : PortId) (kind : Byte) (s : State), c.wellFormed = true → requestPort c = some (w, p) →
    kindCode c = some kind → s.ready p = true →
    ∃ t st results flags, exec c s = .next t ∧
      (t.port p).reply = some { kind := kind + 0x80#8, payload := st.code :: flags :: results } ∧
      flags.toNat < 8 ∧ flags.getLsbD 0 = (s.port p).overflow ∧ flags.getLsbD 1 = (t.port p).noticeLine ∧
      flags.getLsbD 2 = !(t.port p).echo.isEmpty ∧ (t.port p).overflow = false ∧
      (t.port p).receiver = .hunt ∧ t.ready p = false ∧
      (st ≠ .ok → t = s.answering w p kind st results)

/-- A field beyond its numbering or a code that names nothing is refused with RANGE before any check of the request's own rule
(R177). Stage-bound setup in another stage than DORMANT, STANDBY and FAULT is refused and changes nothing (R161), and its stage
check comes last (R179): a request that DORMANT would take, its own argument checks passing, is refused with STAGE, and any other
with the status that DORMANT would give it. -/
def Obligations.BadFieldsAndStagesAreRefused : Prop :=
  ∀ (c : Instr) (w : When) (p : PortId) (kind : Byte) (s : State), c.wellFormed = true → requestPort c = some (w, p) →
    kindCode c = some kind → s.ready p = true →
    (namesNothing c = true → exec c s = .next (s.answering w p kind .range [])) ∧
    (stageBound c = true → s.stage.stage ≠ .dormant → s.stage.stage ≠ .standby → s.stage.stage ≠ .fault →
      let dormant : State := { s with stage := { s.stage with stage := .dormant } }
      (∃ st, st ≠ .ok ∧ exec c s = .next (s.answering w p kind st [])) ∧
      ((∃ t results, exec c dormant = .next t ∧ (t.port p).replied kind .ok results) →
        exec c s = .next (s.answering w p kind .stage [])) ∧
      (∀ st, st ≠ .ok → exec c dormant = .next (dormant.answering w p kind st []) →
        exec c s = .next (s.answering w p kind st [])))

/-! ## Setup requests (spec/03 to spec/09, spec/10) -/

/-- SET_RAIL and SET_STRIKER in range, in a stage that takes them, replace the settings and keep the rest (R63, R54): of the
recent fires the newest are kept as far as the new count allows, but for those whose new window has passed. SET_BAR that passes
its checks replaces the whole record: its strikers take the bar, and the bar's former strikers that it does not name lose it with
their fired-last mark (R51). A striker of another bar refuses it with BUSY. That a rail keeps its bled mark and its settle since
when it is unfitted and fitted again is the model's choice, log entry 31. Each is refused with RANGE in every stage by its own
checks: a value outside its range, a rail unfitted under a bar's striker, Hs and Hh or the pulse limits that do not agree, a
threshold above 32,767, one striker named twice, strikers of two rails, a rail that is not fitted, a second striker alone (R195).
With these and BUSY passed it is refused with STAGE where the stage takes no setup, SET_RAIL outside DORMANT where it changes the
fitted mark (R161). -/
def Obligations.RailStrikerAndBarSetupTakesEffect : Prop :=
  (∀ (w : When) (p : PortId) (s : State), s.ready p = true →
    (s.stage.stage = .dormant ∨ s.stage.stage = .standby ∨ s.stage.stage = .fault) →
    (∀ (r : RailId) (f : Bool) (spacing : Half) (window : Quad) (count : Byte) (nominal : Half) (floor : Byte),
      spacing.toNat ≤ 10000 → 1000 ≤ window.toNat → window.toNat ≤ 100000 → 1 ≤ count.toNat → count.toNat ≤ 8 →
      1200 ≤ nominal.toNat → nominal.toNat ≤ 4800 → 50 ≤ floor.toNat → floor.toNat ≤ 95 →
      (f = (s.rail r).fitted ∨ s.stage.stage = .dormant) →
      (f = true ∨ ∀ b, ∀ n ∈ (s.bar b).strikers, railOf n ≠ r) →
      exec (.setRail w p (BitVec.ofNat 8 r.1) (bitByte f) spacing window count nominal floor) s =
        .next (({ s with rails := s.rails.put r { s.rail r with
          fitted := f
          spacing := spacing.toNat
          window := window.toNat
          count := count.toNat
          nominal := nominal.toNat
          floor := floor.toNat
          recent := ((s.rail r).recent.drop ((s.rail r).recent.length - count.toNat)).filter
            (fun t => max s.now w.time < t + window.toNat) } }).answering w p 0x01#8 .ok [])) ∧
    (∀ (n : StrikerId) (recovery : Quad) (minPulse : Byte) (maxPulse : Half) (c : TableId) (soft hard : Half) (lock : Byte),
      8000 ≤ recovery.toNat → recovery.toNat ≤ 250000 → 20 ≤ minPulse.toNat → minPulse.toNat ≤ 200 →
      minPulse.toNat ≤ maxPulse.toNat → maxPulse.toNat ≤ 1200 → 1000 ≤ soft.toNat → soft.toNat + 1000 ≤ hard.toNat →
      2000 ≤ hard.toNat → hard.toNat ≤ 60000 → lock.toNat ≤ 15 →
      exec (.setStriker w p (BitVec.ofNat 8 n.1) recovery minPulse maxPulse (BitVec.ofNat 8 c.1) soft hard lock) s =
        .next (({ s with strikers := s.strikers.put n { s.striker n with
          recovery := recovery.toNat
          minPulse := 10 * minPulse.toNat
          maxPulse := 10 * maxPulse.toNat
          table := c
          soft := soft.toNat
          hard := hard.toNat
          lockThreshold := lock.toNat } }).answering w p 0x02#8 .ok []))) ∧
  (∀ (w : When) (p : PortId) (s : State), s.ready p = true →
    let takes : Prop := s.stage.stage = .dormant ∨ s.stage.stage = .standby ∨ s.stage.stage = .fault
    (∀ (r : RailId) (f : Bool) (spacing : Half) (window : Quad) (count : Byte) (nominal : Half) (floor : Byte),
      let command : Instr := .setRail w p (BitVec.ofNat 8 r.1) (bitByte f) spacing window count nominal floor
      let bad : Prop := 10000 < spacing.toNat ∨ window.toNat < 1000 ∨ 100000 < window.toNat ∨ count.toNat < 1 ∨
        8 < count.toNat ∨ nominal.toNat < 1200 ∨ 4800 < nominal.toNat ∨ floor.toNat < 50 ∨ 95 < floor.toNat ∨
        (f = false ∧ ∃ b, ∃ n ∈ (s.bar b).strikers, railOf n = r)
      (bad → exec command s = .next (s.answering w p 0x01#8 .range [])) ∧
      (¬ bad → ¬ takes ∨ (f ≠ (s.rail r).fitted ∧ s.stage.stage ≠ .dormant) →
        exec command s = .next (s.answering w p 0x01#8 .stage []))) ∧
    (∀ (n : StrikerId) (recovery : Quad) (minPulse : Byte) (maxPulse : Half) (c : TableId) (soft hard : Half) (lock : Byte),
      let command : Instr :=
        .setStriker w p (BitVec.ofNat 8 n.1) recovery minPulse maxPulse (BitVec.ofNat 8 c.1) soft hard lock
      let bad : Prop := recovery.toNat < 8000 ∨ 250000 < recovery.toNat ∨ minPulse.toNat < 20 ∨ 200 < minPulse.toNat ∨
        maxPulse.toNat < minPulse.toNat ∨ 1200 < maxPulse.toNat ∨ soft.toNat < 1000 ∨ hard.toNat < soft.toNat + 1000 ∨
        hard.toNat < 2000 ∨ 60000 < hard.toNat ∨ 15 < lock.toNat
      (bad → exec command s = .next (s.answering w p 0x02#8 .range [])) ∧
      (¬ bad → ¬ takes → exec command s = .next (s.answering w p 0x02#8 .stage []))) ∧
    (∀ (b : BarId) (c : InstrumentClass) (first second : Option StrikerId) (damper : Option UnitId) (pickup : Option PickupId)
      (threshold : Half),
      let named : List StrikerId := first.toList ++ second.toList
      let command : Instr := .setBar w p (BitVec.ofNat 8 b.1) (BitVec.ofNat 8 c.code) (fieldOf first) (fieldOf second)
        (fieldOf damper) (fieldOf pickup) threshold
      let bad : Prop := 32767 < threshold.toNat ∨ (first = none ∧ second ≠ none) ∨
        (∃ m n, first = some m ∧ second = some n ∧ (m = n ∨ railOf m ≠ railOf n)) ∨
        ∃ n ∈ named, (s.rail (railOf n)).fitted = false
      (bad → exec command s = .next (s.answering w p 0x03#8 .range [])) ∧
      (¬ bad → (∀ n ∈ named, ∀ a, (s.striker n).bar = some a → a = b) → ¬ takes →
        exec command s = .next (s.answering w p 0x03#8 .stage [])))) ∧
  (∀ (n : StrikerId), (railOf n).1 = n.1 / 16) ∧
  (∀ (w : When) (p : PortId) (s : State) (b : BarId) (c : InstrumentClass) (first second : Option StrikerId)
    (damper : Option UnitId) (pickup : Option PickupId) (threshold : Half), s.ready p = true → threshold.toNat ≤ 32767 →
    (second ≠ none → first ≠ none) → (∀ m n, first = some m → second = some n → m ≠ n ∧ railOf m = railOf n) →
    let named : List StrikerId := first.toList ++ second.toList
    let command : Instr := .setBar w p (BitVec.ofNat 8 b.1) (BitVec.ofNat 8 c.code) (fieldOf first) (fieldOf second)
      (fieldOf damper) (fieldOf pickup) threshold
    (∀ n ∈ named, (s.rail (railOf n)).fitted = true) →
    ((∃ n ∈ named, ∃ a, (s.striker n).bar = some a ∧ a ≠ b) → exec command s = .next (s.answering w p 0x03#8 .busy [])) ∧
    ((∀ n ∈ named, ∀ a, (s.striker n).bar = some a → a = b) →
      (s.stage.stage = .dormant ∨ s.stage.stage = .standby ∨ s.stage.stage = .fault) →
      exec command s = .next (({ s with
        bars := s.bars.put b {
          cls := c, first := first, second := second, damper := damper, pickup := pickup, threshold := threshold.toNat }
        strikers := s.strikers.mapWith (fun (n : StrikerId) (k : Striker) =>
          if n ∈ named then { k with bar := some b }
          else if n ∈ (s.bar b).strikers then { k with bar := none, firedLast := false }
          else k) }).answering w p 0x03#8 .ok [])))

/-- SET_CLASS, SET_DAMPER, SET_CHARGE, SET_QUOTA and SET_SCAN replace the settings they give and keep the rest (R180, R23,
R94, R162, R30, R132); SET_QUOTA replies the four quotas, the four use counts and the chime count, all after the change. A quota
that rises tells the port's STALLED players (R121); that each then resumes by a command of its own,
and is STALLED until then, is the model's choice, log entry 16. Each is refused with RANGE in every stage for a value outside its
range, a settle time not below the charge timeout, and a quota below the use count or past the sum of 224; with its arguments good,
each but SET_SCAN is refused with STAGE outside DORMANT, STANDBY and FAULT (R161). -/
def Obligations.ParameterSetupTakesEffect : Prop :=
  ∀ (w : When) (p : PortId) (s : State), s.ready p = true →
    let quotaThen : PortId → Half → PortId → Nat := fun q quota x => if x = q then quota.toNat else s.quotas.look x
    ((s.stage.stage = .dormant ∨ s.stage.stage = .standby ∨ s.stage.stage = .fault) →
      (∀ (c : InstrumentClass) (lead slip : Half), lead.toNat ≤ 60000 → slip.toNat ≤ 50000 →
        let ticks := (lead.toNat * 8 + s.timeline.period - 1) / s.timeline.period
        exec (.setClass w p (BitVec.ofNat 8 c.code) lead slip) s =
          .next (({ s with timeline := s.timeline.modTimes c (fun _ =>
            { lead := lead.toNat, slip := slip.toNat, leadTicks := ticks }) }).answering w p 0x04#8 .ok
              (b1 c.code ++ b2 lead.toNat ++ b2 slip.toNat ++ b4 ticks))) ∧
      (∀ (u : UnitId) (lift clamp : Half) (minOpen : Quad), 2000 ≤ lift.toNat → lift.toNat ≤ 50000 →
        2000 ≤ clamp.toNat → clamp.toNat ≤ 50000 → minOpen.toNat ≤ 500000 →
        exec (.setDamper w p (BitVec.ofNat 8 u.1) lift clamp minOpen) s =
          .next (({ s with dampers := s.dampers.put u { s.damper u with
            lift := lift.toNat, clamp := clamp.toNat, minOpen := minOpen.toNat } }).answering w p 0x05#8 .ok [])) ∧
      (∀ (settle timeout : Half), 50 ≤ settle.toNat → settle.toNat ≤ 2000 → 500 ≤ timeout.toNat →
        timeout.toNat ≤ 10000 → settle.toNat < timeout.toNat →
        exec (.setCharge w p settle timeout) s =
          .next (({ s with stage := { s.stage with
            settleMs := settle.toNat, timeoutMs := timeout.toNat } }).answering w p 0x06#8 .ok [])) ∧
      (∀ (q : PortId) (quota : Half), s.useCount q ≤ quota.toNat → quota.toNat ≤ 256 →
        ((List.finRange 4).map (quotaThen q quota)).sum ≤ 224 →
        let u : State := { s with
          quotas := s.quotas.put q quota.toNat
          players := s.players.mapWith (fun (v : VoiceId) (x : Player) =>
            if x.state = PlayerState.stalled ∧ s.quotas.look q < quota.toNat ∧ v ≠ chimeVoice ∧ (s.voice v).owner = some q then
              { x with told := true }
            else x) }
        let uses : PortId → List Byte := fun x => b1 (s.entries.countP (fun e => e.voice ≠ chimeVoice && e.port = x))
        exec (.setQuota w p (BitVec.ofNat 8 q.1) quota) s = .next (u.answering w p 0x07#8 .ok
          ((List.finRange 4).flatMap (fun x => b2 (quotaThen q quota x)) ++
            (List.finRange 4).flatMap uses ++ b1 (s.entries.countP (fun e => e.voice = chimeVoice)))))) ∧
    (∀ (q : PortId) (quota : Half), (quota.toNat < s.useCount q ∨ 224 < ((List.finRange 4).map (quotaThen q quota)).sum) →
      exec (.setQuota w p (BitVec.ofNat 8 q.1) quota) s = .next (s.answering w p 0x07#8 .range [])) ∧
    (∀ (k : PickupId) (g : Nat) (length : Quad), (g = 1 ∨ g = 2 ∨ g = 4 ∨ g = 8) → 5000 ≤ length.toNat →
      length.toNat ≤ 100000 →
      exec (.setScan w p (BitVec.ofNat 8 k.1) (BitVec.ofNat 8 g) length) s =
        .next (({ s with sense := { s.sense with
          pickups := s.sense.pickups.put k { gain := g, length := length.toNat } } }).answering w p 0x0B#8 .ok [])) ∧
    (∀ (k : PickupId) (gain : Byte) (length : Quad),
      (gain ≠ 1#8 ∧ gain ≠ 2#8 ∧ gain ≠ 4#8 ∧ gain ≠ 8#8) ∨ length.toNat < 5000 ∨ 100000 < length.toNat →
      exec (.setScan w p (BitVec.ofNat 8 k.1) gain length) s = .next (s.answering w p 0x0B#8 .range [])) ∧
    let bound : Instr → Byte → Prop → Prop := fun command kind bad =>
      (bad → exec command s = .next (s.answering w p kind .range [])) ∧
      (¬ bad → s.stage.stage ≠ .dormant → s.stage.stage ≠ .standby → s.stage.stage ≠ .fault →
        exec command s = .next (s.answering w p kind .stage []))
    (∀ (c : InstrumentClass) (lead slip : Half), bound (.setClass w p (BitVec.ofNat 8 c.code) lead slip) 0x04#8
      (60000 < lead.toNat ∨ 50000 < slip.toNat)) ∧
    (∀ (u : UnitId) (lift clamp : Half) (minOpen : Quad), bound (.setDamper w p (BitVec.ofNat 8 u.1) lift clamp minOpen) 0x05#8
      (lift.toNat < 2000 ∨ 50000 < lift.toNat ∨ clamp.toNat < 2000 ∨ 50000 < clamp.toNat ∨ 500000 < minOpen.toNat)) ∧
    (∀ settle timeout : Half, bound (.setCharge w p settle timeout) 0x06#8
      (settle.toNat < 50 ∨ 2000 < settle.toNat ∨ timeout.toNat < 500 ∨ 10000 < timeout.toNat ∨
        timeout.toNat ≤ settle.toNat)) ∧
    ∀ (q : PortId) (quota : Half), bound (.setQuota w p (BitVec.ofNat 8 q.1) quota) 0x07#8
      (256 < quota.toNat ∨ quota.toNat < s.useCount q ∨ 224 < ((List.finRange 4).map (quotaThen q quota)).sum)

/-- SET_CURVE writes the copy of the update mode, CURVE_MODE changes the mode, and COMMIT transfers at once in STOPPED and marks
tables otherwise (R77 to R79). The points of a copy never decrease and stay within 12,000 (R75). A SET_CURVE whose first index and
number of values pass 16 is refused with RANGE (R77). The reply of CURVE_MODE counts the tables whose staging copy it changed. -/
def Obligations.CurveRequestsTakeEffect : Prop :=
  (∀ points : Bank Nat 16, monotonePoints points = true ↔
    (∀ k : Fin 15, points.look k.castSucc ≤ points.look k.succ) ∧ points.look 15 ≤ 12000) ∧
  ∀ (w : When) (p : PortId) (s : State), s.ready p = true →
    (∀ (c : TableId) (first : Byte) (points : List Half), pointsAllowed points = true → 16 < first.toNat + points.length →
      exec (.setCurve w p (BitVec.ofNat 8 c.1) first points) s = .next (s.answering w p 0x08#8 .range [])) ∧
    (∀ (c : TableId) (first : Byte) (points : List Half) (written : Bank Nat 16), pointsAllowed points = true →
      first.toNat + points.length ≤ 16 →
      (∀ k : Fin 16, written.look k = if first.toNat ≤ k.1 then
          (points[k.1 - first.toNat]?).elim (if s.shaper.mode = UpdateMode.direct then (s.table c).live.look k
            else (s.table c).staging.look k) BitVec.toNat
        else if s.shaper.mode = UpdateMode.direct then (s.table c).live.look k else (s.table c).staging.look k) →
      let command : Instr := .setCurve w p (BitVec.ofNat 8 c.1) first points
      (monotonePoints written = false → exec command s = .next (s.answering w p 0x08#8 .range [])) ∧
      (monotonePoints written = true → (s.shaper.mode = .direct → (s.table c).staging = (s.table c).live) →
        exec command s = .next (({ s with shaper := { s.shaper with
          tables := s.shaper.tables.put c { s.table c with
            live := if s.shaper.mode = UpdateMode.direct then written else (s.table c).live
            staging := written } } }).answering w p 0x08#8 .ok
              (bBool (s.table c).commitPending ++ b1 s.shaper.mode.code)))) ∧
    exec (.curveMode w p (BitVec.ofNat 8 s.shaper.mode.code)) s = .next (s.answering w p 0x09#8 .ok [0#8]) ∧
    (s.shaper.mode = .direct →
      exec (.curveMode w p 1#8) s =
        .next (({ s with shaper := { s.shaper with mode := .staged } }).answering w p 0x09#8 .ok [0#8])) ∧
    (s.shaper.mode = .staged → (∃ c, (s.table c).commitPending = true) →
      exec (.curveMode w p 0#8) s = .next (s.answering w p 0x09#8 .busy [])) ∧
    (s.shaper.mode = .staged → (∀ c, (s.table c).commitPending = false) →
      exec (.curveMode w p 0#8) s = .next (({ s with shaper := { s.shaper with
        mode := .direct
        tables := s.shaper.tables.mapWith (fun _ (x : CurveTable) => { x with staging := x.live }) } }).answering w p 0x09#8
          .ok (b1 (s.shaper.tables.toList.countP (fun (x : CurveTable) => x.staging ≠ x.live))))) ∧
    (∀ named : Option TableId, ∃ (t : State) (set : Byte),
      exec (.commit w p (fieldOf named)) s = .next (t.answering w p 0x0A#8 .ok [set]) ∧
      t = { s with shaper := { s.shaper with tables := s.shaper.tables.mapWith (fun (c : TableId) (x : CurveTable) =>
        if s.shaper.mode = .staged ∧ (named = none ∨ named = some c) then
          (if s.timeline.state = .stopped then { x with live := x.staging, commitPending := false }
           else { x with commitPending := true })
        else x) } } ∧
      ∀ c : TableId, set.getLsbD c.1 = (t.table c).commitPending)

/-- SET_PORT (R173): out of range it is refused and changes nothing; otherwise all three settings of the requesting port are
replaced, ECHO_LEVEL is raised where the queue stands at or above the new watermark (R145), and the silence expiry counts from
now or becomes absent (R174). -/
def Obligations.PortSettingsTakeEffect : Prop :=
  ∀ (w : When) (p : PortId) (s : State) (enables watermark : Byte) (silence : Half), s.ready p = true →
    enables.toNat < 64 →
    let outside := watermark.toNat < 1 ∨ 128 < watermark.toNat ∨ (1 ≤ silence.toNat ∧ silence.toNat ≤ 99) ∨
      10000 < silence.toNat
    (outside → exec (.setPort w p enables watermark silence) s = .next (s.answering w p 0x0C#8 .range [])) ∧
    (¬ outside → exec (.setPort w p enables watermark silence) s =
      .next (({ s with ports := s.ports.put p { s.port p with
        enables := enables
        watermark := watermark.toNat
        silenceMs := silence.toNat
        pendingNotices := if watermark.toNat ≤ (s.port p).echo.length then (s.port p).pendingNotices ||| 1#8
          else (s.port p).pendingNotices } }).answering w p 0x0C#8 .ok ([enables, watermark] ++ halfBytes silence)))

/-! ## Conductor and timeline requests (spec/01) -/

/-- CONDUCT claims and releases the role, which one port at most holds, and a reset of the holder's port, by a break or by its
silence expiry, releases it; nothing else of the timeline changes (R21). -/
def Obligations.ConductorRoleIsExclusive : Prop :=
  ∀ (w : When) (p : PortId) (s : State), s.ready p = true →
    let holder : Option PortId → State := fun c => { s with timeline := { s.timeline with conductor := c } }
    (s.timeline.conductor = none →
      exec (.conduct w p 0#8) s = .next ((holder (some p)).answering w p 0x10#8 .ok (b1 p.1)) ∧
      exec (.conduct w p 1#8) s = .next (s.answering w p 0x10#8 .owner [])) ∧
    (s.timeline.conductor = some p →
      exec (.conduct w p 0#8) s = .next (s.answering w p 0x10#8 .ok (b1 p.1)) ∧
      exec (.conduct w p 1#8) s = .next ((holder none).answering w p 0x10#8 .ok [0xFF#8]) ∧
      (∃ t, exec (.lineBreak w p) s = .next t ∧ t.timeline = { s.timeline with conductor := none }) ∧
      ((s.port p).silenceDue.isSome = true →
        ∃ t, exec (.silenceExpiry w p) s = .next t ∧ t.timeline = { s.timeline with conductor := none })) ∧
    (∀ q, q ≠ p → s.timeline.conductor = some q →
      exec (.conduct w p 0#8) s = .next (s.answering w p 0x10#8 .busy []) ∧
      exec (.conduct w p 1#8) s = .next (s.answering w p 0x10#8 .owner []))

/-- The conductor requests are checked for the role, then the state they need, then their arguments, and the first refusal
found is the reply; a refused one changes nothing (R22). -/
def Obligations.ConductorRequestsAreChecked : Prop :=
  let needs : Instr → State → Option (Byte × Bool × Bool) := fun c s => match c with
    | .tempo _ _ x => some (0x11#8, s.timeline.source = .sync, x.toNat < 2000 || 30000 < x.toNat)
    | .ramp _ _ x n => some (0x12#8, s.timeline.source = .sync,
        x.toNat < 2000 || 30000 < x.toNat || n.toNat < 1 || 64 < n.toNat)
    | .meter _ _ n => some (0x13#8, false, n.toNat < 1 || 16 < n.toNat)
    | .run _ _ => some (0x14#8, false, s.timeline.position = 4294967295)
    | .stop _ _ => some (0x15#8, false, false)
    | .locate _ _ _ => some (0x16#8, s.timeline.state ≠ .stopped, false)
    | .source _ _ m => some (0x17#8, false, 2 ≤ m.toNat)
    | _ => none
  ∀ (c : Instr) (w : When) (p : PortId) (s : State) (kind : Byte) (wrongState badArgument : Bool),
    requestPort c = some (w, p) → needs c s = some (kind, wrongState, badArgument) → s.ready p = true →
    s.timeline.position ≤ 4294967295 →
    (s.timeline.conductor ≠ some p → exec c s = .next (s.answering w p kind .owner [])) ∧
    (s.timeline.conductor = some p → wrongState = true → exec c s = .next (s.answering w p kind .state [])) ∧
    (s.timeline.conductor = some p → wrongState = false → badArgument = true →
      exec c s = .next (s.answering w p kind .range [])) ∧
    (s.timeline.conductor = some p → wrongState = false → badArgument = false →
      ∃ t results, exec c s = .next t ∧ (t.port p).replied kind .ok results)

/-- TEMPO, RAMP and METER from the conductor (R3, R10, R8): the period in STOPPED is replaced at once with the lead ticks, and
pends otherwise. SOURCE from the conductor (R15): the mode in force changes nothing; SYNC ends the ramp and waits for a first
pulse; INTERNAL keeps the period, sets the tempo to its rate, and crosses at once from HELD; that a period still pending there is
adopted at the crossing, the tempo being that of the period before, is the model's reading, log entry 30. Each replies with the
timeline summary as it stands after the request (R182), in the widths of R195 and log entry 21, with the mark of a pending meter as
its last byte (log entry 35). -/
def Obligations.TempoAndSourceRequestsTakeEffect : Prop :=
  let summary : Timeline → List Byte := fun x =>
    b1 x.state.code ++ b1 x.stopReason.code ++ b4 x.position ++ b4 (x.position % 240) ++ b1 x.beatInBar ++ b2 x.barNumber ++
    b2 x.tempo ++ b4 x.period ++ bBool x.pendingPeriod.isSome ++ bBool x.ramp.isSome ++ b1 x.source.code ++ oId x.conductor ++
    bBool x.pendingMeter.isSome
  (∀ (w : When) (p : PortId) (s : State), s.ready p = true → s.timeline.conductor = some p →
    let answered : Byte → Timeline → Answer := fun kind x =>
      .next (({ s with timeline := x }).answering w p kind .ok (summary x))
    (∀ c : Half, s.timeline.source = .internal → 2000 ≤ c.toNat → c.toNat ≤ 30000 →
      let period := (2 * 200000000 + c.toNat) / (2 * c.toNat)
      (s.timeline.state = .stopped → exec (.tempo w p c) s = answered 0x11#8 { s.timeline with
        tempo := c.toNat
        ramp := none
        period := period
        marimba := { s.timeline.marimba with leadTicks := (s.timeline.marimba.lead * 8 + period - 1) / period }
        vibes := { s.timeline.vibes with leadTicks := (s.timeline.vibes.lead * 8 + period - 1) / period }
        perc := { s.timeline.perc with leadTicks := (s.timeline.perc.lead * 8 + period - 1) / period } }) ∧
      (s.timeline.state ≠ .stopped → exec (.tempo w p c) s = answered 0x11#8 { s.timeline with
        tempo := c.toNat, ramp := none, pendingPeriod := some period })) ∧
    (∀ (c : Half) (n : Byte), s.timeline.source = .internal → 2000 ≤ c.toNat → c.toNat ≤ 30000 → 1 ≤ n.toNat →
      n.toNat ≤ 64 → exec (.ramp w p c n) s = answered 0x12#8 { s.timeline with
        ramp := some { target := c.toNat, start := s.timeline.tempo, length := n.toNat, done := 0 } }) ∧
    (∀ n : Byte, 1 ≤ n.toNat → n.toNat ≤ 16 →
      exec (.meter w p n) s = answered 0x13#8 { s.timeline with pendingMeter := some n.toNat })) ∧
  (∀ (w : When) (p : PortId) (s : State), s.ready p = true → s.timeline.conductor = some p →
    exec (.source w p (BitVec.ofNat 8 s.timeline.source.code)) s = .next (s.answering w p 0x17#8 .ok (summary s.timeline)) ∧
    (s.timeline.source = .internal →
      let u := { s with timeline := { s.timeline with
        source := .sync, ramp := none, lastPulse := none, lastInterval := 30 * s.timeline.period } }
      exec (.source w p 1#8) s = .next (u.answering w p 0x17#8 .ok (summary u.timeline))) ∧
    (s.timeline.source = .sync →
      let internal := { s.timeline with
        source := .internal
        lastPulse := none
        tempo := (2 * 200000000 + s.timeline.period) / (2 * s.timeline.period) }
      (s.timeline.state ≠ .held →
        let u := { s with timeline := internal }
        exec (.source w p 0#8) s = .next (u.answering w p 0x17#8 .ok (summary internal))) ∧
      (s.timeline.state = .held → s.TimelineSound →
        s.timeline.position + 1 < 4294967295 →
        ∃ t, exec (.source w p 0#8) s = .next t ∧ (t.port p).replied 0x17#8 .ok (summary t.timeline) ∧
          t.timeline.state = .running ∧ t.timeline.source = .internal ∧ t.timeline.tempo = internal.tempo ∧
          t.timeline.period = s.timeline.pendingPeriod.getD s.timeline.period ∧ t.timeline.pendingPeriod = none ∧
          t.timeline.position = s.timeline.position + 1 ∧ t.timeline.lossDue = none ∧
          t.timeline.tickDue = some (max s.now w.time * 8 + t.timeline.period))))

/-- RUN and STOP from the conductor (R12, R13): RUN in STOPPED starts the counter with a full period; STOP discards the
partial tick, adopts a pending period with its lead ticks, and the damper units clear their holds, an OPEN one whose minimum open
time has passed beginning CLAMPING and the others keeping their states (R103); each changes nothing where it finds its end
reached. LOCATE from the conductor in STOPPED (R14, R48, R127): the counters are derived from the new position, WAITING
entries due before it leave with PASSED in calendar order, the players return to IDLE with LOCATED, each raising PHRASE_END on its
reporting port, and all else is kept; that a player's next due does not stand is the model's choice, log entry 36. Each replies with
the timeline summary as it stands after the request (R182), in the widths of R195 and log entry 21, with the mark of a pending meter
as its last byte (log entry 35). -/
def Obligations.RunStopAndLocateTakeEffect : Prop :=
  let summary : Timeline → List Byte := fun x =>
    b1 x.state.code ++ b1 x.stopReason.code ++ b4 x.position ++ b4 (x.position % 240) ++ b1 x.beatInBar ++ b2 x.barNumber ++
      b2 x.tempo ++ b4 x.period ++ bBool x.pendingPeriod.isSome ++ bBool x.ramp.isSome ++ b1 x.source.code ++ oId x.conductor ++
      bBool x.pendingMeter.isSome
  (∀ (w : When) (p : PortId) (s : State), s.ready p = true → s.timeline.conductor = some p →
    (s.timeline.position < 4294967295 →
      (s.timeline.state = .stopped →
        let u := { s with timeline := { s.timeline with
          state := .running, tickDue := some (max s.now w.time * 8 + s.timeline.period) } }
        exec (.run w p) s = .next (u.answering w p 0x14#8 .ok (summary u.timeline))) ∧
      (s.timeline.state ≠ .stopped → exec (.run w p) s = .next (s.answering w p 0x14#8 .ok (summary s.timeline)))) ∧
    (s.timeline.state = .stopped → exec (.stop w p) s = .next (s.answering w p 0x15#8 .ok (summary s.timeline))) ∧
    (s.timeline.state ≠ .stopped →
      let led : ClassTimes → ClassTimes := fun c => { c with
        leadTicks := s.timeline.pendingPeriod.elim c.leadTicks (fun P => (c.lead * 8 + P - 1) / P) }
      let u := { s with
        timeline := { s.timeline with
          state := .stopped
          stopReason := .request
          tickDue := none
          lossDue := none
          lastPulse := none
          pendingPeriod := none
          period := s.timeline.pendingPeriod.getD s.timeline.period
          marimba := led s.timeline.marimba
          vibes := led s.timeline.vibes
          perc := led s.timeline.perc }
        dampers := s.dampers.mapWith (fun _ (d : Damper) => d.without (max s.now w.time) (fun _ => true)) }
      exec (.stop w p) s = .next (u.answering w p 0x15#8 .ok (summary u.timeline)) ∧ ∀ x, (u.damper x).holds = [])) ∧
  (∀ (w : When) (p : PortId) (s : State) (position : Quad), s.ready p = true → s.timeline.conductor = some p →
    s.timeline.state = .stopped →
    let beats := s.timeline.pendingMeter.getD s.timeline.beatsPerBar
    let n := position.toNat
    let passed : Entry → Bool := fun e => e.state = .waiting && e.due < n
    let moved : Timeline := { s.timeline with
      position := n
      beatsPerBar := beats
      pendingMeter := none
      beatInBar := n % (beats * 240) / 240
      barNumber := n / (beats * 240) % 65536 }
    let located := ({ s with timeline := moved } : State).afterLeaving .passed passed
    let reporting : VoiceId → Option PortId := fun v => if v = chimeVoice then s.chimePort else (s.voice v).owner
    let ended : PortId → Bool := fun q =>
      (List.finRange 16).any (fun v => (s.player v).state ≠ PlayerState.idle && reporting v = some q)
    let t := { located with
      players := s.players.mapWith (fun _ (x : Player) => if x.state = PlayerState.idle then x else
        { x with state := .idle, endReason := .located, nextDue := none, told := false })
      ports := located.ports.mapWith (fun (q : PortId) (x : Port) =>
        if ended q then { x with pendingNotices := x.pendingNotices ||| 0x20#8 } else x) }
    exec (.locate w p position) s = .next (t.answering w p 0x16#8 .ok (summary moved)) ∧
    ((s.entries.map (·.slot)).Nodup → t.entries = s.entries.filter (fun e => !passed e)) ∧
    t = { s with timeline := moved, entries := t.entries, players := t.players, ports := t.ports })

/-! ## Voices and strokes (spec/02) -/

/-- OPEN takes the named voice where it is CLOSED, or the lowest-numbered CLOSED one where none is named; it is refused with
RANGE, BUSY and FULL as R25 gives. CLOSE by the owner flushes the voice, halts its player, removes its pedal holds and frees
its area (R26, R105): its WAITING and RELEASED entries leave with FLUSHED in calendar order, and its reply counts them and the FIRING
rolls marked (R183, R47); by another port, or of voice 15, it is refused with OWNER. That the player of an opened or closed voice has
no next due is the model's choice, log entry 36. -/
def Obligations.VoicesOpenAndClose : Prop :=
  (∀ (s : State) (p : PortId) (v : VoiceId), s.owns p v = true ↔
    v ≠ chimeVoice ∧ (s.voice v).state = .opened ∧ (s.voice v).owner = some p) ∧
  ∀ (w : When) (p : PortId) (s : State), s.ready p = true →
    let openedBy : VoiceId → Byte → Byte → Byte → Answer := fun v priority low high =>
      .next (({ s with
        voices := s.voices.put v {
          state := .opened, owner := some p, priority := priority.toNat, low := low.toNat, high := high.toNat, area := none }
        players := s.players.put v { s.player v with state := .idle, nextDue := none, told := false }
        }).answering w p 0x20#8 .ok (b1 v.1))
    (∀ (voice priority low high : Byte), (14 < voice.toNat ∧ voice ≠ 0xFF#8) ∨ 3 < priority.toNat ∨ 127 < low.toNat ∨
        127 < high.toNat ∨ high.toNat < low.toNat →
      exec (.openVoice w p voice priority low high) s = .next (s.answering w p 0x20#8 .range [])) ∧
    (∀ (priority low high : Byte), priority.toNat ≤ 3 → low.toNat ≤ high.toNat → high.toNat ≤ 127 →
      (∀ v : VoiceId, v ≠ chimeVoice →
        ((s.voice v).state = .closed →
          exec (.openVoice w p (BitVec.ofNat 8 v.1) priority low high) s = openedBy v priority low high) ∧
        ((s.voice v).state = .opened →
          exec (.openVoice w p (BitVec.ofNat 8 v.1) priority low high) s = .next (s.answering w p 0x20#8 .busy [])) ∧
        ((s.voice v).state = .closed → (∀ u : VoiceId, u < v → (s.voice u).state = .opened) →
          exec (.openVoice w p 0xFF#8 priority low high) s = openedBy v priority low high)) ∧
      ((∀ v : VoiceId, v ≠ chimeVoice → (s.voice v).state = .opened) →
        exec (.openVoice w p 0xFF#8 priority low high) s = .next (s.answering w p 0x20#8 .full []))) ∧
    (∀ v : VoiceId,
      (s.owns p v = false →
        exec (.closeVoice w p (BitVec.ofNat 8 v.1)) s = .next (s.answering w p 0x21#8 .owner [])) ∧
      (s.owns p v = true →
        let flushed : Entry → Bool := fun e => e.voice = v && e.state ≠ .firing
        let marked : Entry → Entry := fun e => match e.part with
          | .roll r => if e.voice = v && e.state = .firing then { e with part := .roll { r with flushMark := true } } else e
          | _ => e
        let rolls : Entry → Bool := fun e => e.voice = v && e.state = .firing && e.part.isRoll
        let endless : Hold → Bool := fun h => h.endTick.isNone && h.voice = v
        let left := ({ s with entries := s.entries.map marked } : State).afterLeaving .flushed flushed
        let t := { left with
          voices := s.voices.put v { s.voice v with state := .closed, owner := none, area := none }
          players := left.players.put v { s.player v with state := .idle, nextDue := none, told := false }
          dampers := s.dampers.mapWith (fun _ (d : Damper) =>
            if d.holds.any endless then d.without (max s.now w.time) endless else d) }
        exec (.closeVoice w p (BitVec.ofNat 8 v.1)) s = .next (t.answering w p 0x21#8 .ok
          (b1 (s.entries.countP flushed) ++ b1 (s.entries.countP rolls))) ∧
        ((s.entries.map (·.slot)).Nodup → t.entries = (s.entries.filter (fun e => !flushed e)).map marked) ∧
        (∀ u, ∀ h ∈ (t.damper u).holds, h.endTick = none → h.voice ≠ v) ∧
        t = { s with
          entries := t.entries, ports := t.ports, voices := t.voices, players := t.players, dampers := t.dampers }))

/-- STRIKE, ROLL and PRESS of a voice's owner that pass the checks of R31, and that the position does not yet release, are
admitted (R28, R29, R32): the entry takes the lowest free slot and the arrival number, stands WAITING at its place, and the reply
carries the slot and the arrival number; its place is by due tick, then arrival (R29); ReleaseFollowsItsTests says what one does
that the position releases at once. The offset form counts from the position. All three are refused in R31's order: the voice's
ownership with OWNER; the voice's bar range, the strength, the sustain, a ROLL's count and spacing, a PRESS's hold and duty, and
the tick range, each with RANGE; and the quota and the calendar with FULL. -/
def Obligations.StrokesAreAdmittedOrRefused : Prop :=
  (∀ (e : Entry) (l : List Entry),
    let inOrder : Entry → Entry → Prop := fun a b => a.due < b.due ∨ (a.due = b.due ∧ a.seq < b.seq)
    (placeEntry e l).Perm (e :: l) ∧
    (l.Pairwise inOrder → (∀ d ∈ l, d.seq ≠ e.seq) → (placeEntry e l).Pairwise inOrder)) ∧
  (∀ (w : When) (p : PortId) (s : State) (v : VoiceId) (b : BarId) (offset sustained : Bool) (due : Quad)
    (strength tag : Byte) (sustain : Half) (slot : SlotId), s.ready p = true → s.decisions = [] →
    s.owns p v = true → (s.voice v).low ≤ b.1 → b.1 ≤ (s.voice v).high → strength ≠ 0#8 →
    (sustained = true → sustain ≠ 0#16) →
    s.entries.length < 256 → s.useCount p < s.quotas.look p →
    (∀ e ∈ s.entries, e.slot ≠ slot) → (∀ k : SlotId, k < slot → ∃ e ∈ s.entries, e.slot = k) →
    let form : Byte := bitByte offset ||| (bitByte sustained <<< 1)
    let first := if offset then s.timeline.position + due.toNat else due.toNat
    let rings := if sustained then some sustain.toNat else none
    let entry : StrokePart → Entry := fun part => {
      slot := slot, voice := v, port := p, report := true, bar := b, due := first, part := part, strength := strength.toNat
      sustain := rings, tag := tag, seq := s.nextSeq, state := .waiting, target := none, deadline := none
      targetReached := false, fire := none, flags := {}, peak := none, listened := false, wasCut := false }
    let admitted : Byte → StrokePart → Answer := fun kind part =>
      .next (({ s with
        entries := placeEntry (entry part) s.entries
        nextSeq := s.nextSeq + 1 }).answering w p kind .ok (b1 slot.1 ++ b4 s.nextSeq))
    s.timeline.position < first - (s.timeline.times (s.bar b).cls).leadTicks →
    let fits : Nat → Prop := fun last => last + rings.getD 0 ≤ 4294967295
    (fits first →
      exec (.strike w p (BitVec.ofNat 8 v.1) (BitVec.ofNat 8 b.1) form due strength tag sustain) s =
        admitted 0x22#8 .single) ∧
    (∀ count spacing : Byte, 2 ≤ count.toNat → count.toNat ≤ 32 → 1 ≤ spacing.toNat → spacing.toNat ≤ 240 →
      fits (first + (count.toNat - 1) * spacing.toNat) →
      exec (.roll w p (BitVec.ofNat 8 v.1) (BitVec.ofNat 8 b.1) form due strength tag sustain count spacing) s =
        admitted 0x23#8 (.roll {
          count := count.toNat, spacing := spacing.toNat, firstDue := first, played := 0, missed := 0, chopMark := false
          flushMark := false })) ∧
    (∀ (hold : Half) (duty : Byte), 5 ≤ hold.toNat → hold.toNat ≤ 400 → duty ≠ 0#8 → fits first →
      exec (.press w p (BitVec.ofNat 8 v.1) (BitVec.ofNat 8 b.1) form due strength tag sustain hold duty) s =
        admitted 0x24#8 (.press { holdMs := hold.toNat, duty := duty.toNat }))) ∧
  (∀ (w : When) (p : PortId) (s : State) (v : VoiceId) (b : BarId) (form : Byte) (due : Quad) (strength tag : Byte)
    (sustain : Half) (count spacing : Byte) (hold : Half) (duty : Byte), s.ready p = true → form.toNat < 4 →
    let answer : Byte → Status → Answer := fun kind st => .next (s.answering w p kind st [])
    let strike : Answer :=
      exec (.strike w p (BitVec.ofNat 8 v.1) (BitVec.ofNat 8 b.1) form due strength tag sustain) s
    let roll : Answer :=
      exec (.roll w p (BitVec.ofNat 8 v.1) (BitVec.ofNat 8 b.1) form due strength tag sustain count spacing) s
    let press : Answer :=
      exec (.press w p (BitVec.ofNat 8 v.1) (BitVec.ofNat 8 b.1) form due strength tag sustain hold duty) s
    let refused : Status → Prop := fun st => strike = answer 0x22#8 st ∧ roll = answer 0x23#8 st ∧ press = answer 0x24#8 st
    let outside : Prop := b.1 < (s.voice v).low ∨ (s.voice v).high < b.1 ∨ strength = 0#8 ∨
      (form.getLsbD 1 = true ∧ sustain = 0#16)
    let badRoll : Prop := count.toNat < 2 ∨ 32 < count.toNat ∨ spacing = 0#8 ∨ 240 < spacing.toNat
    let badPress : Prop := hold.toNat < 5 ∨ 400 < hold.toNat ∨ duty = 0#8
    let first := if form.getLsbD 0 then s.timeline.position + due.toNat else due.toNat
    let rings := if form.getLsbD 1 then sustain.toNat else 0
    let last := first + (count.toNat - 1) * spacing.toNat
    let full : Prop := 256 ≤ s.entries.length ∨ s.quotas.look p ≤ s.useCount p
    (s.owns p v = false → refused .owner) ∧
    (s.owns p v = true →
      (outside ∨ 4294967295 < first + rings → refused .range) ∧
      (badRoll ∨ 4294967295 < last + rings → roll = answer 0x23#8 .range) ∧
      (badPress → press = answer 0x24#8 .range) ∧
      (¬ outside → full → first + rings ≤ 4294967295 →
        strike = answer 0x22#8 .full ∧
        (¬ badRoll → last + rings ≤ 4294967295 → roll = answer 0x23#8 .full) ∧
        (¬ badPress → press = answer 0x24#8 .full))))

/-- CHOP marks the rolls with the tag and counts those newly marked, CANCEL takes the WAITING entries with the tag, which leave with
CANCELLED, and FLUSH takes the WAITING and RELEASED entries of the voice, which leave with FLUSHED, and marks its FIRING rolls (R45 to
R47); they leave in calendar order. From a port that may not command the voice each is refused with OWNER. -/
def Obligations.EntriesAreChoppedCancelledFlushed : Prop :=
  (∀ (s : State) (p : PortId) (v : VoiceId), s.commands p v = true ↔
    (v ≠ chimeVoice ∧ (s.voice v).state = .opened ∧ (s.voice v).owner = some p) ∨ (v = chimeVoice ∧ s.chimePort = some p)) ∧
  ∀ (w : When) (p : PortId) (s : State) (v : VoiceId) (tag : Byte), s.ready p = true →
    let voice : Byte := BitVec.ofNat 8 v.1
    let choppable : Entry → Bool := fun e => e.voice = v && e.tag = tag &&
      (match e.part with | .roll r => !r.chopMark | _ => false)
    let cancelled : Entry → Bool := fun e => e.voice = v && e.tag = tag && e.state = .waiting
    let flushed : Entry → Bool := fun e => e.voice = v && e.state ≠ .firing
    let markable : Entry → Bool := fun e => e.voice = v && e.state = .firing && e.part.isRoll
    let marked : Entry → Entry := fun e => match e.part with
      | .roll r => if markable e then { e with part := .roll { r with flushMark := true } } else e
      | _ => e
    let kept : State → Prop := fun t => t = { s with entries := t.entries, ports := t.ports, players := t.players }
    (s.commands p v = false →
      exec (.chop w p voice tag) s = .next (s.answering w p 0x25#8 .owner []) ∧
      exec (.cancel w p voice tag) s = .next (s.answering w p 0x26#8 .owner []) ∧
      exec (.flush w p voice) s = .next (s.answering w p 0x27#8 .owner [])) ∧
    (s.commands p v = true →
      exec (.chop w p voice tag) s = .next (({ s with entries := s.entries.map (fun (e : Entry) => match e.part with
        | .roll r => if e.voice = v ∧ e.tag = tag then { e with part := .roll { r with chopMark := true } } else e
        | _ => e) }).answering w p 0x25#8 .ok (b1 (s.entries.countP choppable)))) ∧
    (s.commands p v = true →
      let t := s.afterLeaving .cancelled cancelled
      exec (.cancel w p voice tag) s = .next (t.answering w p 0x26#8 .ok (b1 (s.entries.countP cancelled))) ∧
      ((s.entries.map (·.slot)).Nodup → t.entries = s.entries.filter (fun e => !cancelled e)) ∧ kept t) ∧
    (s.commands p v = true →
      let t := ({ s with entries := s.entries.map marked } : State).afterLeaving .flushed flushed
      exec (.flush w p voice) s = .next (t.answering w p 0x27#8 .ok
        (b1 (s.entries.countP flushed) ++ b1 (s.entries.countP markable))) ∧
      ((s.entries.map (·.slot)).Nodup → t.entries = (s.entries.filter (fun e => !flushed e)).map marked) ∧ kept t)

/-! ## Phrase memory and players (spec/06) -/

/-- SEEK sets the port's load pointer (R111). LOAD within one area that the port may write, its player IDLE, writes its bytes
at the pointer and advances it (R112): every other byte reads as before. Outside such an area it is refused with OWNER, and
under a player that is not IDLE with BUSY. A voice's area may be written where it is the chime area or the area of a voice
that the port owns, and holds all the bytes (R112): `areaFor` finds such a voice, and none only where there is none. -/
def Obligations.SeekAndLoadTakeEffect : Prop :=
  (∀ (w : When) (p : PortId) (s : State), s.ready p = true →
    (∀ address : Half, address.toNat ≤ 32767 → exec (.seek w p address) s =
      .next (({ s with ports := s.ports.put p { s.port p with loadPointer := address.toNat } }).answering w p 0x30#8 .ok
        (halfBytes address))) ∧
    (∀ address : Half, 32767 < address.toNat → exec (.seek w p address) s = .next (s.answering w p 0x30#8 .range [])) ∧
    (∀ data : List Byte, s.MemorySound → dataAllowed data = true →
      let a := (s.port p).loadPointer
      let next := if 32767 < a + data.length then 0 else a + data.length
      (∀ v, s.areaFor p a (a + data.length - 1) = some v →
        ((s.player v).state ≠ .idle → exec (.load w p data) s = .next (s.answering w p 0x31#8 .busy [])) ∧
        ((s.player v).state = .idle → ∃ mem, exec (.load w p data) s =
            .next (({ s with
              mem := mem
              ports := s.ports.put p { s.port p with loadPointer := next } }).answering w p 0x31#8 .ok (b2 next)) ∧
          ∀ x, memRead mem x =
            if a ≤ x ∧ x < a + data.length then data.getD (x - a) 0#8 else memRead s.mem x)) ∧
      (s.areaFor p a (a + data.length - 1) = none →
        exec (.load w p data) s = .next (s.answering w p 0x31#8 .owner [])))) ∧
  (∀ (s : State) (p : PortId) (first last : Nat),
    let may : VoiceId → Prop := fun v => (v = chimeVoice ∨ s.owns p v = true) ∧
      ∃ a, (s.voice v).area = some a ∧ a.first ≤ first ∧ last ≤ a.last
    (∀ v, s.areaFor p first last = some v → may v) ∧ (s.areaFor p first last = none → ∀ v, ¬ may v))

/-- SET_AREA is checked in R110's order, and binds the range with an empty ring at its start, or makes the area absent. -/
def Obligations.AreasAreBound : Prop :=
  ∀ (w : When) (p : PortId) (s : State) (v : VoiceId) (first last : Half), s.ready p = true →
    let n := first.toNat
    let m := last.toNat
    let absent : Prop := n = 0 ∧ m = 0
    let formed : Prop := n % 8 = 0 ∧ (m + 1) % 8 = 0 ∧ n ≤ m ∧ 4096 ≤ n ∧ m ≤ 32767
    let taken : Prop := ∃ u a, u ≠ v ∧ (s.voice u).area = some a ∧ n ≤ a.last ∧ a.first ≤ m
    let answer : Status → List Byte → State → Prop := fun st results u =>
      exec (.setArea w p (BitVec.ofNat 8 v.1) first last) s = .next (u.answering w p 0x33#8 st results)
    let bound : Option Area → State := fun area => { s with voices := s.voices.put v { s.voice v with area := area } }
    (s.owns p v = false → answer .owner [] s) ∧
    (s.owns p v = true → ¬ absent → (¬ formed ∨ taken) → answer .range [] s) ∧
    (s.owns p v = true → (absent ∨ (formed ∧ ¬ taken)) → (s.player v).state ≠ .idle → answer .busy [] s) ∧
    (s.owns p v = true → absent → (s.player v).state = .idle → answer .ok [0#8, 0#8] (bound none)) ∧
    (s.owns p v = true → formed → ¬ taken → (s.player v).state = .idle →
      answer .ok (b2 ((m + 1 - n) / 8)) (bound (some { first := n, last := m, read := n, write := n, retained := 0 })))

/-- CUE and CHIME arm an IDLE player, which waits in ARMED while the timeline is STOPPED or the start lies beyond the horizon
(R117, R118, R129); a start within the horizon gives RUNNING at the request, which reads the first step at once (R115, R118,
R119): one due beyond the horizon is computed and waits, a stream with nothing retained starves (R124), and an END ends a ONCE
phrase with PHRASE_END (R122, R128). CUE is refused in R117's order: with OWNER from a port that does not own the voice, with
STATE for a voice without an area, with RANGE for a horizon or a start out of range; CHIME with RANGE for these and for a start
address that is no multiple of 8 or lies above 4,088, whatever the player's state (R129). A player that is not IDLE then refuses
with BUSY. HALT sends the player to IDLE from any state and raises no notice, and with the flush option flushes the voice too
(R126, R47): its WAITING and RELEASED entries leave with FLUSHED in calendar order, its FIRING rolls receive the flush mark, and the
reply counts both after the player's state before (R187). That a halted player's next due does not stand is the model's choice, log
entry 36. -/
def Obligations.PlayersStartAndHalt : Prop :=
  ∀ (w : When) (p : PortId) (s : State) (loops : Byte) (nextBar : Bool) (start : Quad) (horizon : Half),
    s.ready p = true → s.decisions = [] →
    let reach := if horizon.toNat = 0 then 480 else horizon.toNat
    let tickInBar := s.timeline.beatInBar * 240 + s.timeline.position % 240
    let at_ := if nextBar then s.timeline.position - tickInBar + s.timeline.beatsPerBar * 240 else start.toNat
    let inRange : Prop := 240 ≤ reach ∧ reach ≤ 1920 ∧ at_ ≤ 4294967295
    let later : Prop := s.timeline.state = .stopped ∨ s.timeline.position + reach < at_
    let soon : Prop := s.timeline.state ≠ .stopped ∧ at_ ≤ s.timeline.position + reach
    let beyond : Nat → Prop := fun due => due ≤ 4294967295 ∧ s.timeline.position + reach < due
    let cued : VoiceId → PlayerMode → Nat → Player := fun v mode address => { s.player v with
      state := .armed
      mode := mode
      loops := loops.toNat
      passes := 0
      start := at_
      horizon := reach
      startAddress := if mode = .stream then (s.player v).startAddress else address
      nextAddress := if mode = .stream then (s.player v).nextAddress else address
      returnPoint := none
      passDue := at_
      previousDue := at_
      refused := 0
      endReason := .none
      nextDue := none
      told := false }
    (∀ (v : VoiceId) (mode : PlayerMode) (a : Area), s.owns p v = true → (s.voice v).area = some a → inRange →
      let command : Instr := .cue w p (BitVec.ofNat 8 v.1) (BitVec.ofNat 8 mode.code) loops (bitByte nextBar) start horizon
      let started : Player → PlayerState → Answer := fun x state =>
        .next (({ s with players := s.players.put v { x with state := state } }).answering w p 0x34#8 .ok
          (b4 at_ ++ b1 state.code))
      let x := cued v mode a.first
      ((s.player v).state ≠ .idle → exec command s = .next (s.answering w p 0x34#8 .busy [])) ∧
      ((s.player v).state = .idle → later → exec command s = started x .armed) ∧
      ((s.player v).state = .idle → soon →
        (∀ due, mode ≠ .stream → a.first + 7 ≤ a.last → due = at_ + (decodeStep s.mem a.first).delta → beyond due →
          exec command s = started { x with nextDue := some due } .running) ∧
        (mode = .stream → a.retained = 0 → exec command s = started x .starved) ∧
        (∀ due, mode = .stream → a.retained ≠ 0 → due = at_ + (decodeStep s.mem a.read).delta → beyond due →
          exec command s = started { x with nextDue := some due } .running) ∧
        (∀ due, mode = .once → a.first + 7 ≤ a.last → (decodeStep s.mem a.first).body = .ended →
          due = at_ + (decodeStep s.mem a.first).delta → due ≤ 4294967295 → due ≤ s.timeline.position + reach →
          exec command s = .next (({ s with
            ports := s.ports.put p { s.port p with pendingNotices := (s.port p).pendingNotices ||| 0x20#8 }
            players := s.players.put v { x with
              state := .idle, endReason := .ended, previousDue := due, nextAddress := a.first + 8 } }).answering w p 0x34#8 .ok
                (b4 at_ ++ b1 0))))) ∧
    (∀ (v : VoiceId) (mode : PlayerMode),
      let command : Instr := .cue w p (BitVec.ofNat 8 v.1) (BitVec.ofNat 8 mode.code) loops (bitByte nextBar) start horizon
      (s.owns p v = false → exec command s = .next (s.answering w p 0x34#8 .owner [])) ∧
      (s.owns p v = true → (s.voice v).area = none → exec command s = .next (s.answering w p 0x34#8 .state [])) ∧
      (s.owns p v = true → (s.voice v).area ≠ none → ¬ inRange → exec command s = .next (s.answering w p 0x34#8 .range []))) ∧
    (∀ address : Half, address.toNat % 8 ≠ 0 ∨ 4088 < address.toNat ∨ ¬ inRange →
      exec (.chime w p address loops (bitByte nextBar) start horizon) s = .next (s.answering w p 0x35#8 .range [])) ∧
    (∀ address : Half, address.toNat % 8 = 0 → address.toNat ≤ 4088 → inRange →
      let command : Instr := .chime w p address loops (bitByte nextBar) start horizon
      ((s.player chimeVoice).state ≠ .idle → exec command s = .next (s.answering w p 0x35#8 .busy [])) ∧
      let x := cued chimeVoice .loop address.toNat
      let started : Player → PlayerState → Answer := fun x state =>
        .next (({ s with
          chimePort := some p
          players := s.players.put chimeVoice { x with state := state } }).answering w p 0x35#8 .ok
            (b4 at_ ++ b1 state.code ++ b1 p.1))
      ((s.player chimeVoice).state = .idle → later → exec command s = started x .armed) ∧
      (∀ a due, (s.player chimeVoice).state = .idle → soon → (s.voice chimeVoice).area = some a →
        address.toNat + 7 ≤ a.last → due = at_ + (decodeStep s.mem address.toNat).delta → beyond due →
        exec command s = started { x with nextDue := some due } .running)) ∧
    (∀ v : VoiceId,
      let halted := s.players.put v { s.player v with state := .idle, nextDue := none, told := false }
      (s.commands p v = false → ∀ flush : Bool,
        exec (.halt w p (BitVec.ofNat 8 v.1) (bitByte flush)) s = .next (s.answering w p 0x36#8 .owner [])) ∧
      (s.commands p v = true →
        exec (.halt w p (BitVec.ofNat 8 v.1) 0#8) s = .next (({ s with players := halted }).answering w p 0x36#8 .ok
          (b1 (s.player v).state.code ++ [0#8, 0#8])) ∧
        let flushed : Entry → Bool := fun e => e.voice = v && e.state ≠ .firing
        let rolls : Entry → Bool := fun e => e.voice = v && e.state = .firing && e.part.isRoll
        let marked : Entry → Entry := fun e => match e.part with
          | .roll r => if rolls e then { e with part := .roll { r with flushMark := true } } else e
          | _ => e
        let t := ({ s with players := halted, entries := s.entries.map marked } : State).afterLeaving .flushed flushed
        exec (.halt w p (BitVec.ofNat 8 v.1) 1#8) s = .next (t.answering w p 0x36#8 .ok
          (b1 (s.player v).state.code ++ b1 (s.entries.countP flushed) ++ b1 (s.entries.countP rolls))) ∧
        ((s.entries.map (·.slot)).Nodup → t.entries = (s.entries.filter (fun e => !flushed e)).map marked) ∧
        t.player v = { s.player v with state := .idle, nextDue := none, told := false } ∧
        t = { s with entries := t.entries, ports := t.ports, players := t.players }))

/-- PUSH appends whole steps to the ring of the voice's area where there is room, and a STARVED player enters RUNNING and reads
what was pushed, where the timeline is not STOPPED (R123, R119, R188). The steps go to the ring's write position one after another,
from its last place on to its first, and every other byte keeps its value. CLEAR empties the ring and leaves its bytes; a STREAM
player that played enters STARVED (R125). Both are refused with OWNER, STATE and BUSY in that order, and PUSH then with FULL. -/
def Obligations.StreamRequestsTakeEffect : Prop :=
  (∀ (w : When) (p : PortId) (s : State) (v : VoiceId) (steps : List Byte), s.ready p = true → stepsAllowed steps = true →
    let push : Instr := .push w p (BitVec.ofNat 8 v.1) steps
    let clear : Instr := .clear w p (BitVec.ofNat 8 v.1)
    let q := s.player v
    let playsPhrase : Prop := q.state ≠ .idle ∧ q.mode ≠ .stream
    (s.owns p v = false → exec push s = .next (s.answering w p 0x37#8 .owner []) ∧
      exec clear s = .next (s.answering w p 0x38#8 .owner [])) ∧
    (s.owns p v = true → (s.voice v).area = none → exec push s = .next (s.answering w p 0x37#8 .state []) ∧
      exec clear s = .next (s.answering w p 0x38#8 .state [])) ∧
    (∀ a, s.owns p v = true → (s.voice v).area = some a →
      let size := a.last + 1 - a.first
      let pushed := pushSteps s.mem a steps
      let answered : Player → Answer := fun x => .next (({ s with
          mem := pushed.1
          voices := s.voices.put v { s.voice v with area := some pushed.2 }
          players := s.players.put v x }).answering w p 0x37#8 .ok
            (b2 (a.retained + steps.length) ++ b2 (size - (a.retained + steps.length)) ++ b1 x.state.code))
      (playsPhrase → exec push s = .next (s.answering w p 0x37#8 .busy []) ∧
        exec clear s = .next (s.answering w p 0x38#8 .busy [])) ∧
      (¬ playsPhrase → size - a.retained < steps.length → exec push s = .next (s.answering w p 0x37#8 .full [])) ∧
      (¬ playsPhrase → steps.length ≤ size - a.retained →
        (q.state ≠ .starved → exec push s = answered q) ∧
        (q.state = .starved → s.decisions = [] →
          (s.timeline.state = .stopped → exec push s = answered { q with state := .running, told := false }) ∧
          (∀ due, s.timeline.state ≠ .stopped → due = q.previousDue + (decodeStep pushed.1 a.read).delta →
            due ≤ 4294967295 → s.timeline.position + q.horizon < due →
            exec push s = answered { q with state := .running, told := false, nextDue := some due }))) ∧
      (¬ playsPhrase → exec clear s = .next (({ s with
          voices := s.voices.put v { s.voice v with
            area := some { a with read := a.first, write := a.first, retained := 0 } }
          players := s.players.put v (if q.state = PlayerState.running ∨ q.state = PlayerState.stalled then
            { q with state := .starved, nextDue := none, told := false } else q)
          }).answering w p 0x38#8 .ok (b2 size ++
            b1 (if q.state = PlayerState.running ∨ q.state = PlayerState.stalled then 4 else q.state.code)))))) ∧
  (∀ (m : List Host.Cell) (a : Area) (steps : List Byte), memWf m = true → steps.length % 8 = 0 →
    let size := a.last + 1 - a.first
    let place : Nat → Nat := fun i => a.first + (a.write - a.first + 8 * i) % size
    a.first ≤ a.write → a.write ≤ a.last → size % 8 = 0 → (a.write - a.first) % 8 = 0 → steps.length ≤ size →
    let pushed := pushSteps m a steps
    pushed.2 = { a with write := place (steps.length / 8), retained := a.retained + steps.length } ∧
    (∀ i, 8 * i < steps.length → memBytes pushed.1 (place i) 8 = (steps.drop (8 * i)).take 8) ∧
    (∀ x, (∀ i, 8 * i < steps.length → x < place i ∨ place i + 8 ≤ x) → memRead pushed.1 x = memRead m x))

/-- A step is decoded from its 8 bytes: delta, kind, bar or marker, strength, tag, parameters A and B, a PRESS's hold time in 4 ms
units (R114, R196). A STALLED player that has been told resumes (R121), by a command of its own (log entry 16): with the timeline
STOPPED it enters RUNNING and takes no step; otherwise it takes steps, beginning with the one it holds (R114, R115, R119, R120,
R122, R124, R128). A step beyond the horizon is computed and waits; a due beyond the tick range ends the phrase with RANGE; REST,
MARK and a marker that names nothing are passed, MARK keeping the return point; a stroke is admitted, or counted as refused, or
finds the calendar full and stalls the player; END ends a phrase, or in LOOP counts a pass and returns, unless the loops are done
or no time has passed; that a player whose phrase ends has no next due is the model's choice, log entry 36; a stream takes from
its ring, and starves when it is empty. At a tick expiry a RUNNING player reads its next step, and an ARMED one enters RUNNING
where its start lies within the horizon (R118, R119). -/
def Obligations.StalledPlayersResume : Prop :=
  (∀ (w : When) (s : State) (v : VoiceId), s.power.inReset = false → s.decisions = [] →
    (s.player v).state = .stalled → (s.player v).told = true →
    let q := s.player v
    let after : Player → State := fun x => { s with now := max s.now w.time, players := s.players.put v x }
    let resumed : Player := { q with state := .running, told := false }
    let horizon := s.timeline.position + q.horizon
    let gives : State → Prop := fun t => exec (.playerStallResume w v) s = .next t
    (s.timeline.state = .stopped → gives (after resumed)) ∧
    (∀ (p : PortId) (a : Area), s.timeline.state ≠ .stopped → (s.voice v).area = some a →
      (if v = chimeVoice then s.chimePort else (s.voice v).owner) = some p →
      let ends : EndReason → Player → State := fun why x => { after { x with
          state := .idle, endReason := why, nextDue := none, told := false } with
        ports := s.ports.put p { s.port p with pendingNotices := (s.port p).pendingNotices ||| 0x20#8 } }
      (q.mode ≠ .stream → q.nextAddress + 7 ≤ a.last →
        let held := decodeStep s.mem q.nextAddress
        let due := q.previousDue + held.delta
        let taken : Player := { resumed with previousDue := due, nextAddress := q.nextAddress + 8, nextDue := none }
        let next : Nat → Nat := fun b => due + (decodeStep s.mem b).delta
        let waits : Nat → Prop := fun b => b + 7 ≤ a.last ∧ next b ≤ 4294967295 ∧ horizon < next b
        let following := q.nextAddress + 8
        let goesOn : Player → Player := fun x => { x with nextDue := some (next following) }
        (4294967295 < due → gives (ends .range resumed)) ∧
        (due ≤ 4294967295 → horizon < due → gives (after { resumed with nextDue := some due })) ∧
        (due ≤ 4294967295 → due ≤ horizon →
          (waits following →
            (held.body = .rest → gives (after (goesOn taken))) ∧
            (held.body = .mark → gives (after (goesOn { taken with returnPoint := some q.nextAddress }))) ∧
            (held.body = .invalid → gives (after (goesOn { taken with refused := min 65535 (q.refused + 1) })))) ∧
          (held.body = .ended → q.mode = .once → gives (ends .ended taken)) ∧
          (held.body = .ended → q.mode = .loop →
            let passes := min 255 (q.passes + 1)
            let done : Prop := q.loops ≠ 0 ∧ passes = q.loops
            (done → gives (ends .ended { taken with passes := passes })) ∧
            (¬ done → due = q.passDue → gives (ends .range { taken with passes := passes })) ∧
            (∀ b, ¬ done → due ≠ q.passDue → b = (q.returnPoint.map (· + 8)).getD q.startAddress → waits b →
              gives (after { taken with passes := passes, passDue := due, nextAddress := b, nextDue := some (next b) }))) ∧
          (∀ (bar : BarId) (part : StrokePart) (strength : Nat) (tag : Byte) (sustain : Option Nat),
            held.body = .stroke bar part strength tag sustain →
            let last := match part with | .roll r => due + (r.count - 1) * r.spacing | _ => due
            let refused : Prop := bar.1 < (s.voice v).low ∨ (s.voice v).high < bar.1 ∨ strength = 0 ∨ sustain = some 0 ∨
              (match part with
                | .single => False
                | .roll r => r.count < 2 ∨ 32 < r.count ∨ r.spacing < 1 ∨ 240 < r.spacing
                | .press x => x.holdMs < 5 ∨ 400 < x.holdMs ∨ x.duty < 1 ∨ 255 < x.duty) ∨
              4294967295 < last + sustain.getD 0
            let full : Prop := 256 ≤ s.entries.length ∨
              (if v = chimeVoice then 32 ≤ s.chimeCount else s.quotas.look p ≤ s.useCount p)
            (refused → waits following → gives (after (goesOn { taken with refused := min 65535 (q.refused + 1) }))) ∧
            (¬ refused → full → gives (after { q with nextDue := some due, told := false })) ∧
            (∀ slot : SlotId, ¬ refused → ¬ full → waits following → (∀ e ∈ s.entries, e.slot ≠ slot) →
              (∀ k : SlotId, k < slot → ∃ e ∈ s.entries, e.slot = k) →
              s.timeline.position < due - (s.timeline.times (s.bar bar).cls).leadTicks →
              gives { after (goesOn taken) with
                nextSeq := s.nextSeq + 1
                entries := placeEntry {
                  slot := slot, voice := v, port := p, report := true, bar := bar, due := due
                  part := (match part with
                    | .roll r => .roll { r with firstDue := due, played := 0, missed := 0, chopMark := false, flushMark := false }
                    | other => other)
                  strength := strength, sustain := sustain, tag := tag, seq := s.nextSeq, state := .waiting, target := none
                  deadline := none, targetReached := false, fire := none, flags := {}, peak := none, listened := false
                  wasCut := false } s.entries })))) ∧
      (q.mode = .once → a.last < q.nextAddress + 7 → q.previousDue ≤ 4294967295 → q.previousDue ≤ horizon →
        gives (ends .ended { resumed with nextAddress := q.nextAddress + 8 })) ∧
      (q.mode = .stream →
        (a.retained = 0 → gives (after { resumed with state := .starved, nextDue := none })) ∧
        (a.retained ≠ 0 →
          let held := decodeStep s.mem a.read
          let due := q.previousDue + held.delta
          let ring : State → State := fun t => { t with voices := s.voices.put v { s.voice v with area := some { a with
            read := if a.last < a.read + 15 then a.first else a.read + 8, retained := a.retained - 8 } } }
          due ≤ 4294967295 → due ≤ horizon →
            (held.body = .ended → gives (ring (ends .ended { resumed with previousDue := due }))) ∧
            (held.body = .rest → a.retained ≤ 8 →
              gives (ring (after { resumed with state := .starved, previousDue := due, nextDue := none }))))))) ∧
  (∀ (w : When) (s : State) (v : VoiceId) (p : PortId) (a : Area) (expiry : Nat), s.power.inReset = false →
    s.decisions = [] → s.entries = [] → s.timeline.state = .running → s.timeline.tickDue = some expiry →
    (s.timeline.source = .internal ∨ s.timeline.position % 240 ≠ 239) → s.timeline.position + 1 < 4294967295 →
    (∀ u, u ≠ v → (s.player u).state = .idle) → (s.voice v).area = some a →
    (if v = chimeVoice then s.chimePort else (s.voice v).owner) = some p →
    let q := s.player v
    let horizon := s.timeline.position + 1 + q.horizon
    let due := q.previousDue + (decodeStep s.mem q.nextAddress).delta
    let becomes : Player → Prop := fun x => ∃ t, exec (.tickExpiry w) s = .next t ∧ t.player v = x
    (q.state = .armed → horizon < q.start → becomes q) ∧
    (q.state = .running ∨ (q.state = .armed ∧ q.start ≤ horizon) → q.mode ≠ .stream → q.nextAddress + 7 ≤ a.last →
      due ≤ 4294967295 →
      (horizon < due → becomes { q with state := .running, nextDue := some due }) ∧
      (∀ next, due ≤ horizon → (decodeStep s.mem q.nextAddress).body = .rest → q.nextAddress + 15 ≤ a.last →
        next = due + (decodeStep s.mem (q.nextAddress + 8)).delta → next ≤ 4294967295 → horizon < next →
        becomes { q with
          state := .running, previousDue := due, nextAddress := q.nextAddress + 8, nextDue := some next }))) ∧
  (∀ (m : List Host.Cell) (address : Nat),
    let x : Nat → Nat := fun i => (memRead m (address + i)).toNat
    let step := decodeStep m address
    let kind := 2 * (x 4 / 128) + x 2 / 128
    let code := x 2 % 128
    let a := x 4 % 128
    let b := x 6 + 256 * x 7
    let tag := memRead m (address + 5)
    step.delta = x 0 + 256 * x 1 ∧
    (∀ bar : BarId, bar.1 = code →
      (kind = 0 → step.body = .stroke bar .single (x 3) tag (if b = 0 then none else some b)) ∧
      (kind = 1 → step.body = .stroke bar (.roll {
        count := a, spacing := b, firstDue := 0, played := 0, missed := 0, chopMark := false, flushMark := false })
          (x 3) tag none) ∧
      (kind = 2 → step.body = .stroke bar (.press { holdMs := 4 * a, duty := b }) (x 3) tag none)) ∧
    (kind = 3 → step.body = if code = 0 then .mark else if code = 1 then .ended else if code = 2 then .rest else .invalid))

/-! ## Dampers (spec/05) -/

/-- PEDAL down in PLAYING places one endless hold of the voice on each unit named, of a full list the first hold leaving, and
lifts a CLAMPED unit; PEDAL up removes the voice's endless holds, and an OPEN unit left empty whose minimum open time has
passed begins CLAMPING (R95, R97, R98, R101). From another port it is refused with OWNER, and down outside PLAYING with STAGE.
-/
def Obligations.PedalPlacesAndRemovesHolds : Prop :=
  ∀ (w : When) (p : PortId) (s : State) (v : VoiceId) (named : Option UnitId), s.ready p = true →
    let now := max s.now w.time
    let down : Instr := .pedal w p (BitVec.ofNat 8 v.1) (fieldOf named) 0#8
    let up : Instr := .pedal w p (BitVec.ofNat 8 v.1) (fieldOf named) 1#8
    let chosen : UnitId → Bool := fun u => named = none || named = some u
    let hold : Hold := { voice := v, bar := none, endTick := none }
    let endless : Hold → Bool := fun h => h.endTick.isNone && h.voice = v
    (s.owns p v = false → exec down s = .next (s.answering w p 0x40#8 .owner []) ∧
      exec up s = .next (s.answering w p 0x40#8 .owner [])) ∧
    (s.owns p v = true → s.stage.stage ≠ .playing → exec down s = .next (s.answering w p 0x40#8 .stage [])) ∧
    (s.owns p v = true → s.stage.stage = .playing → exec down s =
      .next (({ s with dampers := s.dampers.mapWith (fun (u : UnitId) (d : Damper) => if chosen u then
          { d with
            holds := (if d.holds.length < 16 then d.holds else d.holds.drop 1) ++ [hold]
            state := if d.state = DamperState.clamped then .lifting else d.state
            liftEnd := if d.state = DamperState.clamped then some (now + d.lift) else d.liftEnd }
          else d) }).answering w p 0x40#8 .ok
            (b1 ((List.finRange 4).countP chosen) ++
              b1 ((List.finRange 4).countP (fun u => chosen u && 16 ≤ (s.damper u).holds.length))))) ∧
    (s.owns p v = true → exec up s =
      .next (({ s with dampers := s.dampers.mapWith (fun (u : UnitId) (d : Damper) =>
          let left := d.holds.filter (fun h => !endless h)
          let passed := d.minPassed || (match d.openSince with | some t => decide (t + d.minOpen ≤ now) | none => false)
          if chosen u && d.holds.any endless then
            (if d.state = DamperState.opened && left.isEmpty && passed then
              { d with
                holds := left, state := .clamping, clampEnd := some (now + d.clamp), liftEnd := none, openSince := none
                minPassed := false }
            else { d with holds := left })
          else d) }).answering w p 0x40#8 .ok
            (b1 (((List.finRange 4).map (fun u => if chosen u then (s.damper u).holds.countP endless else 0)).sum))))

/-- A lift's end opens the unit (R99); an OPEN unit begins CLAMPING with an empty list once its minimum open time has passed
(R101); a clamp's end clamps an empty unit and lifts one with holds again (R102). At a tick expiry every timed hold whose end tick
is at or below the new position leaves its unit, and an OPEN unit left empty begins CLAMPING (R100). A stroke granted on a bar
with a damper unit is DAMPED when the unit has no open-by time, or one later than now plus the class's flight lead; on a bar with
none it never is (R106). -/
def Obligations.DamperUnitsFollowTheirTimers : Prop :=
  (∀ (w : When) (s : State) (u : UnitId) (end_ : Nat) (d : Damper), s.power.inReset = false → d = s.damper u →
    let now := max s.now (max end_ w.time)
    let after : Damper → Answer := fun x => .next { s with now := now, dampers := s.dampers.put u x }
    (d.state = .lifting → d.liftEnd = some end_ → (d.holds ≠ [] ∨ 0 < d.minOpen) →
      exec (.liftEnd w u) s = after { d with state := .opened, liftEnd := none, openSince := some now, minPassed := false }) ∧
    (d.state = .lifting → d.liftEnd = some end_ → d.holds = [] → d.minOpen = 0 →
      exec (.liftEnd w u) s = after { d with
        state := .clamping, clampEnd := some (now + d.clamp), liftEnd := none, openSince := none, minPassed := false }) ∧
    (∀ since, d.state = .opened → d.minPassed = false → d.openSince = some since → end_ = since + d.minOpen →
      (d.holds = [] → exec (.minimumOpenExpiry w u) s = after { d with
        state := .clamping, clampEnd := some (now + d.clamp), liftEnd := none, openSince := none, minPassed := false }) ∧
      (d.holds ≠ [] → exec (.minimumOpenExpiry w u) s = after { d with minPassed := true })) ∧
    (d.state = .clamping → d.clampEnd = some end_ →
      (d.holds = [] → exec (.clampEnd w u) s = after { d with state := .clamped, clampEnd := none }) ∧
      (d.holds ≠ [] → exec (.clampEnd w u) s =
        after { d with state := .lifting, clampEnd := none, liftEnd := some (now + d.lift) }))) ∧
  (∀ (w : When) (s : State) (expiry : Nat), s.power.inReset = false → s.decisions = [] → s.entries = [] →
    (∀ v, (s.player v).state = .idle) → s.timeline.state = .running → s.timeline.tickDue = some expiry →
    (s.timeline.source = .internal ∨ s.timeline.position % 240 ≠ 239) → s.timeline.position + 1 < 4294967295 →
    let now := max s.now (max ((expiry + 4) / 8) w.time)
    let past : Hold → Bool := fun h => match h.endTick with
      | some x => decide (x ≤ s.timeline.position + 1)
      | none => false
    ∃ t, exec (.tickExpiry w) s = .next t ∧ ∀ u, t.damper u =
      let d := s.damper u
      let left := d.holds.filter (fun h => !past h)
      let passed := d.minPassed || (match d.openSince with | some t => decide (t + d.minOpen ≤ now) | none => false)
      if d.holds.any past then
        (if d.state = .opened && left.isEmpty && passed then
          { d with
            holds := left, state := .clamping, clampEnd := some (now + d.clamp), liftEnd := none, openSince := none
            minPassed := false }
        else { d with holds := left })
      else d) ∧
  (∀ (s : State) (b : Bar),
    (b.damper = none → s.damped b = false) ∧
    (∀ u, b.damper = some u →
      let d := s.damper u
      let lands := s.now + (s.timeline.times b.cls).lead
      (d.state = .opened → s.damped b = false) ∧
      (d.state = .lifting → ∀ t, d.liftEnd = some t → (s.damped b = true ↔ lands < t)) ∧
      (d.state = .clamping → d.holds ≠ [] → ∀ t, d.clampEnd = some t → (s.damped b = true ↔ lands < t + d.lift)) ∧
      (d.state = .clamping → d.holds = [] → s.damped b = true) ∧
      (d.state = .clamped → s.damped b = true)))

/-! ## The stage (spec/08) -/

/-- UP, PLAY, REST and DOWN in each stage but those that leave PLAYING, with the four checks of UP and PLAY in order; every reply
carries the stage and the chain target (R149, R150, R154, R156, R190). That a rail not fitted keeps its marks through a DOWN is
the model's choice, log entry 31. -/
def Obligations.StageRequestsFollowTheTable : Prop :=
  ∀ (w : When) (p : PortId) (s : State), s.ready p = true →
    let answer : Byte → Status → Stage → Option ChainTarget → State → Answer := fun kind st g target u =>
      .next (u.answering w p kind st (b1 g.code ++ b1 (targetCode target)))
    let same : Byte → Status → Answer := fun kind st => answer kind st s.stage.stage s.stage.target s
    let charging : ChainTarget → State := fun target => { s with
      rails := s.rails.mapWith (fun _ (r : Rail) => if r.fitted then { r with state := .charging, settleSince := none } else r)
      stage := { s.stage with
        stage := .charging
        target := some target
        chargeDue := some (max s.now w.time + s.stage.timeoutMs * 1000) } }
    let aimed : ChainTarget → State := fun target => { s with stage := { s.stage with target := some target } }
    let discharging : State := { s with
      rails := s.rails.mapWith (fun _ (r : Rail) => if r.fitted then
        { r with state := .off, settleSince := none, bled := false } else r)
      stage := { s.stage with
        stage := .discharging
        target := none
        chargeDue := none
        dischargeDue := some (max s.now w.time + 5000000) } }
    let fitted : Prop := ∃ r, (s.rail r).fitted = true
    (s.stage.stage = .discharging → exec (.up w p) s = same 0x41#8 .busy ∧ exec (.play w p) s = same 0x42#8 .busy) ∧
    (s.stage.stage = .guarded ∨ s.stage.stage = .fault →
      exec (.up w p) s = same 0x41#8 .stage ∧ exec (.play w p) s = same 0x42#8 .stage) ∧
    (s.stage.stage ≠ .discharging → s.stage.guardClosed = false →
      exec (.up w p) s = same 0x41#8 .stage ∧ exec (.play w p) s = same 0x42#8 .stage) ∧
    (s.stage.guardClosed = true →
      (s.stage.stage = .dormant → ¬ fitted →
        exec (.up w p) s = same 0x41#8 .state ∧ exec (.play w p) s = same 0x42#8 .state) ∧
      (s.stage.stage = .dormant → fitted →
        exec (.up w p) s = answer 0x41#8 .ok .charging (some .standby) (charging .standby) ∧
        exec (.play w p) s = answer 0x42#8 .ok .charging (some .playing) (charging .playing)) ∧
      (s.stage.stage = .charging →
        exec (.up w p) s = same 0x41#8 .ok ∧
        exec (.play w p) s = answer 0x42#8 .ok .charging (some .playing) (aimed .playing)) ∧
      (s.stage.stage = .standby →
        exec (.up w p) s = same 0x41#8 .ok ∧
        exec (.play w p) s = answer 0x42#8 .ok .playing s.stage.target { s with
          stage := { s.stage with stage := .playing }
          ports := s.ports.mapWith (fun _ (q : Port) => { q with pendingNotices := q.pendingNotices ||| 4#8 }) }) ∧
      (s.stage.stage = .playing → exec (.up w p) s = same 0x41#8 .ok ∧ exec (.play w p) s = same 0x42#8 .ok)) ∧
    (s.stage.stage = .charging → exec (.rest w p) s = answer 0x43#8 .ok .charging (some .standby) (aimed .standby)) ∧
    (s.stage.stage ≠ .charging → s.stage.stage ≠ .playing → exec (.rest w p) s = same 0x43#8 .ok) ∧
    (s.stage.stage = .dormant ∨ s.stage.stage = .discharging → exec (.down w p) s = same 0x44#8 .ok) ∧
    (s.stage.stage = .charging ∨ s.stage.stage = .standby ∨ s.stage.stage = .guarded ∨ s.stage.stage = .fault →
      exec (.down w p) s = answer 0x44#8 .ok .discharging none discharging)

/-- REST, DOWN, the opening of the guard and a rail FAULT leave PLAYING (R155, R159, R59, R41, R42, R104): every drive and hold is
cut into a full recovery, no entry stays RELEASED, WAITING entries stay, and every damper unit clears its holds and springs back.
A RELEASED entry leaves with DROPPED_STAGE; one whose stroke is cut leaves with CUT, a ROLL whole with the cut stroke counted as
missed, a PRESS whose window is open once the window closes. -/
def Obligations.LeavingPlayingStopsEverything : Prop :=
  ∀ (w : When) (p : PortId) (s : State), s.power.inReset = false → s.stage.stage = .playing →
    (s.entries.map (·.slot)).Nodup →
    let soon := max s.now w.time
    let echoes : State → State → Prop := fun t u => ∀ q, (t.port q).echo = (u.port q).echo ∧ (t.port q).lost = (u.port q).lost
    let outcome : State → Prop := fun t => ∀ e, s.entries = [e] →
      (e.state = .released → t.entries = [] ∧ echoes t (s.leave e.slot .droppedStage)) ∧
      (∀ n, e.state = .firing → (s.striker n).state = .drive ∨ (s.striker n).state = .hold →
        (s.striker n).playing = some e.slot →
        (∀ r, e.part = .roll r → t.entries = [] ∧
          echoes t (({ s with entries := [{ e with part := .roll { r with missed := r.missed + 1 } }] } : State).leave e.slot
            .wasCut)) ∧
        (e.part.isRoll = false → s.windowFor e.slot = false → t.entries = [] ∧ echoes t (s.leave e.slot .wasCut)) ∧
        (e.part.isRoll = false → s.windowFor e.slot = true → t.entries = [{ e with wasCut := true }] ∧ echoes t s)) ∧
      (e.state = .firing → (∀ n, (s.striker n).state = .drive ∨ (s.striker n).state = .hold →
        (s.striker n).playing ≠ some e.slot) → t.entries = [e] ∧ echoes t s)
    let left : Nat → Stage → State → Prop := fun now g t =>
      t.now = now ∧ t.stage.stage = g ∧ t.permission = false ∧ outcome t ∧
      (∀ n, t.striker n = if (s.striker n).state = .drive ∨ (s.striker n).state = .hold then
          { s.striker n with
            state := .recover, driveEnd := none, holdEnd := none, recoveryEnd := some (now + (s.striker n).recovery)
            playing := none }
        else s.striker n) ∧
      (∀ e ∈ t.entries, e.state ≠ .released) ∧ (∀ e ∈ s.entries, e.state = .waiting → e ∈ t.entries) ∧
      (∀ u, t.damper u = if (s.damper u).state = .lifting ∨ (s.damper u).state = .opened then
          { s.damper u with
            holds := [], state := .clamping, clampEnd := some (now + (s.damper u).clamp), liftEnd := none, openSince := none
            minPassed := false }
        else { s.damper u with holds := [] }) ∧
      t.mem = s.mem ∧ t.timeline = s.timeline ∧ t.voices = s.voices ∧ t.bars = s.bars ∧ t.shaper = s.shaper
    let announced : State → Prop := fun t => ∀ q, (t.port q).pendingNotices &&& 4#8 ≠ 0#8
    (s.ready p = true → ∃ t, exec (.rest w p) s = .next t ∧ left soon .standby t ∧ announced t ∧ t.rails = s.rails ∧
      (t.port p).replied 0x43#8 .ok (b1 2 ++ b1 (targetCode s.stage.target))) ∧
    (s.ready p = true → ∃ t, exec (.down w p) s = .next t ∧ left soon .discharging t ∧
      (t.port p).replied 0x44#8 .ok (b1 5 ++ [0xFF#8]) ∧ t.stage.dischargeDue = some (soon + 5000000) ∧
      ∀ r, (s.rail r).fitted = true → (t.rail r).state = .off ∧ (t.rail r).bled = false) ∧
    (s.stage.guardClosed = true → ∃ t, exec (.guardEdge w false) s = .next t ∧ left soon .guarded t ∧ announced t ∧
      t.rails = s.rails ∧ t.stage.guardClosed = false ∧ t.alert = true) ∧
    (∀ (c : Conversion) (r : RailId) (level : Half), s.sense.conv = some c → c.input = .rail r → s.sense.waiting = [] →
      s.decisions = [] → (s.rail r).state = .up ∨ (s.rail r).state = .low → (s.rail r).lowRun = 2 →
      2 * (level.toNat / 10) < (s.rail r).nominal →
      ∃ t, exec (.railConversionComplete w level) s = .next t ∧ left (max s.now (max c.done w.time)) .fault t ∧ announced t ∧
        t.stage = { s.stage with stage := .fault, target := none, chargeDue := none, cause := .railFault r } ∧ t.alert = true ∧
        t.rail r = { s.rail r with lastSample := some (level.toNat / 10), state := .fault, lowRun := 0 } ∧
        ∀ q, q ≠ r → t.rail q = if (s.rail q).fitted then
          { s.rail q with state := if (s.rail q).state = .fault then .fault else .off } else s.rail q)

/-- A guard edge outside PLAYING (R158): opening in STANDBY gives GUARDED and ALERT, closing in GUARDED gives STANDBY, each
with STAGE_CHANGE, and in DORMANT, CHARGING, DISCHARGING and FAULT the guard state alone changes. -/
def Obligations.GuardEdgesMoveTheStage : Prop :=
  ∀ (w : When) (s : State) (closed : Bool), s.power.inReset = false → s.stage.guardClosed ≠ closed →
    let seen : Stage → State := fun g => { s with
      now := max s.now w.time
      power := { s.power with guardHigh := closed }
      stage := { s.stage with guardClosed := closed, stage := g } }
    let announced : Stage → State := fun g => { seen g with
      ports := s.ports.mapWith (fun _ (q : Port) => { q with pendingNotices := q.pendingNotices ||| 4#8 }) }
    (s.stage.stage = .standby → closed = false → exec (.guardEdge w closed) s = .next (announced .guarded) ∧
      (announced .guarded).alert = true) ∧
    (s.stage.stage = .guarded → closed = true → exec (.guardEdge w closed) s = .next (announced .standby) ∧
      (announced .standby).alert = false) ∧
    (s.stage.stage = .dormant ∨ s.stage.stage = .charging ∨ s.stage.stage = .discharging ∨ s.stage.stage = .fault →
      exec (.guardEdge w closed) s = .next (seen s.stage.stage))

/-- The charge expiry takes the stage to FAULT, with the rails that have not settled in FAULT and the others OFF (R153, R159);
the discharge expiry completes the discharge, and so does the sample that sets the last fitted rail's bled mark (R157); a charge
completes at a rail sample into the chain target, or GUARDED with the guard open (R151, R152). Each announces itself with
STAGE_CHANGE. A sample that completes neither sets or clears its rail's settle since or bled mark alone (R151, R157). -/
def Obligations.ChargesAndDischargesEnd : Prop :=
  ∀ (w : When) (s : State) (due : Nat), s.power.inReset = false →
    let now := max s.now (max due w.time)
    let announced : Bank Port 4 :=
      s.ports.mapWith (fun _ (q : Port) => { q with pendingNotices := q.pendingNotices ||| 4#8 })
    let stood : Rail → Prop := fun r => ∃ t, r.settleSince = some t ∧ t + s.stage.settleMs * 1000 ≤ now
    (s.stage.stage = .charging → s.stage.chargeDue = some due → ∃ t, exec (.chargeExpiry w) s = .next t ∧
      t = { s with
        now := now
        ports := announced
        rails := t.rails
        stage := { s.stage with stage := .fault, target := none, chargeDue := none, cause := .chargeTimeout } } ∧
      ∀ r, ((s.rail r).fitted = false → t.rail r = s.rail r) ∧
        ((s.rail r).fitted = true → stood (s.rail r) → (s.rail r).state ≠ .fault →
          t.rail r = { s.rail r with state := .off }) ∧
        ((s.rail r).fitted = true → ¬ stood (s.rail r) → t.rail r = { s.rail r with state := .fault })) ∧
    (s.stage.stage = .discharging → s.stage.dischargeDue = some due → exec (.dischargeExpiry w) s = .next { s with
      now := now
      ports := announced
      stage := { s.stage with stage := .dormant, dischargeDue := none } }) ∧
    (∀ (c : Conversion) (r : RailId) (level : Half), s.sense.conv = some c → c.input = .rail r → c.done = due →
      s.sense.waiting = [] → s.decisions = [] → s.stage.stage = .charging → (s.rail r).fitted = true →
      (s.rail r).state = .charging → (s.rail r).nominal * 90 / 100 ≤ level.toNat / 10 →
      (∀ q, (s.rail q).fitted = true → stood (s.rail q)) →
      exec (.railConversionComplete w level) s = .next { s with
        now := now
        ports := announced
        sense := { s.sense with conv := none }
        rails := (s.rails.put r { s.rail r with lastSample := some (level.toNat / 10), lowRun := 0 }).mapWith
          (fun _ (x : Rail) => if x.fitted then { x with state := .up, settleSince := none } else x)
        stage := { s.stage with
          target := none
          chargeDue := none
          stage := if s.stage.guardClosed then
            (if s.stage.target = some ChainTarget.playing then Stage.playing else Stage.standby) else Stage.guarded } }) ∧
    (∀ (c : Conversion) (r : RailId) (level : Half), s.sense.conv = some c → c.input = .rail r → c.done = due →
      s.sense.waiting = [] → s.decisions = [] → (s.rail r).fitted = true →
      (s.rail r).state = .charging ∨ (s.rail r).state = .off →
      let sample := level.toNat / 10
      let sampled : State → Prop := fun t => exec (.railConversionComplete w level) s = .next { t with
        now := now, sense := { s.sense with conv := none } }
      let settling := s.rails.put r { s.rail r with
        lastSample := some sample
        lowRun := 0
        settleSince := if sample < (s.rail r).nominal * 90 / 100 then none else some ((s.rail r).settleSince.getD now) }
      let bleeding := s.rails.put r { s.rail r with lastSample := some sample, lowRun := 0, bled := sample < 200 }
      (s.stage.stage = .charging → (∃ q, (settling.look q).fitted = true ∧ ¬ stood (settling.look q)) →
        sampled { s with rails := settling }) ∧
      (s.stage.stage = .discharging → (∃ q, (bleeding.look q).fitted = true ∧ (bleeding.look q).bled = false) →
        sampled { s with rails := bleeding }) ∧
      (s.stage.stage = .discharging → (∀ q, (bleeding.look q).fitted = true → (bleeding.look q).bled = true) →
        sampled { s with
          rails := bleeding, ports := announced, stage := { s.stage with stage := .dormant, dischargeDue := none } }))

/-! ## Echo records, notices and status (spec/07, spec/09, spec/10) -/

/-- ECHO_READ removes and returns the oldest records, at most as many as it names, and leaves the lost mark (R144), each record in
the 21 bytes of R197; a count of 0 or above 8 is refused with RANGE. NOTICES returns the pending and the enable set and clears the
pending set; a queue at or above the watermark raises ECHO_LEVEL again at once (R172). -/
def Obligations.EchoRecordsAndNoticesAreRead : Prop :=
  [EntryOutcome.played, .merged, .rollDone, .chopped, .cancelled, .flushed, .passed, .noStriker, .droppedStage, .droppedLate,
    .droppedHot, .droppedSupply, .wasCut].map EntryOutcome.code = [0, 1, 2, 3, 4, 5, 6, 7, 8, 9, 10, 11, 12] ∧
  (∀ (w : When) (p : PortId) (s : State) (count : Byte), s.ready p = true →
    let n := min count.toNat (s.port p).echo.length
    let bit : Bool → Nat → Nat := fun b k => if b then 2 ^ k else 0
    let record : EchoRecord → List Byte := fun r =>
      b1 r.voice.1 ++ [r.tag] ++ b1 r.bar.1 ++ b1 r.kind ++ b4 r.due ++ b1 r.strength ++
        (match r.fire with | some f => b1 f.applied ++ b1 f.striker.1 | none => [0#8, 0xFF#8]) ++ b1 r.outcome.code ++
        (match r.fire with | some f => b2 f.offset ++ b2 f.pulse | none => [0xFF#8, 0xFF#8, 0#8, 0#8]) ++ o2 r.peak ++
        b1 (bit r.flags.derated 0 + bit r.flags.damped 1 + bit r.flags.silent 2 + bit r.flags.noListen 3 +
          bit r.flags.lost 4) ++
        (match r.counts with | some c => b1 c.1 ++ b1 c.2 | none => [0xFF#8, 0xFF#8])
    ((count = 0#8 ∨ 8 < count.toNat) → exec (.echoRead w p count) s = .next (s.answering w p 0x50#8 .range [])) ∧
    (count ≠ 0#8 → count.toNat ≤ 8 → exec (.echoRead w p count) s =
      .next (({ s with ports := s.ports.put p { s.port p with echo := (s.port p).echo.drop n } }).answering w p 0x50#8 .ok
        (b1 n ++ b1 ((s.port p).echo.length - n) ++ ((s.port p).echo.take n).flatMap record)))) ∧
  (∀ (w : When) (p : PortId) (s : State), s.ready p = true →
    let left : Byte := if (s.port p).watermark ≤ (s.port p).echo.length then 1#8 else 0#8
    exec (.notices w p) s =
      .next (({ s with ports := s.ports.put p { s.port p with pendingNotices := left } }).answering w p 0x51#8 .ok
        [(s.port p).pendingNotices, (s.port p).enables]) ∧
    ({ s.port p with pendingNotices := left } : Port).noticeLine = (left &&& (s.port p).enables != 0#8))

/-- PEEK returns bytes as they stand in every stage and changes nothing; a count of 0 or above 56 and a range past the end are
refused with RANGE (R113, R186). A status request is taken in every stage and timeline state, changes no state, and its reply
carries the wall count at the taking; a member named beyond its numbering is refused with RANGE, and no slot field can exceed 255
(R192). The contents of each are those that R193 and R194 list (R74, R82, R107, R128, R141, R160), in the widths, markings and
value codes of R195; the orders and the count before the windows are the model's choice, and so is the 0 µs remaining of a
recovery end already past in DRIVE or HOLD, log entry 21. -/
def Obligations.ReadingChangesNothing : Prop :=
  ((∀ n : Nat,
      let d : Nat → Byte := fun k => BitVec.ofNat 8 (n / 256 ^ k)
      b1 n = [d 0] ∧ b2 n = [d 0, d 1] ∧ b4 n = [d 0, d 1, d 2, d 3] ∧ o1 (some n) = b1 n ∧ o2 (some n) = b2 n ∧
        o4 (some n) = b4 n) ∧
    o1 none = [0xFF#8] ∧ o2 none = [0xFF#8, 0xFF#8] ∧ o4 none = [0xFF#8, 0xFF#8, 0xFF#8, 0xFF#8] ∧
    (∀ i : Int, -2147483648 ≤ i → i ≤ 2147483647 → bSigned i = b4 (if i < 0 then i + 4294967296 else i).toNat) ∧
    bBool false = [0#8] ∧ bBool true = [1#8] ∧
    (∀ f : EchoFlags, f.byte.toNat = (if f.derated then 1 else 0) + (if f.damped then 2 else 0) + (if f.silent then 4 else 0) +
      (if f.noListen then 8 else 0) + (if f.lost then 16 else 0)) ∧
    [Stage.dormant, .charging, .standby, .playing, .guarded, .discharging, .fault].map Stage.code = [0, 1, 2, 3, 4, 5, 6] ∧
    [none, some ChainTarget.standby, some .playing].map targetCode = [0xFF, 2, 3] ∧
    [TimelineState.stopped, .running, .held].map TimelineState.code = [0, 1, 2] ∧
    [StopReason.reset, .request, .rangeEnd].map StopReason.code = [0, 1, 2] ∧
    [VoiceState.closed, .opened].map VoiceState.code = [0, 1] ∧
    [EntryState.waiting, .released, .firing].map EntryState.code = [0, 1, 2] ∧
    [StrikerState.idle, .drive, .hold, .recover, .locked].map StrikerState.code = [0, 1, 2, 3, 4] ∧
    [RailState.off, .charging, .up, .low, .fault].map RailState.code = [0, 1, 2, 3, 4] ∧
    [DamperState.clamped, .lifting, .opened, .clamping].map DamperState.code = [0, 1, 2, 3] ∧
    [PlayerState.idle, .armed, .running, .stalled, .starved].map PlayerState.code = [0, 1, 2, 3, 4] ∧
    [EndReason.none, .ended, .located, .range].map EndReason.code = [0, 1, 2, 3] ∧
    FaultCause.none.code = 0 ∧ FaultCause.chargeTimeout.code = 1 ∧ (∀ r : RailId, (FaultCause.railFault r).code = 16 + r.1) ∧
    [InstrumentClass.marimba, .vibes, .perc].map InstrumentClass.code = [0, 1, 2] ∧ StrokePart.single.code = 0 ∧
    (∀ r, (StrokePart.roll r).code = 1) ∧ (∀ q, (StrokePart.press q).code = 2) ∧
    [PlayerMode.once, .loop, .stream].map PlayerMode.code = [0, 1, 2] ∧
    [UpdateMode.direct, .staged].map UpdateMode.code = [0, 1] ∧ [SourceMode.internal, .sync].map SourceMode.code = [0, 1]) ∧
  (∀ (w : When) (p : PortId) (s : State) (address : Half) (count : Byte), s.ready p = true →
    count = 0#8 ∨ 56 < count.toNat → exec (.peek w p address count) s = .next (s.answering w p 0x32#8 .range [])) ∧
  (∀ (w : When) (p : PortId) (s : State) (address : Half) (count : Byte), s.ready p = true →
    1 ≤ count.toNat → count.toNat ≤ 56 →
    (32767 < address.toNat + count.toNat - 1 →
      exec (.peek w p address count) s = .next (s.answering w p 0x32#8 .range [])) ∧
    (address.toNat + count.toNat - 1 ≤ 32767 → exec (.peek w p address count) s =
      .next (s.answering w p 0x32#8 .ok
        ((List.range count.toNat).map (fun i => memRead s.mem (address.toNat + i)))))) ∧
  (∀ (w : When) (p : PortId) (s : State), s.ready p = true →
    let now := max s.now w.time
    let reads : Instr → Byte → List Byte → Prop := fun c kind contents =>
      exec c s = .next (s.answering w p kind .ok (b4 (now % 4294967296) ++ contents))
    let remaining : Option Nat → List Byte := fun t => o4 (t.map (· - now))
    let since : Nat → Option Nat → List Byte := fun bound t => o4 (t.map (fun x => min bound (now - x)))
    let signed : Option Nat → List Byte := fun t => t.elim [] (fun x => bSigned ((x : Int) - now))
    let x := s.timeline
    let g := s.stage
    let times : ClassTimes → List Byte := fun c => b2 c.lead ++ b2 c.slip ++ b4 c.leadTicks
    reads (.timeStatus w p) 0x60#8
      (b1 x.state.code ++ b1 x.stopReason.code ++ b4 x.position ++ b4 (x.position % 240) ++ b1 x.beatInBar ++ b2 x.barNumber ++
        b1 x.beatsPerBar ++ o1 x.pendingMeter ++ b2 x.tempo ++ b4 x.period ++ o4 x.pendingPeriod ++
        (o2 (x.ramp.map (·.target)) ++ o2 (x.ramp.map (·.start)) ++ o1 (x.ramp.map (·.length)) ++ o1 (x.ramp.map (·.done))) ++
        b1 x.source.code ++ b4 x.lastInterval ++ oId x.conductor ++ since 4294967294 x.lastPulse ++ remaining x.lossDue ++
        times x.marimba ++ times x.vibes ++ times x.perc) ∧
    reads (.calendarStatus w p) 0x61#8
      (b2 s.entries.length ++
        ((List.finRange 4).flatMap (fun q => b2 (s.quotas.look q) ++
          b1 (s.entries.countP (fun e => e.voice ≠ chimeVoice && e.port = q)))) ++
        b1 (s.entries.countP (fun e => e.voice = chimeVoice)) ++ oId s.chimePort ++ b4 s.nextSeq) ∧
    (∀ k : SlotId,
      (s.entryAt k = none → reads (.entryStatus w p (BitVec.ofNat 8 k.1)) 0x62#8 [0#8]) ∧
      (∀ e, s.entryAt k = some e → reads (.entryStatus w p (BitVec.ofNat 8 k.1)) 0x62#8
        ([1#8] ++ b1 e.voice.1 ++ b1 e.port.1 ++ bBool e.report ++ b1 e.bar.1 ++ b4 e.due ++ b1 e.part.code ++ b1 e.strength ++
          o2 e.sustain ++ [e.tag] ++ b4 e.seq ++ b1 e.state.code ++
          (match e.part with
            | .single => []
            | .roll r => b1 r.count ++ b1 r.spacing ++ b4 r.firstDue ++ b1 r.played ++ b1 r.missed ++ bBool r.chopMark ++
                bBool r.flushMark
            | .press q => b2 q.holdMs ++ b1 q.duty) ++
          signed e.target ++ signed e.deadline ++
          (match e.fire with
            | none => []
            | some f => b1 f.striker.1 ++ b2 f.offset ++ b1 f.applied ++ b2 f.pulse ++ [e.flags.byte] ++ o2 e.peak)))) ∧
    (∀ v : VoiceId,
      let d := s.voice v
      let q := s.player v
      reads (.voiceStatus w p (BitVec.ofNat 8 v.1)) 0x63#8
        (b1 d.state.code ++ oId d.owner ++ b1 d.priority ++ b1 d.low ++ b1 d.high ++
          b1 (s.entries.countP (fun e => e.voice = v)) ++
          (b1 q.state.code ++ b1 q.mode.code ++ b1 q.loops ++ b1 q.passes ++ b4 q.start ++ b2 q.horizon ++
            (if q.mode = .stream then o2 (d.area.map (·.read)) else b2 q.nextAddress) ++ o4 q.nextDue ++ o2 q.returnPoint ++
            b2 q.refused ++ b1 q.endReason.code) ++
          (o2 (d.area.map (·.first)) ++ o2 (d.area.map (·.last)) ++ o2 (d.area.map (·.retained)) ++
            o2 (d.area.map (fun a => a.last + 1 - a.first - a.retained)) ++ o2 (d.area.map (·.read)) ++
            o2 (d.area.map (·.write))))) ∧
    (∀ b : BarId,
      let d := s.bar b
      reads (.barStatus w p (BitVec.ofNat 8 b.1)) 0x64#8
        (b1 d.cls.code ++ oId d.first ++ oId d.second ++ oId d.damper ++ oId d.pickup ++ b2 d.threshold)) ∧
    (∀ n : StrikerId,
      let k := s.striker n
      reads (.strikerStatus w p (BitVec.ofNat 8 n.1)) 0x65#8
        (oId k.bar ++ b1 k.state.code ++ b2 k.heat ++ b1 k.silentCount ++ bBool k.lockPending ++ bBool k.firedLast ++
          since 250001 k.lastFire ++ b4 k.recovery ++ b1 (k.minPulse / 10) ++ b2 (k.maxPulse / 10) ++ b1 k.table.1 ++
          b2 k.soft ++ b2 k.hard ++ b1 k.lockThreshold ++ remaining k.driveEnd ++ remaining k.holdEnd ++
          remaining k.recoveryEnd)) ∧
    (∀ r : RailId,
      let d := s.rail r
      reads (.railStatus w p (BitVec.ofNat 8 r.1)) 0x66#8
        (bBool d.fitted ++ b1 d.state.code ++ o2 d.lastSample ++ b1 d.recent.length ++ bBool d.spacingEnd.isSome ++
          b2 (s.entries.countP (fun e => e.state = .released && (s.bar e.bar).rail = some r)) ++ bBool d.fitted ++
          b2 d.spacing ++ b4 d.window ++ b1 d.count ++ b2 d.nominal ++ b1 d.floor ++ remaining d.spacingEnd ++
          b1 d.lowRun)) ∧
    (∀ c : TableId,
      reads (.curveStatus w p (BitVec.ofNat 8 c.1)) 0x67#8
        ((List.finRange 16).flatMap (fun k => b2 ((s.table c).live.look k)) ++
          (List.finRange 16).flatMap (fun k => b2 ((s.table c).staging.look k)) ++ bBool (s.table c).commitPending ++
          b1 s.shaper.mode.code)) ∧
    (∀ u : UnitId,
      let d := s.damper u
      reads (.damperStatus w p (BitVec.ofNat 8 u.1)) 0x68#8
        (b1 d.state.code ++ b2 d.lift ++ b2 d.clamp ++ b4 d.minOpen ++ remaining (d.liftEnd.or d.clampEnd) ++
          since 500001 d.openSince ++ b1 d.holds.length ++
          d.holds.flatMap (fun h => b1 h.voice.1 ++ oId h.bar ++ o4 h.endTick))) ∧
    (∀ k : Option PickupId,
      reads (.senseStatus w p (fieldOf k)) 0x69#8
        (b1 s.sense.windows.length ++
          s.sense.windows.flatMap (fun y => b1 y.pickup.1 ++ b1 y.slot.1 ++ b1 y.striker.1 ++ remaining (some y.closeTime) ++
            b2 y.samples ++ o2 y.peak) ++
          k.elim [] (fun i => b1 (s.sense.pickups.look i).gain ++ b4 (s.sense.pickups.look i).length))) ∧
    reads (.stageStatus w p) 0x6A#8
      (b1 g.stage.code ++ b1 (targetCode g.target) ++ bBool g.guardClosed ++ bBool (g.stage = .playing) ++
        bBool (g.stage = .guarded || g.stage = .fault) ++ b1 g.cause.code ++ b2 g.settleMs ++ b2 g.timeoutMs ++
        remaining (g.chargeDue.or g.dischargeDue) ++
        (List.finRange 6).flatMap (fun r => if (s.rail r).fitted then
          since 4294967294 (s.rail r).settleSince ++ bBool (s.rail r).bled else [])) ∧
    ∀ b : Byte,
      let refused : Instr → Byte → Prop := fun c kind => exec c s = .next (s.answering w p kind .range [])
      (16 ≤ b.toNat → refused (.voiceStatus w p b) 0x63#8) ∧ (128 ≤ b.toNat → refused (.barStatus w p b) 0x64#8) ∧
      (96 ≤ b.toNat → refused (.strikerStatus w p b) 0x65#8) ∧ (6 ≤ b.toNat → refused (.railStatus w p b) 0x66#8) ∧
      (8 ≤ b.toNat → refused (.curveStatus w p b) 0x67#8) ∧ (4 ≤ b.toNat → refused (.damperStatus w p b) 0x68#8) ∧
      (24 ≤ b.toNat → b ≠ 0xFF#8 → refused (.senseStatus w p b) 0x69#8))

/-! ## The timeline's events (spec/01) -/

/-- A tick expiry of the counter (R2, R4 to R7, R11, R20, R23, R80): the position advances, a pending period is adopted, and
at a beat boundary the ramp steps, SYNC_OUT is pulsed, and the beat or the bar advances; a bar line adopts the pending meter,
raises BAR_LINE and transfers the marked curve tables. The expiry that reaches the end of the tick range stops the timeline with
reason END, and ends a SYNC catch-up (R5, R13, R17). -/
def Obligations.TickExpiryAdvancesTheTimeline : Prop :=
  (∀ (w : When) (s : State) (due : Nat), s.power.inReset = false → s.timeline.state = .running →
    s.timeline.tickDue = some due → (s.timeline.source = .internal ∨ s.timeline.position % 240 ≠ 239) →
    s.timeline.position + 1 < 4294967295 →
    let x := s.timeline
    let now := max s.now (max ((due + 4) / 8) w.time)
    let beat : Prop := (x.position + 1) % 240 = 0
    ∃ t, exec (.tickExpiry w) s = .next t ∧ t.now = now ∧
      t.timeline.position = x.position + 1 ∧ t.timeline.state = .running ∧ t.timeline.pendingPeriod = none ∧
      t.timeline.tickDue = some (due + t.timeline.period) ∧ t.timeline.source = x.source ∧
      t.timeline.conductor = x.conductor ∧
      (∀ c, (t.timeline.times c).lead = (x.times c).lead ∧ (t.timeline.times c).slip = (x.times c).slip ∧
        (x.pendingPeriod ≠ none ∨ (beat ∧ x.ramp ≠ none) → (t.timeline.times c).leadTicks =
          ((x.times c).lead * 8 + t.timeline.period - 1) / t.timeline.period)) ∧
      (x.ramp = none ∨ ¬ beat → t.timeline.period = x.pendingPeriod.getD x.period ∧ t.timeline.tempo = x.tempo ∧
        t.timeline.ramp = x.ramp) ∧
      (∀ r, beat → x.ramp = some r →
        let c := ((r.start : Int) + (((r.target : Int) - r.start) * (r.done + 1 : Nat)).tdiv r.length).toNat
        t.timeline.tempo = c ∧ t.timeline.period = (2 * 200000000 + c) / (2 * c) ∧
        t.timeline.ramp = if r.length ≤ r.done + 1 then none else some { r with done := r.done + 1 }) ∧
      (¬ beat → t.timeline.beatInBar = x.beatInBar ∧ t.timeline.barNumber = x.barNumber ∧
        t.timeline.beatsPerBar = x.beatsPerBar ∧ t.timeline.pendingMeter = x.pendingMeter ∧
        t.timeline.syncOutEnd = x.syncOutEnd) ∧
      (beat → t.timeline.syncOutEnd = some (now + 1000)) ∧
      (beat → x.beatInBar + 1 < x.beatsPerBar → t.timeline.beatInBar = x.beatInBar + 1 ∧
        t.timeline.barNumber = x.barNumber ∧ t.timeline.beatsPerBar = x.beatsPerBar ∧
        t.timeline.pendingMeter = x.pendingMeter) ∧
      (beat → x.beatsPerBar ≤ x.beatInBar + 1 → t.timeline.beatInBar = 0 ∧
        t.timeline.barNumber = (x.barNumber + 1) % 65536 ∧ t.timeline.beatsPerBar = x.pendingMeter.getD x.beatsPerBar ∧
        t.timeline.pendingMeter = none ∧ (∀ q, (t.port q).pendingNotices &&& 2#8 ≠ 0#8) ∧
        ∀ c, t.table c = if (s.table c).commitPending then
          { s.table c with live := (s.table c).staging, commitPending := false } else s.table c) ∧
      t.mem = s.mem ∧ t.stage = s.stage ∧ t.quotas = s.quotas ∧ t.bars = s.bars) ∧
  (∀ (w : When) (s : State),
    let ends : Instr → Prop := fun c => ∃ t, exec c s = .next t ∧ t.timeline.position = 4294967295 ∧
      t.timeline.state = .stopped ∧ t.timeline.stopReason = .rangeEnd ∧ t.timeline.tickDue = none ∧
      t.timeline.lossDue = none ∧ t.timeline.lastPulse = none ∧ t.timeline.pendingPeriod = none ∧ ∀ u, (t.damper u).holds = []
    s.power.inReset = false → s.timeline.state = .running →
    (∀ due, s.timeline.tickDue = some due → s.timeline.position = 4294967294 → ends (.tickExpiry w)) ∧
    (s.timeline.source = .sync → 4294967280 ≤ s.timeline.position → s.timeline.position < 4294967295 →
      (∀ last, s.timeline.lastPulse = some last → 100000 ≤ max s.now w.time - last) → ends (.syncInPulse w)))

/-- SYNC mode (R16 to R20): the counter's expiry at the last tick of a beat gives HELD; a pulse is ignored in INTERNAL mode, in
STOPPED, and within 100,000 µs of the last; any other crosses to the next beat boundary at once, with the period measured from the
last pulse; loss of sync falls back to INTERNAL at the rate of the period in force, crosses, and raises SYNC_LOST. A SYNC_OUT
pulse ends by itself. That a period still pending is adopted at such a crossing is the model's reading, log entry 30. -/
def Obligations.SyncModeFollowsThePulses : Prop :=
  ∀ (w : When) (s : State), s.power.inReset = false →
    let x := s.timeline
    let now := max s.now w.time
    (∀ due, x.tickDue = some due → x.source = .sync → x.position % 240 = 239 →
      let then_ := max s.now (max ((due + 4) / 8) w.time)
      exec (.tickExpiry w) s = .next { s with
        now := then_
        timeline := { x with state := .held, tickDue := none, lossDue := some (then_ + 2 * x.lastInterval + 1) } }) ∧
    (x.source = .internal ∨ x.state = .stopped → exec (.syncInPulse w) s = .next { s with now := now }) ∧
    (∀ last, x.source = .sync → x.state ≠ .stopped → x.lastPulse = some last → now - last < 100000 →
      exec (.syncInPulse w) s = .next { s with now := now }) ∧
    (x.source = .sync → x.state ≠ .stopped → s.TimelineSound → (∀ last, x.lastPulse = some last → 100000 ≤ now - last) →
      x.position - x.position % 240 + 240 < 4294967295 →
      ∃ t, exec (.syncInPulse w) s = .next t ∧ t.timeline.position = x.position - x.position % 240 + 240 ∧
        t.timeline.state = .running ∧ t.timeline.source = .sync ∧ t.timeline.lastPulse = some now ∧
        t.timeline.lossDue = none ∧ t.timeline.syncOutEnd = some (now + 1000) ∧
        t.timeline.tickDue = some (now * 8 + t.timeline.period) ∧
        (∀ last, x.lastPulse = some last → t.timeline.lastInterval = min 4000000 (now - last) ∧
          t.timeline.period = max 6667 (min 100000 ((2 * (now - last) + 30) / 60))) ∧
        (x.lastPulse = none → t.timeline.lastInterval = x.lastInterval ∧
          t.timeline.period = x.pendingPeriod.getD x.period)) ∧
    (∀ due, x.lossDue = some due → x.state = .held → s.TimelineSound →
      x.position + 1 < 4294967295 →
      ∃ t, exec (.lossTimerExpiry w) s = .next t ∧ t.timeline.source = .internal ∧ t.timeline.state = .running ∧
        t.timeline.tempo = (2 * 200000000 + x.period) / (2 * x.period) ∧
        t.timeline.period = x.pendingPeriod.getD x.period ∧ t.timeline.pendingPeriod = none ∧
        t.timeline.lastPulse = none ∧ t.timeline.position = x.position + 1 ∧ t.timeline.lossDue = none ∧
        t.timeline.tickDue = some (max s.now (max due w.time) * 8 + t.timeline.period) ∧
        ∀ q, (t.port q).pendingNotices &&& 0x10#8 ≠ 0#8) ∧
    (∀ due, x.syncOutEnd = some due → exec (.syncOutPulseEnd w) s = .next { s with
      now := max s.now (max due w.time), timeline := { x with syncOutEnd := none } })

/-! ## Release, grant and the rails (spec/02, spec/03) -/

/-- A released stroke that reaches its target is granted where the stage is PLAYING and its rail is free (R38, R64, R65, R68,
R69, R71, R88): the striker drives for the pulse, gains its heat and recovers for its full recovery time, the rail counts the
fire, and the entry is FIRING with its fire details. Where the rail is not free nothing fires. -/
def Obligations.GrantFiresTheStriker : Prop :=
  ∀ (w : When) (s : State) (k : SlotId) (e : Entry) (target deadline : Nat) (n : StrikerId), s.power.inReset = false →
    s.decisions = [] → (s.entries.map (·.slot)).Nodup → s.entryAt k = some e → e.state = .released →
    e.targetReached = false → e.target = some target → e.deadline = some deadline →
    (s.bar e.bar).first = some n → (s.bar e.bar).second = none →
    let now := max s.now (max target w.time)
    let r := railOf n
    let reached : Entry → Entry := fun d => if d.slot = k then { d with targetReached := true } else d
    ((s.stage.stage ≠ .playing ∨ (s.rail r).state ≠ .up ∨ (s.rail r).spacingEnd ≠ none ∨
        (s.rail r).count ≤ (s.rail r).recent.length) →
      exec (.targetFireTimeReached w k) s = .next { s with now := now, entries := s.entries.map reached }) ∧
    (s.stage.stage = .playing → (s.rail r).state = .up → (s.rail r).spacingEnd = none →
      (s.rail r).recent.length < (s.rail r).count → s.members r = [e] → now ≤ deadline →
      (s.striker n).state = .idle → (s.striker n).heat < (s.striker n).hard → e.part.isRoll = false →
      let x := shape e.strength (s.striker n) (s.table (s.striker n).table).live (s.rail r)
      exec (.targetFireTimeReached w k) s = .next { s with
        now := now
        strikers := s.strikers.put n { s.striker n with
          state := .drive
          heat := (s.striker n).heat + x.pulse / 10
          lastFire := some now
          driveEnd := some (now + x.pulse)
          holdEnd := none
          recoveryEnd := some (now + (s.striker n).recovery)
          firedLast := true
          playing := some k }
        rails := s.rails.put r { s.rail r with
          recent := (s.rail r).recent ++ [now]
          spacingEnd := if (s.rail r).spacing = 0 then none else some (now + (s.rail r).spacing) }
        entries := s.entries.map (fun d => if d.slot = k then { d with
          targetReached := true
          state := .firing
          fire := some { striker := n, offset := now - target, applied := x.applied, pulse := x.pulse }
          flags := { d.flags with
            derated := d.flags.derated || x.derated
            damped := d.flags.damped || ({ s with now := now } : State).damped (s.bar e.bar) } } else d) })

/-- The competing set of a rail is the RELEASED entries on its bars (R52, R67). The stroke granted has the highest priority, then
the earliest target, then the earliest arrival (R69); the striker granted has, for a SINGLE or PRESS, the least heat, then the
fired-last mark clear, then the lower number, and for a ROLL the mark first (R70). A rail that its spacing end frees grants so,
among any number of members: the striker chosen fires, the bar's other striker loses its fired-last mark, and every other entry
stays (R64, R68, R71, R38). A member whose candidates are all hot leaves with DROPPED_HOT, or misses its stroke as a ROLL (R69,
R39, R44); the members of a bar that a lock leaves without a candidate leave with NO_STRIKER (R73). -/
def Obligations.ArbiterChoosesByTheKeys : Prop :=
  (∀ (s : State),
    (∀ (l : List Entry) (e : Entry), s.firstStroke l = some e → e ∈ l ∧ ∀ d ∈ l,
      let rank : Entry → Nat := fun x => (s.voice x.voice).priority
      rank d ≤ rank e ∧ (rank d = rank e → e.target.getD 0 ≤ d.target.getD 0 ∧
        (d.target.getD 0 = e.target.getD 0 → e.seq ≤ d.seq))) ∧
    (∀ l, s.firstStroke l = none → l = []) ∧
    (∀ (l : List StrikerId) (n : StrikerId),
      let heat : StrikerId → Nat := fun m => (s.striker m).heat
      let mark : StrikerId → Nat := fun m => if (s.striker m).firedLast then 1 else 0
      (s.chooseStriker false l = some n → n ∈ l ∧ ∀ m ∈ l, heat n ≤ heat m ∧
        (heat n = heat m → mark n ≤ mark m ∧ (mark n = mark m → n ≤ m))) ∧
      (s.chooseStriker true l = some n → n ∈ l ∧ ∀ m ∈ l, mark n ≤ mark m ∧
        (mark n = mark m → heat n ≤ heat m ∧ (heat n = heat m → n ≤ m)))) ∧
    (∀ roll l, s.chooseStriker roll l = none → l = []) ∧
    (∀ (r : RailId) (e : Entry), e ∈ s.members r ↔ e ∈ s.entries ∧ e.state = .released ∧
      ∃ n, (s.bar e.bar).strikers.head? = some n ∧ n.1 / 16 = r.1)) ∧
  (∀ (w : When) (s : State) (r : RailId) (due : Nat), s.power.inReset = false → s.decisions = [] → s.stage.stage = .playing →
    (s.entries.map (·.slot)).Nodup → (s.rail r).spacingEnd = some due → (s.rail r).state = .up →
    (s.rail r).recent.length < (s.rail r).count → 0 < (s.rail r).spacing →
    let now := max s.now (max due w.time)
    let eligible : Entry → Prop := fun d => d ∈ s.members r ∧ (∃ t, d.target = some t ∧ t ≤ now) ∧
      ∃ t, d.deadline = some t ∧ now ≤ t
    let candidate : Entry → StrikerId → Prop := fun d n => n ∈ (s.bar d.bar).strikers ∧ (s.striker n).state ≠ .locked
    let ready : Entry → StrikerId → Prop := fun d n => n ∈ (s.bar d.bar).strikers ∧ (s.striker n).state = .idle ∧
      (s.striker n).heat < (s.striker n).hard
    let hot : Entry → Prop := fun d => ∀ n, candidate d n → (s.striker n).hard ≤ (s.striker n).heat
    let rank : Entry → Nat := fun d => (s.voice d.voice).priority
    let first : Entry → Entry → Prop := fun d f => rank f < rank d ∨ (rank d = rank f ∧
      (d.target.getD 0 < f.target.getD 0 ∨ (d.target.getD 0 = f.target.getD 0 ∧ d.seq < f.seq)))
    let heat : StrikerId → Nat := fun m => (s.striker m).heat
    let mark : StrikerId → Nat := fun m => if (s.striker m).firedLast then 1 else 0
    (∀ (e : Entry) (n : StrikerId), eligible e → ready e n → railOf n = r → (∀ d, eligible d → ¬ hot d) →
      (∀ d, eligible d → (∃ m, ready d m) → d = e ∨ first e d) →
      (∀ m, ready e m → m = n ∨ (if e.part.isRoll then
        mark n < mark m ∨ (mark n = mark m ∧ (heat n < heat m ∨ (heat n = heat m ∧ n < m)))
      else heat n < heat m ∨ (heat n = heat m ∧ (mark n < mark m ∨ (mark n = mark m ∧ n < m))))) →
      let x := shape e.strength (s.striker n) (s.table (s.striker n).table).live (s.rail r)
      exec (.spacingEnd w r) s = .next { s with
        now := now
        strikers := s.strikers.mapWith (fun (m : StrikerId) (k : Striker) =>
          if m = n then { k with
            state := .drive
            heat := k.heat + x.pulse / 10
            lastFire := some now
            driveEnd := some (now + x.pulse)
            holdEnd := none
            recoveryEnd := some (now + k.recovery)
            firedLast := true
            playing := some e.slot }
          else if m ∈ (s.bar e.bar).strikers then { k with firedLast := false }
          else k)
        rails := s.rails.put r { s.rail r with
          recent := (s.rail r).recent ++ [now], spacingEnd := some (now + (s.rail r).spacing) }
        entries := s.entries.map (fun (d : Entry) => if d.slot = e.slot then { d with
          state := .firing
          fire := if d.part.isRoll then none else
            some { striker := n, offset := now - d.target.getD now, applied := x.applied, pulse := x.pulse }
          flags := { d.flags with
            derated := d.flags.derated || x.derated
            damped := d.flags.damped || ({ s with now := now } : State).damped (s.bar d.bar) } } else d) }) ∧
    (∀ e : Entry, s.members r = [e] → eligible e → hot e →
      let u : State := { s with now := now, rails := s.rails.put r { s.rail r with spacingEnd := none } }
      (e.part.isRoll = false → exec (.spacingEnd w r) s = .next (u.leave e.slot .droppedHot)) ∧
      (∀ x : RollPart, e.part = .roll x →
        let missed : Entry := { e with part := .roll { x with missed := x.missed + 1 } }
        (x.count ≤ x.played + (x.missed + 1) → exec (.spacingEnd w r) s =
          .next (({ u with entries := s.entries.map (fun d => if d.slot = e.slot then missed else d) } : State).leave e.slot
            .rollDone)) ∧
        (x.played + (x.missed + 1) < x.count → x.flushMark = false →
          s.timeline.position < (e.due + x.spacing) - (s.timeline.times (s.bar e.bar).cls).leadTicks →
          exec (.spacingEnd w r) s = .next { u with
            entries := placeEntry { missed with
              due := e.due + x.spacing, state := .waiting, target := none, deadline := none, targetReached := false }
                (s.entries.filter (fun d => d.slot ≠ e.slot)) })))) ∧
  (∀ (w : When) (s : State) (n : StrikerId) (b : BarId) (due : Nat), s.power.inReset = false → s.decisions = [] →
    (s.striker n).state = .recover → (s.striker n).recoveryEnd = some due → (s.striker n).lockPending = true →
    (s.striker n).bar = some b →
    let u : State := { s with
      now := max s.now (max due w.time)
      strikers := s.strikers.put n { s.striker n with state := .locked, lockPending := false, recoveryEnd := none }
      ports := s.ports.mapWith (fun _ (q : Port) => { q with pendingNotices := q.pendingNotices ||| 8#8 }) }
    ((∃ m ∈ (s.bar b).strikers, m ≠ n ∧ (s.striker m).state ≠ .locked) → exec (.recoveryEnd w n) s = .next u) ∧
    ((∀ m ∈ (s.bar b).strikers, m ≠ n → (s.striker m).state = .locked) →
      (∀ d e : Entry, s.entries.filter (fun x => x.state = .released && x.bar = b) = [d, e] → d.slot ≠ e.slot →
        exec (.recoveryEnd w n) s = .next ((u.leave d.slot .noStriker).leave e.slot .noStriker)) ∧
      (∀ e : Entry, s.entries.filter (fun x => x.state = .released && x.bar = b) = [e] →
        exec (.recoveryEnd w n) s = .next (u.leave e.slot .noStriker))))

/-- A deadline that passes in the competing set takes a SINGLE or PRESS out, with DROPPED_SUPPLY on a LOW rail and
DROPPED_LATE otherwise, and a ROLL misses its stroke (R72, R39, R44); a spacing end and a window slot freeing free the rail
(R64). -/
def Obligations.DeadlinesAndRailTimersTakeEffect : Prop :=
  ∀ (w : When) (s : State), s.power.inReset = false → s.decisions = [] →
    (∀ (k : SlotId) (e : Entry) (deadline : Nat) (n : StrikerId), s.entryAt k = some e → e.state = .released →
      e.deadline = some deadline → (s.bar e.bar).first = some n → (s.entries.map (·.slot)).Nodup →
      let u : State := { s with now := max s.now (max (deadline + 1) w.time) }
      (e.part.isRoll = false → exec (.deadlineExpiry w k) s =
        .next (u.leave k (if (s.rail (railOf n)).state = .low then .droppedSupply else .droppedLate))) ∧
      (∀ r : RollPart, e.part = .roll r →
        let missed : Entry := { e with part := .roll { r with missed := r.missed + 1 } }
        (r.count ≤ r.played + (r.missed + 1) → exec (.deadlineExpiry w k) s =
          .next (({ u with entries := s.entries.map (fun d => if d.slot = k then missed else d) } : State).leave k
            .rollDone)) ∧
        (r.played + (r.missed + 1) < r.count → r.flushMark = false →
          s.timeline.position < (e.due + r.spacing) - (s.timeline.times (s.bar e.bar).cls).leadTicks →
          exec (.deadlineExpiry w k) s = .next { u with
            entries := placeEntry { missed with
              due := e.due + r.spacing, state := .waiting, target := none, deadline := none, targetReached := false }
                (s.entries.filter (fun d => d.slot ≠ k)) }))) ∧
    (∀ (r : RailId) (due : Nat), s.members r = [] →
      let now := max s.now (max due w.time)
      ((s.rail r).spacingEnd = some due → exec (.spacingEnd w r) s = .next { s with
        now := now, rails := s.rails.put r { s.rail r with spacingEnd := none } }) ∧
      (∀ fired rest, (s.rail r).recent = fired :: rest → due = fired + (s.rail r).window →
        exec (.windowSlotFreeing w r) s = .next { s with
          now := now, rails := s.rails.put r { s.rail r with recent := rest } }))

/-- An entry that leaves frees its slot, and its record is offered once to its reporting port where the report mark is set
(R49, R142). That the record of an entry without a window carries NO_LISTEN is the model's reading, log entry 7. The players that
its leaving concerns, STALLED, are told (R30, R121); that each resumes by a command of its own, and is STALLED until then, is the
model's choice, log entry 16. An echo queue takes an offered record while
it holds fewer than 128, with LOST where the lost mark was set, and clears the mark; a full queue discards it and sets the
mark (R143). An acceptance at or above the watermark raises ECHO_LEVEL (R145). -/
def Obligations.LeavingEntriesReachTheEchoQueue : Prop :=
  (∀ (s : State) (k : SlotId) (e : Entry) (o : EntryOutcome), s.entryAt k = some e →
    let t := s.leave k o
    let isRoll := e.part.isRoll
    let record : EchoRecord := {
      voice := e.voice, tag := e.tag, bar := e.bar, kind := e.part.code, strength := e.strength
      due := match e.part with | .roll r => r.firstDue | _ => e.due
      fire := if isRoll then none else e.fire
      outcome := o
      flags := { e.flags with noListen := e.flags.noListen || isRoll || !e.listened, lost := false }
      peak := e.peak
      counts := match e.part with | .roll r => some (r.played, r.missed) | _ => none }
    t.entries = s.entries.filter (fun d => d.slot ≠ k) ∧
    (e.report = true → t.port e.port = (s.port e.port).offer record) ∧ (e.report = false → t.port e.port = s.port e.port) ∧
    (∀ q, q ≠ e.port → t.port q = s.port q) ∧
    (∀ v, t.player v = if (s.player v).state = .stalled ∧
        (if e.voice = chimeVoice then v = chimeVoice else v ≠ chimeVoice ∧ (s.voice v).owner = some e.port) then
      { s.player v with told := true } else s.player v) ∧
    t = { s with entries := t.entries, ports := t.ports, players := t.players }) ∧
  (∀ (q : Port) (r : EchoRecord),
    (q.echo.length < 128 → q.offer r = { q with
      echo := q.echo ++ [{ r with flags := { r.flags with lost := q.lost } }]
      lost := false
      pendingNotices := if q.watermark ≤ q.echo.length + 1 then q.pendingNotices ||| 1#8 else q.pendingNotices }) ∧
    (128 ≤ q.echo.length → q.offer r = { q with lost := true }))

/-! ## Strikers (spec/03, spec/04) -/

/-- The drive end (R56, R40, R43, R137, R140). A SINGLE with no window leaves with PLAYED and NO_LISTEN; a PRESS holds for its
hold time, unless its striker is hot and the hold ends at once with DERATED (R57); a window opens on the bar's pickup, but where
eight are open. A window open there already closes early: it is judged at once, or at the end of its conversion in progress, its
waiting sample being discarded; that it stands apart from the open windows until that conversion completes is the model's reading,
log entry 14. A roll counts its stroke, and is done, leaves with FLUSHED where it is marked, or returns to WAITING. -/
def Obligations.DriveEndsTakeEffect : Prop :=
  (∀ (s : State) (k : SlotId), s.windowFor k = true ↔
    (∃ x ∈ s.sense.windows, x.slot = k) ∨ ∃ x, s.sense.closing = some x ∧ x.slot = k) ∧
  ∀ (w : When) (s : State) (n : StrikerId) (k : SlotId) (e : Entry) (due recovered fired : Nat), s.power.inReset = false →
    s.decisions = [] → (s.striker n).state = .drive → (s.striker n).driveEnd = some due → (s.striker n).playing = some k →
    (s.striker n).recoveryEnd = some recovered → (s.striker n).lastFire = some fired → s.entryAt k = some e →
    (s.entries.map (·.slot)).Nodup →
    let now := max s.now (max due w.time)
    let hot : Prop := (s.striker n).hard ≤ (s.striker n).heat
    let recovering : State := { s with
      now := now
      strikers := s.strikers.put n { s.striker n with state := .recover, driveEnd := none, holdEnd := none, playing := none } }
    let holding : PressPart → State := fun q => { s with
      now := now
      strikers := s.strikers.put n { s.striker n with
        state := .hold, driveEnd := none, holdEnd := some (now + q.holdMs * 1000) } }
    let flagged : (Entry → Entry) → State → State := fun f t => { t with
      entries := s.entries.map (fun d => if d.slot = k then f d else d) }
    let unheard : Entry → Entry := fun d => { d with flags := { d.flags with noListen := true } }
    let heard : Entry → Entry := fun d => { d with listened := true }
    let derated : Entry → Entry := fun d => { d with flags := { d.flags with derated := true } }
    let window : PickupId → Window := fun q => {
      pickup := q, slot := k, striker := n, closeTime := fired + (s.sense.pickups.look q).length, nextSample := now + 250
      samples := 0, peak := none }
    let opened : PickupId → State → State := fun q t => { t with sense := { s.sense with
      windows := s.sense.windows ++ [window q]
      conv := some { input := .pickup q, came := now, done := now + 10, gain := (s.sense.pickups.look q).gain } } }
    let gives : State → Prop := fun t => exec (.driveEnd w n) s = .next t
    now < recovered →
    ((s.bar e.bar).pickup = none →
      (e.part = .single → gives ((flagged unheard recovering).leave k .played)) ∧
      (∀ q, e.part = .press q → ¬ hot → gives (flagged unheard (holding q))) ∧
      (∀ q, e.part = .press q → hot → s.windowFor k = false →
        gives ((flagged (fun d => derated (unheard d)) recovering).leave k .played))) ∧
    (∀ q, (s.bar e.bar).pickup = some q → (∀ x ∈ s.sense.windows, x.pickup ≠ q) →
      (s.sense.windows.length < 8 → s.sense.conv = none →
        (e.part = .single → gives (opened q (flagged heard recovering))) ∧
        (∀ x, e.part = .press x → ¬ hot → gives (opened q (flagged heard (holding x)))) ∧
        (∀ x, e.part = .press x → hot → gives (opened q (flagged (fun d => derated (heard d)) recovering)))) ∧
      (8 ≤ s.sense.windows.length → e.part = .single → gives ((flagged unheard recovering).leave k .played))) ∧
    (∀ (q : PickupId) (old : Window), (s.bar e.bar).pickup = some q → e.part = .single → s.sense.windows = [old] →
      old.pickup = q → old.slot ≠ k → s.sense.closing = none →
      (∀ c, s.sense.conv = some c → c.input = .pickup q → gives { flagged heard recovering with
        sense := { s.sense with
          windows := [window q]
          closing := some old
          waiting := s.sense.waiting.filter (fun x => x.input ≠ .pickup q) ++ [{ input := .pickup q, came := now }] } }) ∧
      (∀ d, s.sense.conv = none → s.sense.waiting = [] → s.entryAt old.slot = some d → d.wasCut = false →
        old.striker ≠ n → (s.striker old.striker).playing ≠ some old.slot →
        let judged : (Entry → Entry) → Striker → Prop := fun f x =>
          let t := State.leave old.slot .played { recovering with
            strikers := recovering.strikers.put old.striker x
            entries := s.entries.map (fun d => if d.slot = old.slot then f d else d) }
          gives { t with
            entries := t.entries.map (fun d => if d.slot = k then heard d else d)
            sense := { s.sense with
              windows := [window q]
              conv := some { input := .pickup q, came := now, done := now + 10, gain := (s.sense.pickups.look q).gain } } }
        (old.peak = none → judged unheard (s.striker old.striker)) ∧
        (∀ peak, old.peak = some peak → (s.bar d.bar).threshold ≤ peak →
          judged (fun d => { d with peak := some peak, flags := { d.flags with silent := false } })
            { s.striker old.striker with silentCount := 0 }) ∧
        (∀ peak, old.peak = some peak → peak < (s.bar d.bar).threshold → (s.striker old.striker).lockThreshold = 0 →
          judged (fun d => { d with peak := some peak, flags := { d.flags with silent := true } })
            { s.striker old.striker with silentCount := min 255 ((s.striker old.striker).silentCount + 1) }))) ∧
    (∀ r : RollPart, e.part = .roll r →
      let played : Entry := { e with part := .roll { r with played := r.played + 1 } }
      (r.count ≤ r.played + 1 + r.missed → gives ((flagged (fun _ => played) recovering).leave k .rollDone)) ∧
      (r.played + 1 + r.missed < r.count → r.flushMark = true →
        gives ((flagged (fun _ => played) recovering).leave k .flushed)) ∧
      (r.played + 1 + r.missed < r.count → r.flushMark = false →
        s.timeline.position < (e.due + r.spacing) - (s.timeline.times (s.bar e.bar).cls).leadTicks →
        gives { recovering with
          entries := placeEntry { played with
            due := e.due + r.spacing, state := .waiting, target := none, deadline := none, targetReached := false }
              (s.entries.filter (fun d => d.slot ≠ k)) }))

/-- The hold end and the recovery end (R57, R58, R40) and UNLOCK (R61): a PRESS with no window left leaves with PLAYED; a
striker ends its recovery in IDLE, or in LOCKED with STRIKER_LOCKED where a lock is pending; UNLOCK returns a LOCKED striker
to IDLE and clears the silent count and a pending lock of any other. Its reply carries the state before and after, before any
decision of the arbiter, which is the model's choice, log entry 20. -/
def Obligations.HoldsRecoveriesAndLocksEnd : Prop :=
  ∀ (w : When) (s : State) (n : StrikerId), s.power.inReset = false → s.decisions = [] →
    let put : Striker → State := fun k => { s with strikers := s.strikers.put n k }
    (∀ due k recovered, (s.striker n).state = .hold → (s.striker n).holdEnd = some due → (s.striker n).playing = some k →
      (s.striker n).recoveryEnd = some recovered →
      let now := max s.now (max due w.time)
      now < recovered →
      let u : State := { put { s.striker n with state := .recover, driveEnd := none, holdEnd := none, playing := none } with
        now := now }
      (s.windowFor k = false → exec (.holdEnd w n) s = .next (u.leave k .played)) ∧
      (s.windowFor k = true → exec (.holdEnd w n) s = .next u)) ∧
    (∀ due, (s.striker n).state = .recover → (s.striker n).recoveryEnd = some due →
      let now := max s.now (max due w.time)
      ((s.striker n).lockPending = false → s.members (railOf n) = [] → exec (.recoveryEnd w n) s =
        .next { put { s.striker n with state := .idle, recoveryEnd := none } with now := now }) ∧
      ((s.striker n).lockPending = true → (∀ e ∈ s.entries, e.state ≠ .released) → exec (.recoveryEnd w n) s =
        .next { put { s.striker n with state := .locked, lockPending := false, recoveryEnd := none } with
          now := now
          ports := s.ports.mapWith (fun _ (q : Port) => { q with pendingNotices := q.pendingNotices ||| 8#8 }) })) ∧
    (∀ p, s.ready p = true →
      ((s.striker n).state = .locked → s.members (railOf n) = [] →
        exec (.unlock w p (BitVec.ofNat 8 n.1)) s =
          .next ((put { s.striker n with state := .idle, silentCount := 0, lockPending := false }).answering w p 0x28#8 .ok
            [4#8, 0#8])) ∧
      ((s.striker n).state ≠ .locked →
        exec (.unlock w p (BitVec.ofNat 8 n.1)) s =
          .next ((put { s.striker n with silentCount := 0, lockPending := false }).answering w p 0x28#8 .ok
            (b1 (s.striker n).state.code ++ b1 (s.striker n).state.code))))

/-- A cooling step reaches every striker in every state (R89, R92, R57): one in HOLD first adds its hold heat, held at Hh, and
each then loses the larger of 1 and H div 64. Where no hold overheats nothing else changes; a hold that overheats ends. -/
def Obligations.CoolingReachesEveryStriker : Prop :=
  ∀ (w : When) (s : State), s.power.inReset = false → s.decisions = [] →
    let now := max s.now (max s.shaper.coolDue w.time)
    let cool : Nat → Nat := fun h => if h = 0 then 0 else h - max 1 (h / 64)
    let added : StrikerId → Nat := fun n => ((s.dutyOf n).map (fun d => d * 25000 / 2560)).getD 0
    ((∀ n, s.dutyOf n ≠ none → (s.striker n).heat + added n < (s.striker n).hard) →
      exec (.coolingStep w) s = .next { s with
        now := now
        shaper := { s.shaper with coolDue := s.shaper.coolDue + 25000 }
        strikers := s.strikers.mapWith (fun (n : StrikerId) (k : Striker) => { k with heat := cool (k.heat + added n) }) }) ∧
    (∀ (n : StrikerId) (k : SlotId) (e : Entry) (q : PressPart) (recovered : Nat), s.entries = [e] → e.slot = k →
      e.part = .press q → (s.striker n).state = .hold → (s.striker n).playing = some k →
      (s.striker n).recoveryEnd = some recovered → now < recovered →
      (∀ m, m ≠ n → (s.striker m).playing ≠ some k) → (s.striker n).hard ≤ (s.striker n).heat + q.duty * 25000 / 2560 →
      s.windowFor k = true →
      ∃ t, exec (.coolingStep w) s = .next t ∧
        t.striker n = { s.striker n with
          state := .recover, driveEnd := none, holdEnd := none, playing := none, heat := cool (s.striker n).hard } ∧
        t.entries = [{ e with flags := { e.flags with derated := true } }])

/-! ## The sense unit (spec/07) -/

/-- The pacer's firing takes the next fitted rail (R133), a conversion delivers its figure (R134, R138), a window's samples
come due every 250 µs (R138), and the converter takes 10 µs at the gain in force at its start (R131, R132). That a pickup's input
comes in eighths of a gain-1 count, its product with the gain floored, is the model's choice, log entry 8. -/
def Obligations.ConversionsTakeEffect : Prop :=
  ∀ (w : When) (s : State), s.power.inReset = false → s.decisions = [] →
    let x := s.sense
    let paced := max s.now (max x.scanDue w.time)
    (∀ r : RailId, (s.rail r).fitted = true →
      (∀ i : RailId, i < r - x.nextRail → (s.rail (x.nextRail + i)).fitted = false) → x.conv = none →
      exec (.scanPacerFiring w) s = .next { s with
        now := paced
        sense := { x with
          scanDue := x.scanDue + 250
          nextRail := r + 1
          conv := some { input := .rail r, came := paced, done := paced + 10, gain := 1 } } }) ∧
    ((∀ r, (s.rail r).fitted = false) → exec (.scanPacerFiring w) s = .next { s with
      now := paced, sense := { x with scanDue := x.scanDue + 250 } }) ∧
    (∀ (c : Conversion) (r : RailId) (level : Half), x.conv = some c → c.input = .rail r → x.waiting = [] →
      s.stage.stage ≠ .charging → s.stage.stage ≠ .discharging → (s.rail r).state ≠ .low →
      let after := (s.rail r).sampled (level.toNat / 10)
      after.state ≠ .fault ∨ (s.rail r).state = .fault →
      exec (.railConversionComplete w level) s = .next { s with
        now := max s.now (max c.done w.time)
        sense := { x with conv := none }
        rails := s.rails.put r after }) ∧
    (∀ (k : PickupId) (window : Window), x.windows = [window] → window.pickup = k →
      window.nextSample < window.closeTime → x.conv = none →
      let now := max s.now (max window.nextSample w.time)
      exec (.windowSampleDue w k) s = .next { s with
        now := now
        sense := { x with
          windows := [{ window with nextSample := window.nextSample + 250 }]
          conv := some { input := .pickup k, came := now, done := now + 10, gain := (x.pickups.look k).gain } } }) ∧
    (∀ (c : Conversion) (k : PickupId) (window : Window) (input : Int), x.conv = some c → c.input = .pickup k →
      x.waiting = [] → x.closing = none → x.windows = [window] → window.pickup = k →
      max s.now (max c.done w.time) < window.closeTime →
      let figure := max (-32768) (min 32767 (input * c.gain / 8))
      let size := if figure = -32768 then 32767 else figure.natAbs
      exec (.pickupConversionComplete w input) s = .next { s with
        now := max s.now (max c.done w.time)
        sense := { x with
          conv := none
          windows := [{ window with
            samples := window.samples + 1, peak := some (max (window.peak.getD 0) size) }] } })

/-- A window's close (R139, R60, R40, R41): a peak at or above the bar's threshold is a sounded verdict and clears the silent
count, one below is SILENT and raises it; a count that reaches a lock threshold other than 0 locks an IDLE striker, leaves a
LOCKED one, and pends for any other. A window without a peak gives no verdict, and its stroke carries NO_LISTEN. The stroke leaves
with PLAYED, or with CUT where its hold was cut; a PRESS still held stays with what its window found. A window closed early
while its sample was being converted is judged when that conversion completes, with the sample, and the new window's first sample
starts to be converted then (R140, R131); that the bar's threshold is the one it has then is the model's reading, log entry 14; the
pickup's input is as log entry 8 has it. -/
def Obligations.WindowsAreJudgedAtTheirClose : Prop :=
  (∀ (w : When) (s : State) (old : Window) (e : Entry) (c : Conversion) (x : Waiting) (input : Int), s.power.inReset = false →
    s.decisions = [] → s.sense.closing = some old → s.sense.conv = some c → c.input = .pickup old.pickup →
    s.sense.waiting = [x] → x.input = .pickup old.pickup → s.entryAt old.slot = some e → e.wasCut = false →
    (s.striker old.striker).playing ≠ some old.slot →
    let now := max s.now (max c.done w.time)
    let figure := max (-32768) (min 32767 (input * c.gain / 8))
    let size := if figure = -32768 then 32767 else figure.natAbs
    let peak := max (old.peak.getD 0) size
    let k := s.striker old.striker
    let judged : Bool → Striker → Prop := fun silent k => exec (.pickupConversionComplete w input) s =
      .next (({ s with
        now := now
        sense := { s.sense with
          conv := some { input := x.input, came := x.came, done := now + 10, gain := (s.sense.pickups.look old.pickup).gain }
          waiting := []
          closing := none }
        strikers := s.strikers.put old.striker k
        entries := s.entries.map (fun d => if d.slot = old.slot then
          { d with peak := some peak, flags := { d.flags with silent := silent } } else d) } : State).leave old.slot .played)
    ((s.bar e.bar).threshold ≤ peak → judged false { k with silentCount := 0 }) ∧
    (peak < (s.bar e.bar).threshold → k.lockThreshold = 0 →
      judged true { k with silentCount := min 255 (k.silentCount + 1) })) ∧
  ∀ (w : When) (s : State) (window : Window) (e : Entry), s.power.inReset = false → s.decisions = [] →
    s.sense.windows = [window] → s.sense.conv = none → s.sense.waiting = [] → s.entryAt window.slot = some e →
    (s.entries.map (·.slot)).Nodup → e.state = .firing →
    let n := window.striker
    let k := s.striker n
    let count := min 255 (k.silentCount + 1)
    let u : (Entry → Entry) → Striker → Bank Port 4 → State := fun f k ports => { s with
      now := max s.now (max window.closeTime w.time)
      sense := { s.sense with windows := [] }
      strikers := s.strikers.put n k
      ports := ports
      entries := s.entries.map (fun d => if d.slot = window.slot then f d else d) }
    let closed : State → Prop := fun t => exec (.windowClose w window.pickup) s = .next
      (if e.wasCut then t.leave window.slot .wasCut
       else if k.playing = some window.slot then t
       else t.leave window.slot .played)
    let found : Nat → Bool → Entry → Entry := fun peak silent d =>
      { d with peak := some peak, flags := { d.flags with silent := silent } }
    (window.peak = none →
      closed (u (fun d => { d with flags := { d.flags with noListen := true } }) k s.ports)) ∧
    (∀ peak, window.peak = some peak → (s.bar e.bar).threshold ≤ peak →
      closed (u (found peak false) { k with silentCount := 0 } s.ports)) ∧
    (∀ peak, window.peak = some peak → peak < (s.bar e.bar).threshold →
      let silent : Striker → Bank Port 4 → State := u (found peak true)
      let locks : Prop := k.lockThreshold ≠ 0 ∧ k.lockThreshold ≤ count
      (¬ locks ∨ k.state = .locked → closed (silent { k with silentCount := count } s.ports)) ∧
      (locks → k.state = .drive ∨ k.state = .hold ∨ k.state = .recover →
        closed (silent { k with silentCount := count, lockPending := true } s.ports)) ∧
      (locks → k.state = .idle → (∀ d ∈ s.entries, d.state ≠ .released) →
        closed (silent { k with silentCount := count, state := .locked, lockPending := false, recoveryEnd := none }
          (s.ports.mapWith (fun _ (q : Port) => { q with pendingNotices := q.pendingNotices ||| 8#8 })))))

/-- A rail's state and low-run count after a sample (R135, R136): UP falls LOW below the floor, LOW rises at the floor plus 5,
three samples in a row below half of the nominal give FAULT, and other states keep theirs with the count 0. A return from LOW to
UP is an event for the rail's arbiter, which grants then (R68, R135); a rail's FAULT takes STANDBY and GUARDED to FAULT, with the
rail as the cause, the other fitted rails OFF, ALERT, and STAGE_CHANGE on every port (R136, R159; from PLAYING as
LeavingPlayingStopsEverything says). -/
def Obligations.RailSamplesDecideTheState : Prop :=
  (∀ (r : Rail) (sample : Nat), r.lowRun < 3 →
    let floor := r.nominal * r.floor / 100
    let run := if 2 * sample < r.nominal then r.lowRun + 1 else 0
    let after : RailState → Nat → Rail := fun st n => { r with lastSample := some sample, state := st, lowRun := n }
    (r.state = .off ∨ r.state = .charging ∨ r.state = .fault → r.sampled sample = after r.state 0) ∧
    (r.state = .up ∨ r.state = .low → run = 3 → r.sampled sample = after .fault 0) ∧
    (r.state = .up → run < 3 → sample < floor → r.sampled sample = after .low run) ∧
    (r.state = .up → run < 3 → floor ≤ sample → r.sampled sample = after .up run) ∧
    (r.state = .low → run < 3 → sample < floor + 5 → r.sampled sample = after .low run) ∧
    (r.state = .low → run < 3 → floor + 5 ≤ sample → r.sampled sample = after .up run)) ∧
  (∀ (w : When) (s : State) (c : Conversion) (r : RailId) (level : Half), s.power.inReset = false → s.decisions = [] →
    s.sense.conv = some c → c.input = .rail r → s.sense.waiting = [] →
    let now := max s.now (max c.done w.time)
    let after := (s.rail r).sampled (level.toNat / 10)
    let sampled : State := { s with
      now := now, sense := { s.sense with conv := none }, rails := s.rails.put r after }
    (s.stage.stage ≠ .charging → s.stage.stage ≠ .discharging → (s.rail r).state = .low →
      (after.state = .low → exec (.railConversionComplete w level) s = .next sampled) ∧
      (after.state = .up → s.members r = [] → exec (.railConversionComplete w level) s = .next sampled) ∧
      (∀ (e : Entry) (n : StrikerId) (target deadline : Nat), after.state = .up → s.stage.stage = .playing →
        (s.entries.map (·.slot)).Nodup → (s.rail r).spacingEnd = none → (s.rail r).recent.length < (s.rail r).count →
        s.members r = [e] → e.target = some target → target ≤ now → e.deadline = some deadline → now ≤ deadline →
        (s.bar e.bar).first = some n → (s.bar e.bar).second = none → (s.striker n).state = .idle →
        (s.striker n).heat < (s.striker n).hard →
        ∃ t, exec (.railConversionComplete w level) s = .next t ∧ (t.rail r).state = .up ∧
          (t.rail r).recent = (s.rail r).recent ++ [now] ∧ (t.striker n).state = .drive ∧
          (t.striker n).lastFire = some now ∧ (t.striker n).playing = some e.slot ∧
          t.entries.map (fun d => (d.slot, d.state)) =
            s.entries.map (fun d => (d.slot, if d.slot = e.slot then EntryState.firing else d.state)))) ∧
    ((s.rail r).state = .up ∨ (s.rail r).state = .low → after.state = .fault →
      s.stage.stage = .standby ∨ s.stage.stage = .guarded →
      exec (.railConversionComplete w level) s = .next { sampled with
        ports := s.ports.mapWith (fun _ (q : Port) => { q with pendingNotices := q.pendingNotices ||| 4#8 })
        rails := sampled.rails.mapWith (fun _ (x : Rail) =>
          if x.fitted then { x with state := if x.state = .fault then .fault else .off } else x)
        stage := { s.stage with stage := .fault, target := none, chargeDue := none, cause := .railFault r } }))

/-! ## Stroke energy (spec/04) -/

/-- The heat derate (R84): the strength applied is the strength at or below Hs, is never more than it, and stays above half of
it and at least 1 below Hh; DERATED is set exactly where it is less. The curve stage (R85): the width read between the table's
points, exact at multiples of 17, and between p[0] and p[15]. The supply stage multiplies by nominal over sample, rounded
halves up (R86); the quantize and clamp stage gives a multiple of 10 µs within the striker's limits (R87). The pulse handed back is
these stages in order, of the striker, the live points and the rail as they stand (R83), so it is a multiple of 10 µs within the
limits, and within 200–12,000 µs where they are those that SET_STRIKER takes. -/
def Obligations.PulseStagesComputeTheWidth : Prop :=
  (∀ (strength heat soft hard : Nat), soft + 1000 ≤ hard → heat < hard → 1 ≤ strength →
    (heat ≤ soft → derate strength heat soft hard = strength) ∧
    (soft < heat → derate strength heat soft hard = strength - strength * (heat - soft) / (2 * (hard - soft)) ∧
      2 * (strength * (heat - soft) / (2 * (hard - soft))) < strength) ∧
    derate strength heat soft hard ≤ strength ∧ strength < 2 * derate strength heat soft hard ∧
    1 ≤ derate strength heat soft hard ∧
    ∀ (k : Striker) (live : Bank Nat 16) (r : Rail), k.heat = heat → k.soft = soft → k.hard = hard →
      (shape strength k live r).applied = derate strength heat soft hard ∧
      ((shape strength k live r).derated = true ↔ derate strength heat soft hard < strength)) ∧
  (∀ (points : Bank Nat 16) (strength : Nat), monotonePoints points = true → strength ≤ 255 →
    let point := curvePoint points
    let k := strength / 17
    let d := strength - 17 * k
    (strength = 255 → curveWidth points strength = point 15) ∧
    (strength < 255 →
      curveWidth points strength = point k + (2 * ((point (k + 1) - point k) * d) + 17) / 34 ∧
      (2 * ((point (k + 1) - point k) * d) + 17) % 34 ≠ 0) ∧
    (d = 0 → curveWidth points strength = point k) ∧
    (1 ≤ strength → strength ≤ 16 → point 0 ≤ curveWidth points strength ∧ curveWidth points strength ≤ point 1) ∧
    point 0 ≤ curveWidth points strength ∧ curveWidth points strength ≤ point 15 ∧ curveWidth points strength ≤ 12000) ∧
  ((∀ width nominal sample, 0 < sample →
    supplyWidth width nominal (some sample) = (2 * (width * nominal) + sample) / (2 * sample)) ∧
  ∀ width low high, low % 10 = 0 → high % 10 = 0 → low ≤ high →
    let near := quantize width
    near % 10 = 0 ∧ width < near + 5 ∧ near ≤ width + 5 ∧
    clampPulse low high near % 10 = 0 ∧ low ≤ clampPulse low high near ∧ clampPulse low high near ≤ high ∧
    (low ≤ near → near ≤ high → clampPulse low high near = near) ∧ (near < low → clampPulse low high near = low) ∧
    (high < near → clampPulse low high near = high)) ∧
  ∀ (strength : Nat) (k : Striker) (live : Bank Nat 16) (r : Rail),
    let x := shape strength k live r
    let width := curveWidth live (derate strength k.heat k.soft k.hard)
    x.pulse = clampPulse k.minPulse k.maxPulse (quantize (supplyWidth width r.nominal r.lastSample)) ∧
    (∀ sample, 0 < sample → r.lastSample = some sample →
      let near := ((2 * (width * r.nominal) + sample) / (2 * sample) + 5) / 10 * 10
      x.pulse = if near < k.minPulse then k.minPulse else if k.maxPulse < near then k.maxPulse else near) ∧
    (k.minPulse % 10 = 0 → k.maxPulse % 10 = 0 → 200 ≤ k.minPulse → k.minPulse ≤ k.maxPulse → k.maxPulse ≤ 12000 →
      x.pulse % 10 = 0 ∧ k.minPulse ≤ x.pulse ∧ x.pulse ≤ k.maxPulse ∧ 200 ≤ x.pulse ∧ x.pulse ≤ 12000)

/-- The hold duty (R91): weight 2^j of the duty turns on the segments that are 2^(7−j) − 1 mod 2^(8−j), 127 alone for weight 1, so
that exactly as many of the 256 segments are on as the duty says, and segment 255 never. The outputs: a gate is on in DRIVE and,
in a HOLD begun at the drive end, in the segments of its press's duty, one of them each µs, and only with drive permission (R55,
R91, R148); a fitted rail's enable is on in CHARGING, STANDBY, PLAYING and GUARDED, and ALERT asserted in GUARDED and FAULT
(R148); a damper drive is on in LIFTING and OPEN, and not in CLAMPED or CLAMPING (R93); SYNC_OUT is high until its pulse ends
(R20); NOTICE is asserted while an enabled notice is pending (R171). Under RESET the outputs are as ResetHoldsThePart says. -/
def Obligations.HoldDutySpreadsItsSegments : Prop :=
  (∀ duty, duty < 256 →
    ((List.range 256).filter (segmentOn duty)).length = duty ∧ segmentOn duty 255 = false ∧
    ∀ i, i < 255 → ∃ j, j < 8 ∧ i % 2 ^ (j + 1) = 2 ^ j - 1 ∧ segmentOn duty i = duty.testBit (7 - j)) ∧
  ∀ s : State, s.power.inReset = false →
    let g := s.stage.stage
    (∀ n : StrikerId,
      let k := s.striker n
      (g ≠ .playing → s.gateOn n = false) ∧
      (g = .playing → k.state = .drive → s.gateOn n = true) ∧
      (k.state = .idle ∨ k.state = .recover ∨ k.state = .locked → s.gateOn n = false) ∧
      (∀ (slot : SlotId) (e : Entry) (q : PressPart) (began : Nat), g = .playing → k.state = .hold → k.playing = some slot →
        s.entryAt slot = some e → e.part = .press q → k.holdEnd = some (began + q.holdMs * 1000) → began ≤ s.now →
        s.gateOn n = segmentOn q.duty ((s.now - began) % 256))) ∧
    (∀ r : RailId, s.railEnable r = true ↔
      (s.rail r).fitted = true ∧ (g = .charging ∨ g = .standby ∨ g = .playing ∨ g = .guarded)) ∧
    (s.alert = true ↔ g = .guarded ∨ g = .fault) ∧
    (∀ u : UnitId, s.damperDrive u = true ↔ (s.damper u).state = .lifting ∨ (s.damper u).state = .opened) ∧
    (s.syncOut = true ↔ ∃ t, s.timeline.syncOutEnd = some t) ∧
    ∀ p : PortId, (s.port p).noticeLine = true ↔
      ∃ i, i < 8 ∧ (s.port p).pendingNotices.getLsbD i = true ∧ (s.port p).enables.getLsbD i = true

/-! ## Invariants of the step -/

/-- At reset every invariant stated below holds. -/
def Obligations.ResetStateIsSound : Prop :=
  State.reset.MemorySound ∧ State.reset.CalendarSound ∧ State.reset.CalendarOrdered ∧ State.reset.TimelineSound ∧
    State.reset.CurvesSound ∧ State.reset.LeadsSound ∧ State.reset.ChimeSound ∧ State.reset.RailsSound ∧
    State.reset.StageSound

/-- Every step keeps phrase memory in its canonical form. -/
def Obligations.StepKeepsMemorySound : Prop :=
  ∀ s t : State, s.MemorySound → step s = .next t → t.MemorySound

/-- Every step keeps the quotas, the use counts, the chime count and the echo queues within their bounds (R30, R143). -/
def Obligations.StepKeepsCalendarSound : Prop :=
  ∀ s t : State, s.CalendarSound → step s = .next t → t.CalendarSound

/-- Every step keeps the entries in calendar order, with slots and arrivals all different (R28, R29). -/
def Obligations.StepKeepsCalendarOrdered : Prop :=
  ∀ s t : State, s.CalendarOrdered → step s = .next t → t.CalendarOrdered

/-- Every step keeps the timeline consistent (R1, R5, R8, R12 to R15, R18). -/
def Obligations.StepKeepsTimelineSound : Prop :=
  ∀ s t : State, s.TimelineSound → step s = .next t → t.TimelineSound

/-- Every step keeps the curve tables in their form (R75, R78), and the lead ticks those of the period in force (R23). -/
def Obligations.StepKeepsCurvesAndLeadsSound : Prop :=
  ∀ s t : State, step s = .next t → (s.CurvesSound → t.CurvesSound) ∧ (s.LeadsSound → t.LeadsSound)

/-- Every step keeps voice 15 in its fixed form (R24, R109), and no rail fires more often than its window allows (R65). -/
def Obligations.StepKeepsChimeAndRailsSound : Prop :=
  ∀ s t : State, step s = .next t → (s.ChimeSound → t.ChimeSound) ∧ (s.RailsSound → t.RailsSound)

/-- Every step keeps the safety of the stage: strikers drive and hold, and dampers are held, only in PLAYING, and PLAYING has
the guard closed (R95, R148, R158). -/
def Obligations.StepKeepsStageSound : Prop :=
  ∀ s t : State, s.StageSound → step s = .next t → t.StageSound

/-! ## Release and unison merge (spec/02) -/

/-- Releasing an entry (R33 to R37, R96): a chopped ROLL leaves with CHOPPED, an entry of a bar without a candidate with
NO_STRIKER, outside PLAYING with DROPPED_STAGE, and one whose deadline is past with DROPPED_LATE, tested in this order. Any other
is RELEASED with its target and its deadline, its rail's arbiter decides, and its sustain places a hold, of a full list the first
leaving. Of two SINGLE entries on one bar and due tick the stronger stays, or on equal strength the earlier arrival, and the other
leaves with MERGED. The test is made at an admission (R32, here a STRIKE) and at each tick expiry (here with one entry in the
calendar, TICK_EXPIRY). -/
def Obligations.ReleaseFollowsItsTests : Prop :=
  let ideal : State → Nat → Nat → Entry → Int := fun s now position e =>
    now + ((e.due : Int) - position) * s.timeline.period / 8 - (s.timeline.times (s.bar e.bar).cls).lead
  let slip : State → Entry → Nat := fun s e => (s.timeline.times (s.bar e.bar).cls).slip
  let able : State → BarId → Prop := fun s b => ∃ n ∈ (s.bar b).strikers, (s.striker n).state ≠ .locked
  let released : Nat → Nat → Bool → Entry → Entry := fun target deadline reached d =>
    { d with state := .released, target := some target, deadline := some deadline, targetReached := reached }
  (∀ (s : State) (k : SlotId) (e : Entry), s.entryAt k = some e → (s.entries.map (·.slot)).Nodup →
    let x := s.timeline
    let best := ideal s s.now x.position e
    let chopped : Prop := ∃ r, e.part = .roll r ∧ r.chopMark = true
    let late : Prop := best + slip s e < s.now
    let partner : Entry → Prop := fun d => d ∈ s.entries ∧ d.slot ≠ k ∧ d.state = .released ∧ d.part = .single ∧
      d.bar = e.bar ∧ d.due = e.due
    let joins : State → Prop := fun u => ∃ (t : State) (target deadline : Nat) (r : RailId), s.release k = t ∧
      (target : Int) = max best s.now ∧ (deadline : Int) = best + slip s e ∧ (s.bar e.bar).rail = some r ∧
      t = { u with
        entries := u.entries.map (fun d => if d.slot = k then released target deadline (decide (target ≤ s.now)) d else d)
        decisions := s.decisions ++ [r]
        dampers := t.dampers } ∧
      (e.sustain = none ∨ (s.bar e.bar).damper = none → t.dampers = s.dampers) ∧
      (∀ n unit, e.sustain = some n → (s.bar e.bar).damper = some unit →
        let d := s.damper unit
        let room := if d.holds.length < 16 then d.holds else d.holds.drop 1
        let earlier : Hold → Bool := fun h => match h.endTick with
          | some y => decide (y ≤ e.due + n)
          | none => false
        (e.due + n ≤ x.position → t.dampers = s.dampers) ∧
        (x.position < e.due + n → t.dampers = s.dampers.put unit { d with
          holds := room.takeWhile earlier ++
            { voice := e.voice, bar := some e.bar, endTick := some (e.due + n) } :: room.dropWhile earlier
          state := if d.state = DamperState.clamped then .lifting else d.state
          liftEnd := if d.state = DamperState.clamped then some (s.now + d.lift) else d.liftEnd }))
    (chopped → s.release k = s.leave k .chopped) ∧
    (¬ chopped → ¬ able s e.bar → s.release k = s.leave k .noStriker) ∧
    (¬ chopped → able s e.bar → s.stage.stage ≠ .playing → s.release k = s.leave k .droppedStage) ∧
    (¬ chopped → able s e.bar → s.stage.stage = .playing →
      (late → s.release k = s.leave k .droppedLate) ∧
      (¬ late → (e.part = .single → ∀ d, ¬ partner d) → joins s) ∧
      (∀ d, ¬ late → e.part = .single → partner d → (∀ y, partner y → y = d) →
        let stays : Prop := e.strength < d.strength ∨ (e.strength = d.strength ∧ d.seq ≤ e.seq)
        (stays → s.release k = s.leave k .merged) ∧ (¬ stays → joins (s.leave d.slot .merged))))) ∧
  (∀ (w : When) (p : PortId) (s : State) (v : VoiceId) (b : BarId) (due : Quad) (strength tag : Byte) (sustain : Half)
    (slot : SlotId), s.ready p = true → s.decisions = [] → s.owns p v = true → (s.voice v).low ≤ b.1 →
    b.1 ≤ (s.voice v).high → strength ≠ 0#8 → s.entries.length < 256 → s.useCount p < s.quotas.look p →
    (∀ e ∈ s.entries, e.slot ≠ slot) → (∀ k : SlotId, k < slot → ∃ e ∈ s.entries, e.slot = k) →
    due.toNat - (s.timeline.times (s.bar b).cls).leadTicks ≤ s.timeline.position →
    let e : Entry := {
      slot := slot, voice := v, port := p, report := true, bar := b, due := due.toNat, part := .single
      strength := strength.toNat, sustain := none, tag := tag, seq := s.nextSeq, state := .waiting, target := none
      deadline := none, targetReached := false, fire := none, flags := {}, peak := none, listened := false, wasCut := false }
    let now := max s.now w.time
    let best := ideal s now s.timeline.position e
    let admits : (State → Prop) → Prop := fun holds => ∃ t,
      exec (.strike w p (BitVec.ofNat 8 v.1) (BitVec.ofNat 8 b.1) 0#8 due strength tag sustain) s = .next t ∧
      (t.port p).replied 0x22#8 .ok (b1 slot.1 ++ b4 s.nextSeq) ∧ t.nextSeq = s.nextSeq + 1 ∧ holds t
    let leaves : EntryOutcome → Prop := fun o => admits (fun t => t.entries = s.entries ∧
      (t.port p).echo = ((s.port p).offer (e.echo o)).echo ∧ (t.port p).lost = ((s.port p).offer (e.echo o)).lost)
    (¬ able s b → leaves .noStriker) ∧
    (able s b → s.stage.stage ≠ .playing → leaves .droppedStage) ∧
    (able s b → s.stage.stage = .playing → best + slip s e < now → leaves .droppedLate) ∧
    (∀ r, able s b → s.stage.stage = .playing → now < best → (s.bar b).rail = some r → s.members r = [] →
      admits (fun t => t.entries = placeEntry (released best.toNat (best + slip s e).toNat false e) s.entries))) ∧
  (∀ (w : When) (s : State) (e : Entry) (expiry : Nat), s.power.inReset = false → s.decisions = [] → s.entries = [e] →
    e.state = .waiting → (∀ v, (s.player v).state = .idle) → s.timeline.state = .running →
    s.timeline.tickDue = some expiry → (s.timeline.source = .internal ∨ s.timeline.position % 240 ≠ 239) →
    s.timeline.position + 1 < 4294967295 → s.timeline.pendingPeriod = none → s.timeline.ramp = none →
    let now := max s.now (max ((expiry + 4) / 8) w.time)
    let position := s.timeline.position + 1
    let best := ideal s now position e
    let chopped : Prop := ∃ r, e.part = .roll r ∧ r.chopMark = true
    let gives : (State → Prop) → Prop := fun holds => ∃ t, exec (.tickExpiry w) s = .next t ∧ holds t
    let leaves : EntryOutcome → Prop := fun o => gives (fun t => t.entries = [] ∧
      ∀ q, (t.port q).echo = ((s.leave e.slot o).port q).echo ∧ (t.port q).lost = ((s.leave e.slot o).port q).lost)
    let reached : Prop := e.due - (s.timeline.times (s.bar e.bar).cls).leadTicks ≤ position
    (¬ reached → gives (fun t => t.entries = [e])) ∧
    (reached → chopped → leaves .chopped) ∧
    (reached → ¬ chopped → ¬ able s e.bar → leaves .noStriker) ∧
    (reached → ¬ chopped → able s e.bar → s.stage.stage ≠ .playing → leaves .droppedStage) ∧
    (reached → ¬ chopped → able s e.bar → s.stage.stage = .playing →
      (best + slip s e < now → leaves .droppedLate) ∧
      (now < best → gives (fun t => t.entries = [released best.toNat (best + slip s e).toNat false e]))))
end

