-- ==== Sys2Proof/Laws/Bank.lean ====
section
/-! SUPPORT. The laws of a bank: reading after a change of one member or of all. -/
namespace Sys2Proof

variable {α β : Type} {n : Nat}

@[simp] theorem Bank.look_put_same (v : Bank α n) (i : Fin n) (x : α) : (v.put i x).look i = x := by
  simp [Bank.look, Bank.put]

theorem Bank.look_put_ne (v : Bank α n) {i j : Fin n} (h : j ≠ i) (x : α) : (v.put i x).look j = v.look j := by
  have : i.1 ≠ j.1 := fun e => h (Fin.ext e.symm)
  simp [Bank.look, Bank.put, this]

/-- Reading any member after one was replaced. -/
theorem Bank.look_put (v : Bank α n) (i j : Fin n) (x : α) : (v.put i x).look j = if j = i then x else v.look j := by
  by_cases h : j = i
  · subst h; simp
  · simp [Bank.look_put_ne v h, h]

@[simp] theorem Bank.put_put (v : Bank α n) (i : Fin n) (x y : α) : (v.put i x).put i y = v.put i y := by
  apply Vector.ext
  intro k hk
  simp only [Bank.put, Vector.getElem_set]
  split <;> rfl

@[simp] theorem Bank.put_look (v : Bank α n) (i : Fin n) : v.put i (v.look i) = v := by
  simp [Bank.put, Bank.look]

@[simp] theorem Bank.look_mapWith (v : Bank α n) (f : Fin n → α → β) (i : Fin n) :
    (Bank.mapWith f v).look i = f i (v.look i) := by
  simp [Bank.look, Bank.mapWith, List.getElem_zipWith]

@[simp] theorem Bank.look_fill (x : α) (i : Fin n) : (Bank.fill n x).look i = x := by
  simp [Bank.look, Bank.fill]

/-- Two banks are equal when they read alike. -/
theorem Bank.ext_look {u v : Bank α n} (h : ∀ i, u.look i = v.look i) : u = v := by
  apply Vector.ext
  intro k hk
  exact h ⟨k, hk⟩

/-- A test of some member of a bank. -/
theorem Bank.any_toList (v : Bank α n) (p : α → Bool) : v.toList.any p = true ↔ ∃ i, p (v.look i) = true := by
  simp only [List.any_eq_true, Vector.mem_toList_iff, Vector.mem_iff_getElem]
  constructor
  · rintro ⟨x, ⟨k, hk, rfl⟩, hx⟩
    exact ⟨⟨k, hk⟩, hx⟩
  · rintro ⟨i, hi⟩
    exact ⟨_, ⟨i.1, i.2, rfl⟩, hi⟩

/-- A test of every member of a bank. -/
theorem Bank.all_toList (v : Bank α n) (p : α → Bool) : v.toList.all p = true ↔ ∀ i, p (v.look i) = true := by
  simp only [List.all_eq_true, Vector.mem_toList_iff, Vector.mem_iff_getElem]
  constructor
  · intro h i
    exact h _ ⟨i.1, i.2, rfl⟩
  · rintro h x ⟨k, hk, rfl⟩
    exact h ⟨k, hk⟩

end Sys2Proof
end

