-- ==== Sys2Proof/Laws/State.lean ====
section
/-! SUPPORT. One lemma for each field under each update of the state: what an update leaves as it was, and what it writes. -/
namespace Sys2Proof.Machine

variable (s : State)

/-! ## modPort -/

@[simp] theorem State.modPort_now (p : PortId) (f : Port → Port) : (s.modPort p f).now = s.now := rfl
@[simp] theorem State.modPort_power (p : PortId) (f : Port → Port) : (s.modPort p f).power = s.power := rfl
@[simp] theorem State.modPort_timeline (p : PortId) (f : Port → Port) : (s.modPort p f).timeline = s.timeline := rfl
@[simp] theorem State.modPort_voices (p : PortId) (f : Port → Port) : (s.modPort p f).voices = s.voices := rfl
@[simp] theorem State.modPort_chimePort (p : PortId) (f : Port → Port) : (s.modPort p f).chimePort = s.chimePort := rfl
@[simp] theorem State.modPort_entries (p : PortId) (f : Port → Port) : (s.modPort p f).entries = s.entries := rfl
@[simp] theorem State.modPort_nextSeq (p : PortId) (f : Port → Port) : (s.modPort p f).nextSeq = s.nextSeq := rfl
@[simp] theorem State.modPort_quotas (p : PortId) (f : Port → Port) : (s.modPort p f).quotas = s.quotas := rfl
@[simp] theorem State.modPort_bars (p : PortId) (f : Port → Port) : (s.modPort p f).bars = s.bars := rfl
@[simp] theorem State.modPort_strikers (p : PortId) (f : Port → Port) : (s.modPort p f).strikers = s.strikers := rfl
@[simp] theorem State.modPort_rails (p : PortId) (f : Port → Port) : (s.modPort p f).rails = s.rails := rfl
@[simp] theorem State.modPort_shaper (p : PortId) (f : Port → Port) : (s.modPort p f).shaper = s.shaper := rfl
@[simp] theorem State.modPort_dampers (p : PortId) (f : Port → Port) : (s.modPort p f).dampers = s.dampers := rfl
@[simp] theorem State.modPort_mem (p : PortId) (f : Port → Port) : (s.modPort p f).mem = s.mem := rfl
@[simp] theorem State.modPort_players (p : PortId) (f : Port → Port) : (s.modPort p f).players = s.players := rfl
@[simp] theorem State.modPort_sense (p : PortId) (f : Port → Port) : (s.modPort p f).sense = s.sense := rfl
@[simp] theorem State.modPort_stage (p : PortId) (f : Port → Port) : (s.modPort p f).stage = s.stage := rfl
@[simp] theorem State.modPort_decisions (p : PortId) (f : Port → Port) : (s.modPort p f).decisions = s.decisions := rfl
@[simp] theorem State.modPort_pending (p : PortId) (f : Port → Port) : (s.modPort p f).pending = s.pending := rfl
@[simp] theorem State.modPort_voice (p : PortId) (f : Port → Port) (i : VoiceId) : (s.modPort p f).voice i = s.voice i := rfl
@[simp] theorem State.modPort_bar (p : PortId) (f : Port → Port) (i : BarId) : (s.modPort p f).bar i = s.bar i := rfl
@[simp] theorem State.modPort_striker (p : PortId) (f : Port → Port) (i : StrikerId) : (s.modPort p f).striker i = s.striker i := rfl
@[simp] theorem State.modPort_rail (p : PortId) (f : Port → Port) (i : RailId) : (s.modPort p f).rail i = s.rail i := rfl
@[simp] theorem State.modPort_table (p : PortId) (f : Port → Port) (i : TableId) : (s.modPort p f).table i = s.table i := rfl
@[simp] theorem State.modPort_damper (p : PortId) (f : Port → Port) (i : UnitId) : (s.modPort p f).damper i = s.damper i := rfl
@[simp] theorem State.modPort_player (p : PortId) (f : Port → Port) (i : VoiceId) : (s.modPort p f).player i = s.player i := rfl

/-! ## modVoice -/

@[simp] theorem State.modVoice_now (v : VoiceId) (f : Voice → Voice) : (s.modVoice v f).now = s.now := rfl
@[simp] theorem State.modVoice_power (v : VoiceId) (f : Voice → Voice) : (s.modVoice v f).power = s.power := rfl
@[simp] theorem State.modVoice_ports (v : VoiceId) (f : Voice → Voice) : (s.modVoice v f).ports = s.ports := rfl
@[simp] theorem State.modVoice_timeline (v : VoiceId) (f : Voice → Voice) : (s.modVoice v f).timeline = s.timeline := rfl
@[simp] theorem State.modVoice_chimePort (v : VoiceId) (f : Voice → Voice) : (s.modVoice v f).chimePort = s.chimePort := rfl
@[simp] theorem State.modVoice_entries (v : VoiceId) (f : Voice → Voice) : (s.modVoice v f).entries = s.entries := rfl
@[simp] theorem State.modVoice_nextSeq (v : VoiceId) (f : Voice → Voice) : (s.modVoice v f).nextSeq = s.nextSeq := rfl
@[simp] theorem State.modVoice_quotas (v : VoiceId) (f : Voice → Voice) : (s.modVoice v f).quotas = s.quotas := rfl
@[simp] theorem State.modVoice_bars (v : VoiceId) (f : Voice → Voice) : (s.modVoice v f).bars = s.bars := rfl
@[simp] theorem State.modVoice_strikers (v : VoiceId) (f : Voice → Voice) : (s.modVoice v f).strikers = s.strikers := rfl
@[simp] theorem State.modVoice_rails (v : VoiceId) (f : Voice → Voice) : (s.modVoice v f).rails = s.rails := rfl
@[simp] theorem State.modVoice_shaper (v : VoiceId) (f : Voice → Voice) : (s.modVoice v f).shaper = s.shaper := rfl
@[simp] theorem State.modVoice_dampers (v : VoiceId) (f : Voice → Voice) : (s.modVoice v f).dampers = s.dampers := rfl
@[simp] theorem State.modVoice_mem (v : VoiceId) (f : Voice → Voice) : (s.modVoice v f).mem = s.mem := rfl
@[simp] theorem State.modVoice_players (v : VoiceId) (f : Voice → Voice) : (s.modVoice v f).players = s.players := rfl
@[simp] theorem State.modVoice_sense (v : VoiceId) (f : Voice → Voice) : (s.modVoice v f).sense = s.sense := rfl
@[simp] theorem State.modVoice_stage (v : VoiceId) (f : Voice → Voice) : (s.modVoice v f).stage = s.stage := rfl
@[simp] theorem State.modVoice_decisions (v : VoiceId) (f : Voice → Voice) : (s.modVoice v f).decisions = s.decisions := rfl
@[simp] theorem State.modVoice_pending (v : VoiceId) (f : Voice → Voice) : (s.modVoice v f).pending = s.pending := rfl
@[simp] theorem State.modVoice_port (v : VoiceId) (f : Voice → Voice) (i : PortId) : (s.modVoice v f).port i = s.port i := rfl
@[simp] theorem State.modVoice_bar (v : VoiceId) (f : Voice → Voice) (i : BarId) : (s.modVoice v f).bar i = s.bar i := rfl
@[simp] theorem State.modVoice_striker (v : VoiceId) (f : Voice → Voice) (i : StrikerId) : (s.modVoice v f).striker i = s.striker i := rfl
@[simp] theorem State.modVoice_rail (v : VoiceId) (f : Voice → Voice) (i : RailId) : (s.modVoice v f).rail i = s.rail i := rfl
@[simp] theorem State.modVoice_table (v : VoiceId) (f : Voice → Voice) (i : TableId) : (s.modVoice v f).table i = s.table i := rfl
@[simp] theorem State.modVoice_damper (v : VoiceId) (f : Voice → Voice) (i : UnitId) : (s.modVoice v f).damper i = s.damper i := rfl
@[simp] theorem State.modVoice_player (v : VoiceId) (f : Voice → Voice) (i : VoiceId) : (s.modVoice v f).player i = s.player i := rfl

/-! ## modBar -/

@[simp] theorem State.modBar_now (b : BarId) (f : Bar → Bar) : (s.modBar b f).now = s.now := rfl
@[simp] theorem State.modBar_power (b : BarId) (f : Bar → Bar) : (s.modBar b f).power = s.power := rfl
@[simp] theorem State.modBar_ports (b : BarId) (f : Bar → Bar) : (s.modBar b f).ports = s.ports := rfl
@[simp] theorem State.modBar_timeline (b : BarId) (f : Bar → Bar) : (s.modBar b f).timeline = s.timeline := rfl
@[simp] theorem State.modBar_voices (b : BarId) (f : Bar → Bar) : (s.modBar b f).voices = s.voices := rfl
@[simp] theorem State.modBar_chimePort (b : BarId) (f : Bar → Bar) : (s.modBar b f).chimePort = s.chimePort := rfl
@[simp] theorem State.modBar_entries (b : BarId) (f : Bar → Bar) : (s.modBar b f).entries = s.entries := rfl
@[simp] theorem State.modBar_nextSeq (b : BarId) (f : Bar → Bar) : (s.modBar b f).nextSeq = s.nextSeq := rfl
@[simp] theorem State.modBar_quotas (b : BarId) (f : Bar → Bar) : (s.modBar b f).quotas = s.quotas := rfl
@[simp] theorem State.modBar_strikers (b : BarId) (f : Bar → Bar) : (s.modBar b f).strikers = s.strikers := rfl
@[simp] theorem State.modBar_rails (b : BarId) (f : Bar → Bar) : (s.modBar b f).rails = s.rails := rfl
@[simp] theorem State.modBar_shaper (b : BarId) (f : Bar → Bar) : (s.modBar b f).shaper = s.shaper := rfl
@[simp] theorem State.modBar_dampers (b : BarId) (f : Bar → Bar) : (s.modBar b f).dampers = s.dampers := rfl
@[simp] theorem State.modBar_mem (b : BarId) (f : Bar → Bar) : (s.modBar b f).mem = s.mem := rfl
@[simp] theorem State.modBar_players (b : BarId) (f : Bar → Bar) : (s.modBar b f).players = s.players := rfl
@[simp] theorem State.modBar_sense (b : BarId) (f : Bar → Bar) : (s.modBar b f).sense = s.sense := rfl
@[simp] theorem State.modBar_stage (b : BarId) (f : Bar → Bar) : (s.modBar b f).stage = s.stage := rfl
@[simp] theorem State.modBar_decisions (b : BarId) (f : Bar → Bar) : (s.modBar b f).decisions = s.decisions := rfl
@[simp] theorem State.modBar_pending (b : BarId) (f : Bar → Bar) : (s.modBar b f).pending = s.pending := rfl
@[simp] theorem State.modBar_port (b : BarId) (f : Bar → Bar) (i : PortId) : (s.modBar b f).port i = s.port i := rfl
@[simp] theorem State.modBar_voice (b : BarId) (f : Bar → Bar) (i : VoiceId) : (s.modBar b f).voice i = s.voice i := rfl
@[simp] theorem State.modBar_striker (b : BarId) (f : Bar → Bar) (i : StrikerId) : (s.modBar b f).striker i = s.striker i := rfl
@[simp] theorem State.modBar_rail (b : BarId) (f : Bar → Bar) (i : RailId) : (s.modBar b f).rail i = s.rail i := rfl
@[simp] theorem State.modBar_table (b : BarId) (f : Bar → Bar) (i : TableId) : (s.modBar b f).table i = s.table i := rfl
@[simp] theorem State.modBar_damper (b : BarId) (f : Bar → Bar) (i : UnitId) : (s.modBar b f).damper i = s.damper i := rfl
@[simp] theorem State.modBar_player (b : BarId) (f : Bar → Bar) (i : VoiceId) : (s.modBar b f).player i = s.player i := rfl

/-! ## modStriker -/

@[simp] theorem State.modStriker_now (n : StrikerId) (f : Striker → Striker) : (s.modStriker n f).now = s.now := rfl
@[simp] theorem State.modStriker_power (n : StrikerId) (f : Striker → Striker) : (s.modStriker n f).power = s.power := rfl
@[simp] theorem State.modStriker_ports (n : StrikerId) (f : Striker → Striker) : (s.modStriker n f).ports = s.ports := rfl
@[simp] theorem State.modStriker_timeline (n : StrikerId) (f : Striker → Striker) : (s.modStriker n f).timeline = s.timeline := rfl
@[simp] theorem State.modStriker_voices (n : StrikerId) (f : Striker → Striker) : (s.modStriker n f).voices = s.voices := rfl
@[simp] theorem State.modStriker_chimePort (n : StrikerId) (f : Striker → Striker) : (s.modStriker n f).chimePort = s.chimePort := rfl
@[simp] theorem State.modStriker_entries (n : StrikerId) (f : Striker → Striker) : (s.modStriker n f).entries = s.entries := rfl
@[simp] theorem State.modStriker_nextSeq (n : StrikerId) (f : Striker → Striker) : (s.modStriker n f).nextSeq = s.nextSeq := rfl
@[simp] theorem State.modStriker_quotas (n : StrikerId) (f : Striker → Striker) : (s.modStriker n f).quotas = s.quotas := rfl
@[simp] theorem State.modStriker_bars (n : StrikerId) (f : Striker → Striker) : (s.modStriker n f).bars = s.bars := rfl
@[simp] theorem State.modStriker_rails (n : StrikerId) (f : Striker → Striker) : (s.modStriker n f).rails = s.rails := rfl
@[simp] theorem State.modStriker_shaper (n : StrikerId) (f : Striker → Striker) : (s.modStriker n f).shaper = s.shaper := rfl
@[simp] theorem State.modStriker_dampers (n : StrikerId) (f : Striker → Striker) : (s.modStriker n f).dampers = s.dampers := rfl
@[simp] theorem State.modStriker_mem (n : StrikerId) (f : Striker → Striker) : (s.modStriker n f).mem = s.mem := rfl
@[simp] theorem State.modStriker_players (n : StrikerId) (f : Striker → Striker) : (s.modStriker n f).players = s.players := rfl
@[simp] theorem State.modStriker_sense (n : StrikerId) (f : Striker → Striker) : (s.modStriker n f).sense = s.sense := rfl
@[simp] theorem State.modStriker_stage (n : StrikerId) (f : Striker → Striker) : (s.modStriker n f).stage = s.stage := rfl
@[simp] theorem State.modStriker_decisions (n : StrikerId) (f : Striker → Striker) : (s.modStriker n f).decisions = s.decisions := rfl
@[simp] theorem State.modStriker_pending (n : StrikerId) (f : Striker → Striker) : (s.modStriker n f).pending = s.pending := rfl
@[simp] theorem State.modStriker_port (n : StrikerId) (f : Striker → Striker) (i : PortId) : (s.modStriker n f).port i = s.port i := rfl
@[simp] theorem State.modStriker_voice (n : StrikerId) (f : Striker → Striker) (i : VoiceId) : (s.modStriker n f).voice i = s.voice i := rfl
@[simp] theorem State.modStriker_bar (n : StrikerId) (f : Striker → Striker) (i : BarId) : (s.modStriker n f).bar i = s.bar i := rfl
@[simp] theorem State.modStriker_rail (n : StrikerId) (f : Striker → Striker) (i : RailId) : (s.modStriker n f).rail i = s.rail i := rfl
@[simp] theorem State.modStriker_table (n : StrikerId) (f : Striker → Striker) (i : TableId) : (s.modStriker n f).table i = s.table i := rfl
@[simp] theorem State.modStriker_damper (n : StrikerId) (f : Striker → Striker) (i : UnitId) : (s.modStriker n f).damper i = s.damper i := rfl
@[simp] theorem State.modStriker_player (n : StrikerId) (f : Striker → Striker) (i : VoiceId) : (s.modStriker n f).player i = s.player i := rfl

/-! ## modRail -/

@[simp] theorem State.modRail_now (r : RailId) (f : Rail → Rail) : (s.modRail r f).now = s.now := rfl
@[simp] theorem State.modRail_power (r : RailId) (f : Rail → Rail) : (s.modRail r f).power = s.power := rfl
@[simp] theorem State.modRail_ports (r : RailId) (f : Rail → Rail) : (s.modRail r f).ports = s.ports := rfl
@[simp] theorem State.modRail_timeline (r : RailId) (f : Rail → Rail) : (s.modRail r f).timeline = s.timeline := rfl
@[simp] theorem State.modRail_voices (r : RailId) (f : Rail → Rail) : (s.modRail r f).voices = s.voices := rfl
@[simp] theorem State.modRail_chimePort (r : RailId) (f : Rail → Rail) : (s.modRail r f).chimePort = s.chimePort := rfl
@[simp] theorem State.modRail_entries (r : RailId) (f : Rail → Rail) : (s.modRail r f).entries = s.entries := rfl
@[simp] theorem State.modRail_nextSeq (r : RailId) (f : Rail → Rail) : (s.modRail r f).nextSeq = s.nextSeq := rfl
@[simp] theorem State.modRail_quotas (r : RailId) (f : Rail → Rail) : (s.modRail r f).quotas = s.quotas := rfl
@[simp] theorem State.modRail_bars (r : RailId) (f : Rail → Rail) : (s.modRail r f).bars = s.bars := rfl
@[simp] theorem State.modRail_strikers (r : RailId) (f : Rail → Rail) : (s.modRail r f).strikers = s.strikers := rfl
@[simp] theorem State.modRail_shaper (r : RailId) (f : Rail → Rail) : (s.modRail r f).shaper = s.shaper := rfl
@[simp] theorem State.modRail_dampers (r : RailId) (f : Rail → Rail) : (s.modRail r f).dampers = s.dampers := rfl
@[simp] theorem State.modRail_mem (r : RailId) (f : Rail → Rail) : (s.modRail r f).mem = s.mem := rfl
@[simp] theorem State.modRail_players (r : RailId) (f : Rail → Rail) : (s.modRail r f).players = s.players := rfl
@[simp] theorem State.modRail_sense (r : RailId) (f : Rail → Rail) : (s.modRail r f).sense = s.sense := rfl
@[simp] theorem State.modRail_stage (r : RailId) (f : Rail → Rail) : (s.modRail r f).stage = s.stage := rfl
@[simp] theorem State.modRail_decisions (r : RailId) (f : Rail → Rail) : (s.modRail r f).decisions = s.decisions := rfl
@[simp] theorem State.modRail_pending (r : RailId) (f : Rail → Rail) : (s.modRail r f).pending = s.pending := rfl
@[simp] theorem State.modRail_port (r : RailId) (f : Rail → Rail) (i : PortId) : (s.modRail r f).port i = s.port i := rfl
@[simp] theorem State.modRail_voice (r : RailId) (f : Rail → Rail) (i : VoiceId) : (s.modRail r f).voice i = s.voice i := rfl
@[simp] theorem State.modRail_bar (r : RailId) (f : Rail → Rail) (i : BarId) : (s.modRail r f).bar i = s.bar i := rfl
@[simp] theorem State.modRail_striker (r : RailId) (f : Rail → Rail) (i : StrikerId) : (s.modRail r f).striker i = s.striker i := rfl
@[simp] theorem State.modRail_table (r : RailId) (f : Rail → Rail) (i : TableId) : (s.modRail r f).table i = s.table i := rfl
@[simp] theorem State.modRail_damper (r : RailId) (f : Rail → Rail) (i : UnitId) : (s.modRail r f).damper i = s.damper i := rfl
@[simp] theorem State.modRail_player (r : RailId) (f : Rail → Rail) (i : VoiceId) : (s.modRail r f).player i = s.player i := rfl

/-! ## modDamper -/

@[simp] theorem State.modDamper_now (u : UnitId) (f : Damper → Damper) : (s.modDamper u f).now = s.now := rfl
@[simp] theorem State.modDamper_power (u : UnitId) (f : Damper → Damper) : (s.modDamper u f).power = s.power := rfl
@[simp] theorem State.modDamper_ports (u : UnitId) (f : Damper → Damper) : (s.modDamper u f).ports = s.ports := rfl
@[simp] theorem State.modDamper_timeline (u : UnitId) (f : Damper → Damper) : (s.modDamper u f).timeline = s.timeline := rfl
@[simp] theorem State.modDamper_voices (u : UnitId) (f : Damper → Damper) : (s.modDamper u f).voices = s.voices := rfl
@[simp] theorem State.modDamper_chimePort (u : UnitId) (f : Damper → Damper) : (s.modDamper u f).chimePort = s.chimePort := rfl
@[simp] theorem State.modDamper_entries (u : UnitId) (f : Damper → Damper) : (s.modDamper u f).entries = s.entries := rfl
@[simp] theorem State.modDamper_nextSeq (u : UnitId) (f : Damper → Damper) : (s.modDamper u f).nextSeq = s.nextSeq := rfl
@[simp] theorem State.modDamper_quotas (u : UnitId) (f : Damper → Damper) : (s.modDamper u f).quotas = s.quotas := rfl
@[simp] theorem State.modDamper_bars (u : UnitId) (f : Damper → Damper) : (s.modDamper u f).bars = s.bars := rfl
@[simp] theorem State.modDamper_strikers (u : UnitId) (f : Damper → Damper) : (s.modDamper u f).strikers = s.strikers := rfl
@[simp] theorem State.modDamper_rails (u : UnitId) (f : Damper → Damper) : (s.modDamper u f).rails = s.rails := rfl
@[simp] theorem State.modDamper_shaper (u : UnitId) (f : Damper → Damper) : (s.modDamper u f).shaper = s.shaper := rfl
@[simp] theorem State.modDamper_mem (u : UnitId) (f : Damper → Damper) : (s.modDamper u f).mem = s.mem := rfl
@[simp] theorem State.modDamper_players (u : UnitId) (f : Damper → Damper) : (s.modDamper u f).players = s.players := rfl
@[simp] theorem State.modDamper_sense (u : UnitId) (f : Damper → Damper) : (s.modDamper u f).sense = s.sense := rfl
@[simp] theorem State.modDamper_stage (u : UnitId) (f : Damper → Damper) : (s.modDamper u f).stage = s.stage := rfl
@[simp] theorem State.modDamper_decisions (u : UnitId) (f : Damper → Damper) : (s.modDamper u f).decisions = s.decisions := rfl
@[simp] theorem State.modDamper_pending (u : UnitId) (f : Damper → Damper) : (s.modDamper u f).pending = s.pending := rfl
@[simp] theorem State.modDamper_port (u : UnitId) (f : Damper → Damper) (i : PortId) : (s.modDamper u f).port i = s.port i := rfl
@[simp] theorem State.modDamper_voice (u : UnitId) (f : Damper → Damper) (i : VoiceId) : (s.modDamper u f).voice i = s.voice i := rfl
@[simp] theorem State.modDamper_bar (u : UnitId) (f : Damper → Damper) (i : BarId) : (s.modDamper u f).bar i = s.bar i := rfl
@[simp] theorem State.modDamper_striker (u : UnitId) (f : Damper → Damper) (i : StrikerId) : (s.modDamper u f).striker i = s.striker i := rfl
@[simp] theorem State.modDamper_rail (u : UnitId) (f : Damper → Damper) (i : RailId) : (s.modDamper u f).rail i = s.rail i := rfl
@[simp] theorem State.modDamper_table (u : UnitId) (f : Damper → Damper) (i : TableId) : (s.modDamper u f).table i = s.table i := rfl
@[simp] theorem State.modDamper_player (u : UnitId) (f : Damper → Damper) (i : VoiceId) : (s.modDamper u f).player i = s.player i := rfl

/-! ## modPlayer -/

@[simp] theorem State.modPlayer_now (v : VoiceId) (f : Player → Player) : (s.modPlayer v f).now = s.now := rfl
@[simp] theorem State.modPlayer_power (v : VoiceId) (f : Player → Player) : (s.modPlayer v f).power = s.power := rfl
@[simp] theorem State.modPlayer_ports (v : VoiceId) (f : Player → Player) : (s.modPlayer v f).ports = s.ports := rfl
@[simp] theorem State.modPlayer_timeline (v : VoiceId) (f : Player → Player) : (s.modPlayer v f).timeline = s.timeline := rfl
@[simp] theorem State.modPlayer_voices (v : VoiceId) (f : Player → Player) : (s.modPlayer v f).voices = s.voices := rfl
@[simp] theorem State.modPlayer_chimePort (v : VoiceId) (f : Player → Player) : (s.modPlayer v f).chimePort = s.chimePort := rfl
@[simp] theorem State.modPlayer_entries (v : VoiceId) (f : Player → Player) : (s.modPlayer v f).entries = s.entries := rfl
@[simp] theorem State.modPlayer_nextSeq (v : VoiceId) (f : Player → Player) : (s.modPlayer v f).nextSeq = s.nextSeq := rfl
@[simp] theorem State.modPlayer_quotas (v : VoiceId) (f : Player → Player) : (s.modPlayer v f).quotas = s.quotas := rfl
@[simp] theorem State.modPlayer_bars (v : VoiceId) (f : Player → Player) : (s.modPlayer v f).bars = s.bars := rfl
@[simp] theorem State.modPlayer_strikers (v : VoiceId) (f : Player → Player) : (s.modPlayer v f).strikers = s.strikers := rfl
@[simp] theorem State.modPlayer_rails (v : VoiceId) (f : Player → Player) : (s.modPlayer v f).rails = s.rails := rfl
@[simp] theorem State.modPlayer_shaper (v : VoiceId) (f : Player → Player) : (s.modPlayer v f).shaper = s.shaper := rfl
@[simp] theorem State.modPlayer_dampers (v : VoiceId) (f : Player → Player) : (s.modPlayer v f).dampers = s.dampers := rfl
@[simp] theorem State.modPlayer_mem (v : VoiceId) (f : Player → Player) : (s.modPlayer v f).mem = s.mem := rfl
@[simp] theorem State.modPlayer_sense (v : VoiceId) (f : Player → Player) : (s.modPlayer v f).sense = s.sense := rfl
@[simp] theorem State.modPlayer_stage (v : VoiceId) (f : Player → Player) : (s.modPlayer v f).stage = s.stage := rfl
@[simp] theorem State.modPlayer_decisions (v : VoiceId) (f : Player → Player) : (s.modPlayer v f).decisions = s.decisions := rfl
@[simp] theorem State.modPlayer_pending (v : VoiceId) (f : Player → Player) : (s.modPlayer v f).pending = s.pending := rfl
@[simp] theorem State.modPlayer_port (v : VoiceId) (f : Player → Player) (i : PortId) : (s.modPlayer v f).port i = s.port i := rfl
@[simp] theorem State.modPlayer_voice (v : VoiceId) (f : Player → Player) (i : VoiceId) : (s.modPlayer v f).voice i = s.voice i := rfl
@[simp] theorem State.modPlayer_bar (v : VoiceId) (f : Player → Player) (i : BarId) : (s.modPlayer v f).bar i = s.bar i := rfl
@[simp] theorem State.modPlayer_striker (v : VoiceId) (f : Player → Player) (i : StrikerId) : (s.modPlayer v f).striker i = s.striker i := rfl
@[simp] theorem State.modPlayer_rail (v : VoiceId) (f : Player → Player) (i : RailId) : (s.modPlayer v f).rail i = s.rail i := rfl
@[simp] theorem State.modPlayer_table (v : VoiceId) (f : Player → Player) (i : TableId) : (s.modPlayer v f).table i = s.table i := rfl
@[simp] theorem State.modPlayer_damper (v : VoiceId) (f : Player → Player) (i : UnitId) : (s.modPlayer v f).damper i = s.damper i := rfl

/-! ## modTable -/

@[simp] theorem State.modTable_now (t : TableId) (f : CurveTable → CurveTable) : (s.modTable t f).now = s.now := rfl
@[simp] theorem State.modTable_power (t : TableId) (f : CurveTable → CurveTable) : (s.modTable t f).power = s.power := rfl
@[simp] theorem State.modTable_ports (t : TableId) (f : CurveTable → CurveTable) : (s.modTable t f).ports = s.ports := rfl
@[simp] theorem State.modTable_timeline (t : TableId) (f : CurveTable → CurveTable) : (s.modTable t f).timeline = s.timeline := rfl
@[simp] theorem State.modTable_voices (t : TableId) (f : CurveTable → CurveTable) : (s.modTable t f).voices = s.voices := rfl
@[simp] theorem State.modTable_chimePort (t : TableId) (f : CurveTable → CurveTable) : (s.modTable t f).chimePort = s.chimePort := rfl
@[simp] theorem State.modTable_entries (t : TableId) (f : CurveTable → CurveTable) : (s.modTable t f).entries = s.entries := rfl
@[simp] theorem State.modTable_nextSeq (t : TableId) (f : CurveTable → CurveTable) : (s.modTable t f).nextSeq = s.nextSeq := rfl
@[simp] theorem State.modTable_quotas (t : TableId) (f : CurveTable → CurveTable) : (s.modTable t f).quotas = s.quotas := rfl
@[simp] theorem State.modTable_bars (t : TableId) (f : CurveTable → CurveTable) : (s.modTable t f).bars = s.bars := rfl
@[simp] theorem State.modTable_strikers (t : TableId) (f : CurveTable → CurveTable) : (s.modTable t f).strikers = s.strikers := rfl
@[simp] theorem State.modTable_rails (t : TableId) (f : CurveTable → CurveTable) : (s.modTable t f).rails = s.rails := rfl
@[simp] theorem State.modTable_dampers (t : TableId) (f : CurveTable → CurveTable) : (s.modTable t f).dampers = s.dampers := rfl
@[simp] theorem State.modTable_mem (t : TableId) (f : CurveTable → CurveTable) : (s.modTable t f).mem = s.mem := rfl
@[simp] theorem State.modTable_players (t : TableId) (f : CurveTable → CurveTable) : (s.modTable t f).players = s.players := rfl
@[simp] theorem State.modTable_sense (t : TableId) (f : CurveTable → CurveTable) : (s.modTable t f).sense = s.sense := rfl
@[simp] theorem State.modTable_stage (t : TableId) (f : CurveTable → CurveTable) : (s.modTable t f).stage = s.stage := rfl
@[simp] theorem State.modTable_decisions (t : TableId) (f : CurveTable → CurveTable) : (s.modTable t f).decisions = s.decisions := rfl
@[simp] theorem State.modTable_pending (t : TableId) (f : CurveTable → CurveTable) : (s.modTable t f).pending = s.pending := rfl
@[simp] theorem State.modTable_port (t : TableId) (f : CurveTable → CurveTable) (i : PortId) : (s.modTable t f).port i = s.port i := rfl
@[simp] theorem State.modTable_voice (t : TableId) (f : CurveTable → CurveTable) (i : VoiceId) : (s.modTable t f).voice i = s.voice i := rfl
@[simp] theorem State.modTable_bar (t : TableId) (f : CurveTable → CurveTable) (i : BarId) : (s.modTable t f).bar i = s.bar i := rfl
@[simp] theorem State.modTable_striker (t : TableId) (f : CurveTable → CurveTable) (i : StrikerId) : (s.modTable t f).striker i = s.striker i := rfl
@[simp] theorem State.modTable_rail (t : TableId) (f : CurveTable → CurveTable) (i : RailId) : (s.modTable t f).rail i = s.rail i := rfl
@[simp] theorem State.modTable_damper (t : TableId) (f : CurveTable → CurveTable) (i : UnitId) : (s.modTable t f).damper i = s.damper i := rfl
@[simp] theorem State.modTable_player (t : TableId) (f : CurveTable → CurveTable) (i : VoiceId) : (s.modTable t f).player i = s.player i := rfl

/-! ## modTimeline -/

@[simp] theorem State.modTimeline_now (f : Timeline → Timeline) : (s.modTimeline f).now = s.now := rfl
@[simp] theorem State.modTimeline_power (f : Timeline → Timeline) : (s.modTimeline f).power = s.power := rfl
@[simp] theorem State.modTimeline_ports (f : Timeline → Timeline) : (s.modTimeline f).ports = s.ports := rfl
@[simp] theorem State.modTimeline_voices (f : Timeline → Timeline) : (s.modTimeline f).voices = s.voices := rfl
@[simp] theorem State.modTimeline_chimePort (f : Timeline → Timeline) : (s.modTimeline f).chimePort = s.chimePort := rfl
@[simp] theorem State.modTimeline_entries (f : Timeline → Timeline) : (s.modTimeline f).entries = s.entries := rfl
@[simp] theorem State.modTimeline_nextSeq (f : Timeline → Timeline) : (s.modTimeline f).nextSeq = s.nextSeq := rfl
@[simp] theorem State.modTimeline_quotas (f : Timeline → Timeline) : (s.modTimeline f).quotas = s.quotas := rfl
@[simp] theorem State.modTimeline_bars (f : Timeline → Timeline) : (s.modTimeline f).bars = s.bars := rfl
@[simp] theorem State.modTimeline_strikers (f : Timeline → Timeline) : (s.modTimeline f).strikers = s.strikers := rfl
@[simp] theorem State.modTimeline_rails (f : Timeline → Timeline) : (s.modTimeline f).rails = s.rails := rfl
@[simp] theorem State.modTimeline_shaper (f : Timeline → Timeline) : (s.modTimeline f).shaper = s.shaper := rfl
@[simp] theorem State.modTimeline_dampers (f : Timeline → Timeline) : (s.modTimeline f).dampers = s.dampers := rfl
@[simp] theorem State.modTimeline_mem (f : Timeline → Timeline) : (s.modTimeline f).mem = s.mem := rfl
@[simp] theorem State.modTimeline_players (f : Timeline → Timeline) : (s.modTimeline f).players = s.players := rfl
@[simp] theorem State.modTimeline_sense (f : Timeline → Timeline) : (s.modTimeline f).sense = s.sense := rfl
@[simp] theorem State.modTimeline_stage (f : Timeline → Timeline) : (s.modTimeline f).stage = s.stage := rfl
@[simp] theorem State.modTimeline_decisions (f : Timeline → Timeline) : (s.modTimeline f).decisions = s.decisions := rfl
@[simp] theorem State.modTimeline_pending (f : Timeline → Timeline) : (s.modTimeline f).pending = s.pending := rfl
@[simp] theorem State.modTimeline_port (f : Timeline → Timeline) (i : PortId) : (s.modTimeline f).port i = s.port i := rfl
@[simp] theorem State.modTimeline_voice (f : Timeline → Timeline) (i : VoiceId) : (s.modTimeline f).voice i = s.voice i := rfl
@[simp] theorem State.modTimeline_bar (f : Timeline → Timeline) (i : BarId) : (s.modTimeline f).bar i = s.bar i := rfl
@[simp] theorem State.modTimeline_striker (f : Timeline → Timeline) (i : StrikerId) : (s.modTimeline f).striker i = s.striker i := rfl
@[simp] theorem State.modTimeline_rail (f : Timeline → Timeline) (i : RailId) : (s.modTimeline f).rail i = s.rail i := rfl
@[simp] theorem State.modTimeline_table (f : Timeline → Timeline) (i : TableId) : (s.modTimeline f).table i = s.table i := rfl
@[simp] theorem State.modTimeline_damper (f : Timeline → Timeline) (i : UnitId) : (s.modTimeline f).damper i = s.damper i := rfl
@[simp] theorem State.modTimeline_player (f : Timeline → Timeline) (i : VoiceId) : (s.modTimeline f).player i = s.player i := rfl

/-! ## modSense -/

@[simp] theorem State.modSense_now (f : Sense → Sense) : (s.modSense f).now = s.now := rfl
@[simp] theorem State.modSense_power (f : Sense → Sense) : (s.modSense f).power = s.power := rfl
@[simp] theorem State.modSense_ports (f : Sense → Sense) : (s.modSense f).ports = s.ports := rfl
@[simp] theorem State.modSense_timeline (f : Sense → Sense) : (s.modSense f).timeline = s.timeline := rfl
@[simp] theorem State.modSense_voices (f : Sense → Sense) : (s.modSense f).voices = s.voices := rfl
@[simp] theorem State.modSense_chimePort (f : Sense → Sense) : (s.modSense f).chimePort = s.chimePort := rfl
@[simp] theorem State.modSense_entries (f : Sense → Sense) : (s.modSense f).entries = s.entries := rfl
@[simp] theorem State.modSense_nextSeq (f : Sense → Sense) : (s.modSense f).nextSeq = s.nextSeq := rfl
@[simp] theorem State.modSense_quotas (f : Sense → Sense) : (s.modSense f).quotas = s.quotas := rfl
@[simp] theorem State.modSense_bars (f : Sense → Sense) : (s.modSense f).bars = s.bars := rfl
@[simp] theorem State.modSense_strikers (f : Sense → Sense) : (s.modSense f).strikers = s.strikers := rfl
@[simp] theorem State.modSense_rails (f : Sense → Sense) : (s.modSense f).rails = s.rails := rfl
@[simp] theorem State.modSense_shaper (f : Sense → Sense) : (s.modSense f).shaper = s.shaper := rfl
@[simp] theorem State.modSense_dampers (f : Sense → Sense) : (s.modSense f).dampers = s.dampers := rfl
@[simp] theorem State.modSense_mem (f : Sense → Sense) : (s.modSense f).mem = s.mem := rfl
@[simp] theorem State.modSense_players (f : Sense → Sense) : (s.modSense f).players = s.players := rfl
@[simp] theorem State.modSense_stage (f : Sense → Sense) : (s.modSense f).stage = s.stage := rfl
@[simp] theorem State.modSense_decisions (f : Sense → Sense) : (s.modSense f).decisions = s.decisions := rfl
@[simp] theorem State.modSense_pending (f : Sense → Sense) : (s.modSense f).pending = s.pending := rfl
@[simp] theorem State.modSense_port (f : Sense → Sense) (i : PortId) : (s.modSense f).port i = s.port i := rfl
@[simp] theorem State.modSense_voice (f : Sense → Sense) (i : VoiceId) : (s.modSense f).voice i = s.voice i := rfl
@[simp] theorem State.modSense_bar (f : Sense → Sense) (i : BarId) : (s.modSense f).bar i = s.bar i := rfl
@[simp] theorem State.modSense_striker (f : Sense → Sense) (i : StrikerId) : (s.modSense f).striker i = s.striker i := rfl
@[simp] theorem State.modSense_rail (f : Sense → Sense) (i : RailId) : (s.modSense f).rail i = s.rail i := rfl
@[simp] theorem State.modSense_table (f : Sense → Sense) (i : TableId) : (s.modSense f).table i = s.table i := rfl
@[simp] theorem State.modSense_damper (f : Sense → Sense) (i : UnitId) : (s.modSense f).damper i = s.damper i := rfl
@[simp] theorem State.modSense_player (f : Sense → Sense) (i : VoiceId) : (s.modSense f).player i = s.player i := rfl

/-! ## modStage -/

@[simp] theorem State.modStage_now (f : StageControl → StageControl) : (s.modStage f).now = s.now := rfl
@[simp] theorem State.modStage_power (f : StageControl → StageControl) : (s.modStage f).power = s.power := rfl
@[simp] theorem State.modStage_ports (f : StageControl → StageControl) : (s.modStage f).ports = s.ports := rfl
@[simp] theorem State.modStage_timeline (f : StageControl → StageControl) : (s.modStage f).timeline = s.timeline := rfl
@[simp] theorem State.modStage_voices (f : StageControl → StageControl) : (s.modStage f).voices = s.voices := rfl
@[simp] theorem State.modStage_chimePort (f : StageControl → StageControl) : (s.modStage f).chimePort = s.chimePort := rfl
@[simp] theorem State.modStage_entries (f : StageControl → StageControl) : (s.modStage f).entries = s.entries := rfl
@[simp] theorem State.modStage_nextSeq (f : StageControl → StageControl) : (s.modStage f).nextSeq = s.nextSeq := rfl
@[simp] theorem State.modStage_quotas (f : StageControl → StageControl) : (s.modStage f).quotas = s.quotas := rfl
@[simp] theorem State.modStage_bars (f : StageControl → StageControl) : (s.modStage f).bars = s.bars := rfl
@[simp] theorem State.modStage_strikers (f : StageControl → StageControl) : (s.modStage f).strikers = s.strikers := rfl
@[simp] theorem State.modStage_rails (f : StageControl → StageControl) : (s.modStage f).rails = s.rails := rfl
@[simp] theorem State.modStage_shaper (f : StageControl → StageControl) : (s.modStage f).shaper = s.shaper := rfl
@[simp] theorem State.modStage_dampers (f : StageControl → StageControl) : (s.modStage f).dampers = s.dampers := rfl
@[simp] theorem State.modStage_mem (f : StageControl → StageControl) : (s.modStage f).mem = s.mem := rfl
@[simp] theorem State.modStage_players (f : StageControl → StageControl) : (s.modStage f).players = s.players := rfl
@[simp] theorem State.modStage_sense (f : StageControl → StageControl) : (s.modStage f).sense = s.sense := rfl
@[simp] theorem State.modStage_decisions (f : StageControl → StageControl) : (s.modStage f).decisions = s.decisions := rfl
@[simp] theorem State.modStage_pending (f : StageControl → StageControl) : (s.modStage f).pending = s.pending := rfl
@[simp] theorem State.modStage_port (f : StageControl → StageControl) (i : PortId) : (s.modStage f).port i = s.port i := rfl
@[simp] theorem State.modStage_voice (f : StageControl → StageControl) (i : VoiceId) : (s.modStage f).voice i = s.voice i := rfl
@[simp] theorem State.modStage_bar (f : StageControl → StageControl) (i : BarId) : (s.modStage f).bar i = s.bar i := rfl
@[simp] theorem State.modStage_striker (f : StageControl → StageControl) (i : StrikerId) : (s.modStage f).striker i = s.striker i := rfl
@[simp] theorem State.modStage_rail (f : StageControl → StageControl) (i : RailId) : (s.modStage f).rail i = s.rail i := rfl
@[simp] theorem State.modStage_table (f : StageControl → StageControl) (i : TableId) : (s.modStage f).table i = s.table i := rfl
@[simp] theorem State.modStage_damper (f : StageControl → StageControl) (i : UnitId) : (s.modStage f).damper i = s.damper i := rfl
@[simp] theorem State.modStage_player (f : StageControl → StageControl) (i : VoiceId) : (s.modStage f).player i = s.player i := rfl

/-! ## modEntry -/

@[simp] theorem State.modEntry_now (k : SlotId) (f : Entry → Entry) : (s.modEntry k f).now = s.now := rfl
@[simp] theorem State.modEntry_power (k : SlotId) (f : Entry → Entry) : (s.modEntry k f).power = s.power := rfl
@[simp] theorem State.modEntry_ports (k : SlotId) (f : Entry → Entry) : (s.modEntry k f).ports = s.ports := rfl
@[simp] theorem State.modEntry_timeline (k : SlotId) (f : Entry → Entry) : (s.modEntry k f).timeline = s.timeline := rfl
@[simp] theorem State.modEntry_voices (k : SlotId) (f : Entry → Entry) : (s.modEntry k f).voices = s.voices := rfl
@[simp] theorem State.modEntry_chimePort (k : SlotId) (f : Entry → Entry) : (s.modEntry k f).chimePort = s.chimePort := rfl
@[simp] theorem State.modEntry_nextSeq (k : SlotId) (f : Entry → Entry) : (s.modEntry k f).nextSeq = s.nextSeq := rfl
@[simp] theorem State.modEntry_quotas (k : SlotId) (f : Entry → Entry) : (s.modEntry k f).quotas = s.quotas := rfl
@[simp] theorem State.modEntry_bars (k : SlotId) (f : Entry → Entry) : (s.modEntry k f).bars = s.bars := rfl
@[simp] theorem State.modEntry_strikers (k : SlotId) (f : Entry → Entry) : (s.modEntry k f).strikers = s.strikers := rfl
@[simp] theorem State.modEntry_rails (k : SlotId) (f : Entry → Entry) : (s.modEntry k f).rails = s.rails := rfl
@[simp] theorem State.modEntry_shaper (k : SlotId) (f : Entry → Entry) : (s.modEntry k f).shaper = s.shaper := rfl
@[simp] theorem State.modEntry_dampers (k : SlotId) (f : Entry → Entry) : (s.modEntry k f).dampers = s.dampers := rfl
@[simp] theorem State.modEntry_mem (k : SlotId) (f : Entry → Entry) : (s.modEntry k f).mem = s.mem := rfl
@[simp] theorem State.modEntry_players (k : SlotId) (f : Entry → Entry) : (s.modEntry k f).players = s.players := rfl
@[simp] theorem State.modEntry_sense (k : SlotId) (f : Entry → Entry) : (s.modEntry k f).sense = s.sense := rfl
@[simp] theorem State.modEntry_stage (k : SlotId) (f : Entry → Entry) : (s.modEntry k f).stage = s.stage := rfl
@[simp] theorem State.modEntry_decisions (k : SlotId) (f : Entry → Entry) : (s.modEntry k f).decisions = s.decisions := rfl
@[simp] theorem State.modEntry_pending (k : SlotId) (f : Entry → Entry) : (s.modEntry k f).pending = s.pending := rfl
@[simp] theorem State.modEntry_port (k : SlotId) (f : Entry → Entry) (i : PortId) : (s.modEntry k f).port i = s.port i := rfl
@[simp] theorem State.modEntry_voice (k : SlotId) (f : Entry → Entry) (i : VoiceId) : (s.modEntry k f).voice i = s.voice i := rfl
@[simp] theorem State.modEntry_bar (k : SlotId) (f : Entry → Entry) (i : BarId) : (s.modEntry k f).bar i = s.bar i := rfl
@[simp] theorem State.modEntry_striker (k : SlotId) (f : Entry → Entry) (i : StrikerId) : (s.modEntry k f).striker i = s.striker i := rfl
@[simp] theorem State.modEntry_rail (k : SlotId) (f : Entry → Entry) (i : RailId) : (s.modEntry k f).rail i = s.rail i := rfl
@[simp] theorem State.modEntry_table (k : SlotId) (f : Entry → Entry) (i : TableId) : (s.modEntry k f).table i = s.table i := rfl
@[simp] theorem State.modEntry_damper (k : SlotId) (f : Entry → Entry) (i : UnitId) : (s.modEntry k f).damper i = s.damper i := rfl
@[simp] theorem State.modEntry_player (k : SlotId) (f : Entry → Entry) (i : VoiceId) : (s.modEntry k f).player i = s.player i := rfl

/-! ## reach -/

@[simp] theorem State.reach_power (t : Nat) : (s.reach t).power = s.power := rfl
@[simp] theorem State.reach_ports (t : Nat) : (s.reach t).ports = s.ports := rfl
@[simp] theorem State.reach_timeline (t : Nat) : (s.reach t).timeline = s.timeline := rfl
@[simp] theorem State.reach_voices (t : Nat) : (s.reach t).voices = s.voices := rfl
@[simp] theorem State.reach_chimePort (t : Nat) : (s.reach t).chimePort = s.chimePort := rfl
@[simp] theorem State.reach_entries (t : Nat) : (s.reach t).entries = s.entries := rfl
@[simp] theorem State.reach_nextSeq (t : Nat) : (s.reach t).nextSeq = s.nextSeq := rfl
@[simp] theorem State.reach_quotas (t : Nat) : (s.reach t).quotas = s.quotas := rfl
@[simp] theorem State.reach_bars (t : Nat) : (s.reach t).bars = s.bars := rfl
@[simp] theorem State.reach_strikers (t : Nat) : (s.reach t).strikers = s.strikers := rfl
@[simp] theorem State.reach_rails (t : Nat) : (s.reach t).rails = s.rails := rfl
@[simp] theorem State.reach_shaper (t : Nat) : (s.reach t).shaper = s.shaper := rfl
@[simp] theorem State.reach_dampers (t : Nat) : (s.reach t).dampers = s.dampers := rfl
@[simp] theorem State.reach_mem (t : Nat) : (s.reach t).mem = s.mem := rfl
@[simp] theorem State.reach_players (t : Nat) : (s.reach t).players = s.players := rfl
@[simp] theorem State.reach_sense (t : Nat) : (s.reach t).sense = s.sense := rfl
@[simp] theorem State.reach_stage (t : Nat) : (s.reach t).stage = s.stage := rfl
@[simp] theorem State.reach_decisions (t : Nat) : (s.reach t).decisions = s.decisions := rfl
@[simp] theorem State.reach_pending (t : Nat) : (s.reach t).pending = s.pending := rfl
@[simp] theorem State.reach_port (t : Nat) (i : PortId) : (s.reach t).port i = s.port i := rfl
@[simp] theorem State.reach_voice (t : Nat) (i : VoiceId) : (s.reach t).voice i = s.voice i := rfl
@[simp] theorem State.reach_bar (t : Nat) (i : BarId) : (s.reach t).bar i = s.bar i := rfl
@[simp] theorem State.reach_striker (t : Nat) (i : StrikerId) : (s.reach t).striker i = s.striker i := rfl
@[simp] theorem State.reach_rail (t : Nat) (i : RailId) : (s.reach t).rail i = s.rail i := rfl
@[simp] theorem State.reach_table (t : Nat) (i : TableId) : (s.reach t).table i = s.table i := rfl
@[simp] theorem State.reach_damper (t : Nat) (i : UnitId) : (s.reach t).damper i = s.damper i := rfl
@[simp] theorem State.reach_player (t : Nat) (i : VoiceId) : (s.reach t).player i = s.player i := rfl

/-! ## wake -/

@[simp] theorem State.wake_now (r : RailId) : (s.wake r).now = s.now := rfl
@[simp] theorem State.wake_power (r : RailId) : (s.wake r).power = s.power := rfl
@[simp] theorem State.wake_ports (r : RailId) : (s.wake r).ports = s.ports := rfl
@[simp] theorem State.wake_timeline (r : RailId) : (s.wake r).timeline = s.timeline := rfl
@[simp] theorem State.wake_voices (r : RailId) : (s.wake r).voices = s.voices := rfl
@[simp] theorem State.wake_chimePort (r : RailId) : (s.wake r).chimePort = s.chimePort := rfl
@[simp] theorem State.wake_entries (r : RailId) : (s.wake r).entries = s.entries := rfl
@[simp] theorem State.wake_nextSeq (r : RailId) : (s.wake r).nextSeq = s.nextSeq := rfl
@[simp] theorem State.wake_quotas (r : RailId) : (s.wake r).quotas = s.quotas := rfl
@[simp] theorem State.wake_bars (r : RailId) : (s.wake r).bars = s.bars := rfl
@[simp] theorem State.wake_strikers (r : RailId) : (s.wake r).strikers = s.strikers := rfl
@[simp] theorem State.wake_rails (r : RailId) : (s.wake r).rails = s.rails := rfl
@[simp] theorem State.wake_shaper (r : RailId) : (s.wake r).shaper = s.shaper := rfl
@[simp] theorem State.wake_dampers (r : RailId) : (s.wake r).dampers = s.dampers := rfl
@[simp] theorem State.wake_mem (r : RailId) : (s.wake r).mem = s.mem := rfl
@[simp] theorem State.wake_players (r : RailId) : (s.wake r).players = s.players := rfl
@[simp] theorem State.wake_sense (r : RailId) : (s.wake r).sense = s.sense := rfl
@[simp] theorem State.wake_stage (r : RailId) : (s.wake r).stage = s.stage := rfl
@[simp] theorem State.wake_pending (r : RailId) : (s.wake r).pending = s.pending := rfl
@[simp] theorem State.wake_port (r : RailId) (i : PortId) : (s.wake r).port i = s.port i := rfl
@[simp] theorem State.wake_voice (r : RailId) (i : VoiceId) : (s.wake r).voice i = s.voice i := rfl
@[simp] theorem State.wake_bar (r : RailId) (i : BarId) : (s.wake r).bar i = s.bar i := rfl
@[simp] theorem State.wake_striker (r : RailId) (i : StrikerId) : (s.wake r).striker i = s.striker i := rfl
@[simp] theorem State.wake_rail (r : RailId) (i : RailId) : (s.wake r).rail i = s.rail i := rfl
@[simp] theorem State.wake_table (r : RailId) (i : TableId) : (s.wake r).table i = s.table i := rfl
@[simp] theorem State.wake_damper (r : RailId) (i : UnitId) : (s.wake r).damper i = s.damper i := rfl
@[simp] theorem State.wake_player (r : RailId) (i : VoiceId) : (s.wake r).player i = s.player i := rfl

/-! ## raise -/

@[simp] theorem State.raise_now (x : Notice) (p : PortId) : (s.raise x p).now = s.now := rfl
@[simp] theorem State.raise_power (x : Notice) (p : PortId) : (s.raise x p).power = s.power := rfl
@[simp] theorem State.raise_timeline (x : Notice) (p : PortId) : (s.raise x p).timeline = s.timeline := rfl
@[simp] theorem State.raise_voices (x : Notice) (p : PortId) : (s.raise x p).voices = s.voices := rfl
@[simp] theorem State.raise_chimePort (x : Notice) (p : PortId) : (s.raise x p).chimePort = s.chimePort := rfl
@[simp] theorem State.raise_entries (x : Notice) (p : PortId) : (s.raise x p).entries = s.entries := rfl
@[simp] theorem State.raise_nextSeq (x : Notice) (p : PortId) : (s.raise x p).nextSeq = s.nextSeq := rfl
@[simp] theorem State.raise_quotas (x : Notice) (p : PortId) : (s.raise x p).quotas = s.quotas := rfl
@[simp] theorem State.raise_bars (x : Notice) (p : PortId) : (s.raise x p).bars = s.bars := rfl
@[simp] theorem State.raise_strikers (x : Notice) (p : PortId) : (s.raise x p).strikers = s.strikers := rfl
@[simp] theorem State.raise_rails (x : Notice) (p : PortId) : (s.raise x p).rails = s.rails := rfl
@[simp] theorem State.raise_shaper (x : Notice) (p : PortId) : (s.raise x p).shaper = s.shaper := rfl
@[simp] theorem State.raise_dampers (x : Notice) (p : PortId) : (s.raise x p).dampers = s.dampers := rfl
@[simp] theorem State.raise_mem (x : Notice) (p : PortId) : (s.raise x p).mem = s.mem := rfl
@[simp] theorem State.raise_players (x : Notice) (p : PortId) : (s.raise x p).players = s.players := rfl
@[simp] theorem State.raise_sense (x : Notice) (p : PortId) : (s.raise x p).sense = s.sense := rfl
@[simp] theorem State.raise_stage (x : Notice) (p : PortId) : (s.raise x p).stage = s.stage := rfl
@[simp] theorem State.raise_decisions (x : Notice) (p : PortId) : (s.raise x p).decisions = s.decisions := rfl
@[simp] theorem State.raise_pending (x : Notice) (p : PortId) : (s.raise x p).pending = s.pending := rfl
@[simp] theorem State.raise_voice (x : Notice) (p : PortId) (i : VoiceId) : (s.raise x p).voice i = s.voice i := rfl
@[simp] theorem State.raise_bar (x : Notice) (p : PortId) (i : BarId) : (s.raise x p).bar i = s.bar i := rfl
@[simp] theorem State.raise_striker (x : Notice) (p : PortId) (i : StrikerId) : (s.raise x p).striker i = s.striker i := rfl
@[simp] theorem State.raise_rail (x : Notice) (p : PortId) (i : RailId) : (s.raise x p).rail i = s.rail i := rfl
@[simp] theorem State.raise_table (x : Notice) (p : PortId) (i : TableId) : (s.raise x p).table i = s.table i := rfl
@[simp] theorem State.raise_damper (x : Notice) (p : PortId) (i : UnitId) : (s.raise x p).damper i = s.damper i := rfl
@[simp] theorem State.raise_player (x : Notice) (p : PortId) (i : VoiceId) : (s.raise x p).player i = s.player i := rfl

/-! ## raiseAll -/

@[simp] theorem State.raiseAll_now (x : Notice) : (s.raiseAll x).now = s.now := rfl
@[simp] theorem State.raiseAll_power (x : Notice) : (s.raiseAll x).power = s.power := rfl
@[simp] theorem State.raiseAll_timeline (x : Notice) : (s.raiseAll x).timeline = s.timeline := rfl
@[simp] theorem State.raiseAll_voices (x : Notice) : (s.raiseAll x).voices = s.voices := rfl
@[simp] theorem State.raiseAll_chimePort (x : Notice) : (s.raiseAll x).chimePort = s.chimePort := rfl
@[simp] theorem State.raiseAll_entries (x : Notice) : (s.raiseAll x).entries = s.entries := rfl
@[simp] theorem State.raiseAll_nextSeq (x : Notice) : (s.raiseAll x).nextSeq = s.nextSeq := rfl
@[simp] theorem State.raiseAll_quotas (x : Notice) : (s.raiseAll x).quotas = s.quotas := rfl
@[simp] theorem State.raiseAll_bars (x : Notice) : (s.raiseAll x).bars = s.bars := rfl
@[simp] theorem State.raiseAll_strikers (x : Notice) : (s.raiseAll x).strikers = s.strikers := rfl
@[simp] theorem State.raiseAll_rails (x : Notice) : (s.raiseAll x).rails = s.rails := rfl
@[simp] theorem State.raiseAll_shaper (x : Notice) : (s.raiseAll x).shaper = s.shaper := rfl
@[simp] theorem State.raiseAll_dampers (x : Notice) : (s.raiseAll x).dampers = s.dampers := rfl
@[simp] theorem State.raiseAll_mem (x : Notice) : (s.raiseAll x).mem = s.mem := rfl
@[simp] theorem State.raiseAll_players (x : Notice) : (s.raiseAll x).players = s.players := rfl
@[simp] theorem State.raiseAll_sense (x : Notice) : (s.raiseAll x).sense = s.sense := rfl
@[simp] theorem State.raiseAll_stage (x : Notice) : (s.raiseAll x).stage = s.stage := rfl
@[simp] theorem State.raiseAll_decisions (x : Notice) : (s.raiseAll x).decisions = s.decisions := rfl
@[simp] theorem State.raiseAll_pending (x : Notice) : (s.raiseAll x).pending = s.pending := rfl
@[simp] theorem State.raiseAll_voice (x : Notice) (i : VoiceId) : (s.raiseAll x).voice i = s.voice i := rfl
@[simp] theorem State.raiseAll_bar (x : Notice) (i : BarId) : (s.raiseAll x).bar i = s.bar i := rfl
@[simp] theorem State.raiseAll_striker (x : Notice) (i : StrikerId) : (s.raiseAll x).striker i = s.striker i := rfl
@[simp] theorem State.raiseAll_rail (x : Notice) (i : RailId) : (s.raiseAll x).rail i = s.rail i := rfl
@[simp] theorem State.raiseAll_table (x : Notice) (i : TableId) : (s.raiseAll x).table i = s.table i := rfl
@[simp] theorem State.raiseAll_damper (x : Notice) (i : UnitId) : (s.raiseAll x).damper i = s.damper i := rfl
@[simp] theorem State.raiseAll_player (x : Notice) (i : VoiceId) : (s.raiseAll x).player i = s.player i := rfl

/-! ## allDampers -/

@[simp] theorem State.allDampers_now (f : Damper → Damper) : (s.allDampers f).now = s.now := rfl
@[simp] theorem State.allDampers_power (f : Damper → Damper) : (s.allDampers f).power = s.power := rfl
@[simp] theorem State.allDampers_ports (f : Damper → Damper) : (s.allDampers f).ports = s.ports := rfl
@[simp] theorem State.allDampers_timeline (f : Damper → Damper) : (s.allDampers f).timeline = s.timeline := rfl
@[simp] theorem State.allDampers_voices (f : Damper → Damper) : (s.allDampers f).voices = s.voices := rfl
@[simp] theorem State.allDampers_chimePort (f : Damper → Damper) : (s.allDampers f).chimePort = s.chimePort := rfl
@[simp] theorem State.allDampers_entries (f : Damper → Damper) : (s.allDampers f).entries = s.entries := rfl
@[simp] theorem State.allDampers_nextSeq (f : Damper → Damper) : (s.allDampers f).nextSeq = s.nextSeq := rfl
@[simp] theorem State.allDampers_quotas (f : Damper → Damper) : (s.allDampers f).quotas = s.quotas := rfl
@[simp] theorem State.allDampers_bars (f : Damper → Damper) : (s.allDampers f).bars = s.bars := rfl
@[simp] theorem State.allDampers_strikers (f : Damper → Damper) : (s.allDampers f).strikers = s.strikers := rfl
@[simp] theorem State.allDampers_rails (f : Damper → Damper) : (s.allDampers f).rails = s.rails := rfl
@[simp] theorem State.allDampers_shaper (f : Damper → Damper) : (s.allDampers f).shaper = s.shaper := rfl
@[simp] theorem State.allDampers_mem (f : Damper → Damper) : (s.allDampers f).mem = s.mem := rfl
@[simp] theorem State.allDampers_players (f : Damper → Damper) : (s.allDampers f).players = s.players := rfl
@[simp] theorem State.allDampers_sense (f : Damper → Damper) : (s.allDampers f).sense = s.sense := rfl
@[simp] theorem State.allDampers_stage (f : Damper → Damper) : (s.allDampers f).stage = s.stage := rfl
@[simp] theorem State.allDampers_decisions (f : Damper → Damper) : (s.allDampers f).decisions = s.decisions := rfl
@[simp] theorem State.allDampers_pending (f : Damper → Damper) : (s.allDampers f).pending = s.pending := rfl
@[simp] theorem State.allDampers_port (f : Damper → Damper) (i : PortId) : (s.allDampers f).port i = s.port i := rfl
@[simp] theorem State.allDampers_voice (f : Damper → Damper) (i : VoiceId) : (s.allDampers f).voice i = s.voice i := rfl
@[simp] theorem State.allDampers_bar (f : Damper → Damper) (i : BarId) : (s.allDampers f).bar i = s.bar i := rfl
@[simp] theorem State.allDampers_striker (f : Damper → Damper) (i : StrikerId) : (s.allDampers f).striker i = s.striker i := rfl
@[simp] theorem State.allDampers_rail (f : Damper → Damper) (i : RailId) : (s.allDampers f).rail i = s.rail i := rfl
@[simp] theorem State.allDampers_table (f : Damper → Damper) (i : TableId) : (s.allDampers f).table i = s.table i := rfl
@[simp] theorem State.allDampers_player (f : Damper → Damper) (i : VoiceId) : (s.allDampers f).player i = s.player i := rfl

/-! ## fittedRails -/

@[simp] theorem State.fittedRails_now (f : Rail → Rail) : (s.fittedRails f).now = s.now := rfl
@[simp] theorem State.fittedRails_power (f : Rail → Rail) : (s.fittedRails f).power = s.power := rfl
@[simp] theorem State.fittedRails_ports (f : Rail → Rail) : (s.fittedRails f).ports = s.ports := rfl
@[simp] theorem State.fittedRails_timeline (f : Rail → Rail) : (s.fittedRails f).timeline = s.timeline := rfl
@[simp] theorem State.fittedRails_voices (f : Rail → Rail) : (s.fittedRails f).voices = s.voices := rfl
@[simp] theorem State.fittedRails_chimePort (f : Rail → Rail) : (s.fittedRails f).chimePort = s.chimePort := rfl
@[simp] theorem State.fittedRails_entries (f : Rail → Rail) : (s.fittedRails f).entries = s.entries := rfl
@[simp] theorem State.fittedRails_nextSeq (f : Rail → Rail) : (s.fittedRails f).nextSeq = s.nextSeq := rfl
@[simp] theorem State.fittedRails_quotas (f : Rail → Rail) : (s.fittedRails f).quotas = s.quotas := rfl
@[simp] theorem State.fittedRails_bars (f : Rail → Rail) : (s.fittedRails f).bars = s.bars := rfl
@[simp] theorem State.fittedRails_strikers (f : Rail → Rail) : (s.fittedRails f).strikers = s.strikers := rfl
@[simp] theorem State.fittedRails_shaper (f : Rail → Rail) : (s.fittedRails f).shaper = s.shaper := rfl
@[simp] theorem State.fittedRails_dampers (f : Rail → Rail) : (s.fittedRails f).dampers = s.dampers := rfl
@[simp] theorem State.fittedRails_mem (f : Rail → Rail) : (s.fittedRails f).mem = s.mem := rfl
@[simp] theorem State.fittedRails_players (f : Rail → Rail) : (s.fittedRails f).players = s.players := rfl
@[simp] theorem State.fittedRails_sense (f : Rail → Rail) : (s.fittedRails f).sense = s.sense := rfl
@[simp] theorem State.fittedRails_stage (f : Rail → Rail) : (s.fittedRails f).stage = s.stage := rfl
@[simp] theorem State.fittedRails_decisions (f : Rail → Rail) : (s.fittedRails f).decisions = s.decisions := rfl
@[simp] theorem State.fittedRails_pending (f : Rail → Rail) : (s.fittedRails f).pending = s.pending := rfl
@[simp] theorem State.fittedRails_port (f : Rail → Rail) (i : PortId) : (s.fittedRails f).port i = s.port i := rfl
@[simp] theorem State.fittedRails_voice (f : Rail → Rail) (i : VoiceId) : (s.fittedRails f).voice i = s.voice i := rfl
@[simp] theorem State.fittedRails_bar (f : Rail → Rail) (i : BarId) : (s.fittedRails f).bar i = s.bar i := rfl
@[simp] theorem State.fittedRails_striker (f : Rail → Rail) (i : StrikerId) : (s.fittedRails f).striker i = s.striker i := rfl
@[simp] theorem State.fittedRails_table (f : Rail → Rail) (i : TableId) : (s.fittedRails f).table i = s.table i := rfl
@[simp] theorem State.fittedRails_damper (f : Rail → Rail) (i : UnitId) : (s.fittedRails f).damper i = s.damper i := rfl
@[simp] theorem State.fittedRails_player (f : Rail → Rail) (i : VoiceId) : (s.fittedRails f).player i = s.player i := rfl

/-! ## tell -/

@[simp] theorem State.tell_now (f : VoiceId → Bool) : (s.tell f).now = s.now := rfl
@[simp] theorem State.tell_power (f : VoiceId → Bool) : (s.tell f).power = s.power := rfl
@[simp] theorem State.tell_ports (f : VoiceId → Bool) : (s.tell f).ports = s.ports := rfl
@[simp] theorem State.tell_timeline (f : VoiceId → Bool) : (s.tell f).timeline = s.timeline := rfl
@[simp] theorem State.tell_voices (f : VoiceId → Bool) : (s.tell f).voices = s.voices := rfl
@[simp] theorem State.tell_chimePort (f : VoiceId → Bool) : (s.tell f).chimePort = s.chimePort := rfl
@[simp] theorem State.tell_entries (f : VoiceId → Bool) : (s.tell f).entries = s.entries := rfl
@[simp] theorem State.tell_nextSeq (f : VoiceId → Bool) : (s.tell f).nextSeq = s.nextSeq := rfl
@[simp] theorem State.tell_quotas (f : VoiceId → Bool) : (s.tell f).quotas = s.quotas := rfl
@[simp] theorem State.tell_bars (f : VoiceId → Bool) : (s.tell f).bars = s.bars := rfl
@[simp] theorem State.tell_strikers (f : VoiceId → Bool) : (s.tell f).strikers = s.strikers := rfl
@[simp] theorem State.tell_rails (f : VoiceId → Bool) : (s.tell f).rails = s.rails := rfl
@[simp] theorem State.tell_shaper (f : VoiceId → Bool) : (s.tell f).shaper = s.shaper := rfl
@[simp] theorem State.tell_dampers (f : VoiceId → Bool) : (s.tell f).dampers = s.dampers := rfl
@[simp] theorem State.tell_mem (f : VoiceId → Bool) : (s.tell f).mem = s.mem := rfl
@[simp] theorem State.tell_sense (f : VoiceId → Bool) : (s.tell f).sense = s.sense := rfl
@[simp] theorem State.tell_stage (f : VoiceId → Bool) : (s.tell f).stage = s.stage := rfl
@[simp] theorem State.tell_decisions (f : VoiceId → Bool) : (s.tell f).decisions = s.decisions := rfl
@[simp] theorem State.tell_pending (f : VoiceId → Bool) : (s.tell f).pending = s.pending := rfl
@[simp] theorem State.tell_port (f : VoiceId → Bool) (i : PortId) : (s.tell f).port i = s.port i := rfl
@[simp] theorem State.tell_voice (f : VoiceId → Bool) (i : VoiceId) : (s.tell f).voice i = s.voice i := rfl
@[simp] theorem State.tell_bar (f : VoiceId → Bool) (i : BarId) : (s.tell f).bar i = s.bar i := rfl
@[simp] theorem State.tell_striker (f : VoiceId → Bool) (i : StrikerId) : (s.tell f).striker i = s.striker i := rfl
@[simp] theorem State.tell_rail (f : VoiceId → Bool) (i : RailId) : (s.tell f).rail i = s.rail i := rfl
@[simp] theorem State.tell_table (f : VoiceId → Bool) (i : TableId) : (s.tell f).table i = s.table i := rfl
@[simp] theorem State.tell_damper (f : VoiceId → Bool) (i : UnitId) : (s.tell f).damper i = s.damper i := rfl

/-! ## withQueue -/

@[simp] theorem State.withQueue_now (q : List Instr) : (s.withQueue q).now = s.now := rfl
@[simp] theorem State.withQueue_power (q : List Instr) : (s.withQueue q).power = s.power := rfl
@[simp] theorem State.withQueue_ports (q : List Instr) : (s.withQueue q).ports = s.ports := rfl
@[simp] theorem State.withQueue_timeline (q : List Instr) : (s.withQueue q).timeline = s.timeline := rfl
@[simp] theorem State.withQueue_voices (q : List Instr) : (s.withQueue q).voices = s.voices := rfl
@[simp] theorem State.withQueue_chimePort (q : List Instr) : (s.withQueue q).chimePort = s.chimePort := rfl
@[simp] theorem State.withQueue_entries (q : List Instr) : (s.withQueue q).entries = s.entries := rfl
@[simp] theorem State.withQueue_nextSeq (q : List Instr) : (s.withQueue q).nextSeq = s.nextSeq := rfl
@[simp] theorem State.withQueue_quotas (q : List Instr) : (s.withQueue q).quotas = s.quotas := rfl
@[simp] theorem State.withQueue_bars (q : List Instr) : (s.withQueue q).bars = s.bars := rfl
@[simp] theorem State.withQueue_strikers (q : List Instr) : (s.withQueue q).strikers = s.strikers := rfl
@[simp] theorem State.withQueue_rails (q : List Instr) : (s.withQueue q).rails = s.rails := rfl
@[simp] theorem State.withQueue_shaper (q : List Instr) : (s.withQueue q).shaper = s.shaper := rfl
@[simp] theorem State.withQueue_dampers (q : List Instr) : (s.withQueue q).dampers = s.dampers := rfl
@[simp] theorem State.withQueue_mem (q : List Instr) : (s.withQueue q).mem = s.mem := rfl
@[simp] theorem State.withQueue_players (q : List Instr) : (s.withQueue q).players = s.players := rfl
@[simp] theorem State.withQueue_sense (q : List Instr) : (s.withQueue q).sense = s.sense := rfl
@[simp] theorem State.withQueue_stage (q : List Instr) : (s.withQueue q).stage = s.stage := rfl
@[simp] theorem State.withQueue_decisions (q : List Instr) : (s.withQueue q).decisions = s.decisions := rfl
@[simp] theorem State.withQueue_port (q : List Instr) (i : PortId) : (s.withQueue q).port i = s.port i := rfl
@[simp] theorem State.withQueue_voice (q : List Instr) (i : VoiceId) : (s.withQueue q).voice i = s.voice i := rfl
@[simp] theorem State.withQueue_bar (q : List Instr) (i : BarId) : (s.withQueue q).bar i = s.bar i := rfl
@[simp] theorem State.withQueue_striker (q : List Instr) (i : StrikerId) : (s.withQueue q).striker i = s.striker i := rfl
@[simp] theorem State.withQueue_rail (q : List Instr) (i : RailId) : (s.withQueue q).rail i = s.rail i := rfl
@[simp] theorem State.withQueue_table (q : List Instr) (i : TableId) : (s.withQueue q).table i = s.table i := rfl
@[simp] theorem State.withQueue_damper (q : List Instr) (i : UnitId) : (s.withQueue q).damper i = s.damper i := rfl
@[simp] theorem State.withQueue_player (q : List Instr) (i : VoiceId) : (s.withQueue q).player i = s.player i := rfl

/-! ## What each update writes -/

@[simp] theorem State.modPort_port (p q : PortId) (f : Port → Port) :
    (s.modPort p f).port q = if q = p then f (s.port p) else s.port q := Bank.look_put _ _ _ _
@[simp] theorem State.modVoice_voice (v u : VoiceId) (f : Voice → Voice) :
    (s.modVoice v f).voice u = if u = v then f (s.voice v) else s.voice u := Bank.look_put _ _ _ _
@[simp] theorem State.modBar_bar (b c : BarId) (f : Bar → Bar) :
    (s.modBar b f).bar c = if c = b then f (s.bar b) else s.bar c := Bank.look_put _ _ _ _
@[simp] theorem State.modStriker_striker (n m : StrikerId) (f : Striker → Striker) :
    (s.modStriker n f).striker m = if m = n then f (s.striker n) else s.striker m := Bank.look_put _ _ _ _
@[simp] theorem State.modRail_rail (r q : RailId) (f : Rail → Rail) :
    (s.modRail r f).rail q = if q = r then f (s.rail r) else s.rail q := Bank.look_put _ _ _ _
@[simp] theorem State.modDamper_damper (u v : UnitId) (f : Damper → Damper) :
    (s.modDamper u f).damper v = if v = u then f (s.damper u) else s.damper v := Bank.look_put _ _ _ _
@[simp] theorem State.modPlayer_player (v u : VoiceId) (f : Player → Player) :
    (s.modPlayer v f).player u = if u = v then f (s.player v) else s.player u := Bank.look_put _ _ _ _
@[simp] theorem State.modTable_table (t u : TableId) (f : CurveTable → CurveTable) :
    (s.modTable t f).table u = if u = t then f (s.table t) else s.table u := Bank.look_put _ _ _ _
@[simp] theorem State.modTimeline_timeline (f : Timeline → Timeline) : (s.modTimeline f).timeline = f s.timeline := rfl
@[simp] theorem State.modSense_sense (f : Sense → Sense) : (s.modSense f).sense = f s.sense := rfl
@[simp] theorem State.modStage_stage (f : StageControl → StageControl) : (s.modStage f).stage = f s.stage := rfl
@[simp] theorem State.modTable_mode (t : TableId) (f : CurveTable → CurveTable) :
    (s.modTable t f).shaper.mode = s.shaper.mode := rfl
@[simp] theorem State.reach_now (t : Nat) : (s.reach t).now = max s.now t := rfl
@[simp] theorem State.wake_decisions (r : RailId) : (s.wake r).decisions = s.decisions ++ [r] := rfl
@[simp] theorem State.raiseAll_port (x : Notice) (p : PortId) : (s.raiseAll x).port p = (s.port p).raise x :=
  Bank.look_mapWith _ _ _
@[simp] theorem State.raise_port (x : Notice) (p q : PortId) :
    (s.raise x p).port q = if q = p then (s.port p).raise x else s.port q := Bank.look_put _ _ _ _
@[simp] theorem State.allDampers_damper (f : Damper → Damper) (u : UnitId) :
    (s.allDampers f).damper u = f (s.damper u) := Bank.look_mapWith _ _ _
@[simp] theorem State.fittedRails_rail (f : Rail → Rail) (r : RailId) :
    (s.fittedRails f).rail r = if (s.rail r).fitted then f (s.rail r) else s.rail r := Bank.look_mapWith _ _ _
@[simp] theorem State.tell_player (f : VoiceId → Bool) (v : VoiceId) :
    (s.tell f).player v =
      if (s.player v).state = .stalled && f v then { s.player v with told := true } else s.player v := Bank.look_mapWith _ _ _
@[simp] theorem State.withQueue_pending (q : List Instr) : (s.withQueue q).pending = q := rfl

end Sys2Proof.Machine
end

