-- ==== Sys2Proof/Laws/Kept.lean ====
section
/-! SUPPORT. What the calendar, the arbiters, the strikers, the sense unit and the players leave as it was, whatever they do: one
relation, and one lemma for each of their operations. -/
namespace Sys2Proof.Machine

/-- The state `t` has these fields as `s` has them. -/
structure Kept (s t : State) : Prop where
  now : t.now = s.now
  power : t.power = s.power
  timeline : t.timeline = s.timeline
  chimePort : t.chimePort = s.chimePort
  quotas : t.quotas = s.quotas
  bars : t.bars = s.bars
  shaper : t.shaper = s.shaper
  mem : t.mem = s.mem
  stage : t.stage = s.stage
  pending : t.pending = s.pending

namespace Kept

variable {s t u : State}

theorem rfl' : Kept s s := ⟨rfl, rfl, rfl, rfl, rfl, rfl, rfl, rfl, rfl, rfl⟩

theorem trans (h : Kept s t) (g : Kept t u) : Kept s u :=
  ⟨g.now.trans h.now, g.power.trans h.power, g.timeline.trans h.timeline, g.chimePort.trans h.chimePort,
    g.quotas.trans h.quotas, g.bars.trans h.bars, g.shaper.trans h.shaper, g.mem.trans h.mem, g.stage.trans h.stage,
    g.pending.trans h.pending⟩

/-- Both ways of a choice keep the fields. -/
theorem ite {c : Prop} [Decidable c] (h : Kept s t) (g : Kept s u) : Kept s (if c then t else u) := by
  split
  · exact h
  · exact g

/-- Both ways of a choice keep the fields, where the choice carries a second value. -/
theorem ite_fst {α : Type} {c : Prop} [Decidable c] {x y : State × α} (h : Kept s x.1) (g : Kept s y.1) :
    Kept s (if c then x else y).1 := by
  split
  · exact h
  · exact g

end Kept

variable (s : State)

/-! ## Updates -/

theorem State.modPort_kept (p : PortId) (f : Port → Port) : Kept s (s.modPort p f) := ⟨rfl, rfl, rfl, rfl, rfl, rfl, rfl, rfl, rfl, rfl⟩
theorem State.modVoice_kept (v : VoiceId) (f : Voice → Voice) : Kept s (s.modVoice v f) :=
  ⟨rfl, rfl, rfl, rfl, rfl, rfl, rfl, rfl, rfl, rfl⟩
theorem State.modStriker_kept (n : StrikerId) (f : Striker → Striker) : Kept s (s.modStriker n f) :=
  ⟨rfl, rfl, rfl, rfl, rfl, rfl, rfl, rfl, rfl, rfl⟩
theorem State.modRail_kept (r : RailId) (f : Rail → Rail) : Kept s (s.modRail r f) :=
  ⟨rfl, rfl, rfl, rfl, rfl, rfl, rfl, rfl, rfl, rfl⟩
theorem State.modDamper_kept (u : UnitId) (f : Damper → Damper) : Kept s (s.modDamper u f) :=
  ⟨rfl, rfl, rfl, rfl, rfl, rfl, rfl, rfl, rfl, rfl⟩
theorem State.modPlayer_kept (v : VoiceId) (f : Player → Player) : Kept s (s.modPlayer v f) :=
  ⟨rfl, rfl, rfl, rfl, rfl, rfl, rfl, rfl, rfl, rfl⟩
theorem State.modSense_kept (f : Sense → Sense) : Kept s (s.modSense f) := ⟨rfl, rfl, rfl, rfl, rfl, rfl, rfl, rfl, rfl, rfl⟩
theorem State.modEntry_kept (k : SlotId) (f : Entry → Entry) : Kept s (s.modEntry k f) :=
  ⟨rfl, rfl, rfl, rfl, rfl, rfl, rfl, rfl, rfl, rfl⟩
theorem State.wake_kept (r : RailId) : Kept s (s.wake r) := ⟨rfl, rfl, rfl, rfl, rfl, rfl, rfl, rfl, rfl, rfl⟩
theorem State.tell_kept (f : VoiceId → Bool) : Kept s (s.tell f) := ⟨rfl, rfl, rfl, rfl, rfl, rfl, rfl, rfl, rfl, rfl⟩
theorem State.raise_kept (x : Notice) (p : PortId) : Kept s (s.raise x p) := ⟨rfl, rfl, rfl, rfl, rfl, rfl, rfl, rfl, rfl, rfl⟩
theorem State.raiseAll_kept (x : Notice) : Kept s (s.raiseAll x) := ⟨rfl, rfl, rfl, rfl, rfl, rfl, rfl, rfl, rfl, rfl⟩
theorem State.allDampers_kept (f : Damper → Damper) : Kept s (s.allDampers f) := ⟨rfl, rfl, rfl, rfl, rfl, rfl, rfl, rfl, rfl, rfl⟩
theorem State.fittedRails_kept (f : Rail → Rail) : Kept s (s.fittedRails f) := ⟨rfl, rfl, rfl, rfl, rfl, rfl, rfl, rfl, rfl, rfl⟩
theorem State.withEntries_kept (l : List Entry) : Kept s { s with entries := l } := ⟨rfl, rfl, rfl, rfl, rfl, rfl, rfl, rfl, rfl, rfl⟩
theorem State.withDecisions_kept (l : List RailId) : Kept s { s with decisions := l } :=
  ⟨rfl, rfl, rfl, rfl, rfl, rfl, rfl, rfl, rfl, rfl⟩
theorem State.withAdmitted_kept (l : List Entry) (n : Nat) : Kept s { s with entries := l, nextSeq := n } :=
  ⟨rfl, rfl, rfl, rfl, rfl, rfl, rfl, rfl, rfl, rfl⟩
theorem State.withStrikers_kept (b : Bank Striker 96) : Kept s { s with strikers := b } :=
  ⟨rfl, rfl, rfl, rfl, rfl, rfl, rfl, rfl, rfl, rfl⟩

/-! ## The calendar -/

theorem State.leave_kept (k : SlotId) (o : EntryOutcome) : Kept s (s.leave k o) := by
  unfold State.leave
  split
  · exact Kept.rfl'
  · exact (Kept.ite ((s.withEntries_kept _).trans (State.modPort_kept _ _ _)) (s.withEntries_kept _)).trans
      (State.tell_kept _ _)

theorem State.leaveAll_kept (o : EntryOutcome) (l : List SlotId) : Kept s (State.leaveAll o l s) := by
  induction l generalizing s with
  | nil => exact Kept.rfl'
  | cons k rest ih => exact (s.leave_kept k o).trans (ih _)

theorem State.placeHold_kept (b : BarId) (v : VoiceId) (t : Nat) : Kept s (s.placeHold b v t) := by
  unfold State.placeHold
  split
  · split
    · exact Kept.rfl'
    · exact s.modDamper_kept _ _
  · exact Kept.rfl'

theorem State.join_kept (k : SlotId) (t d : Nat) : Kept s (s.join k t d) := by
  unfold State.join
  split
  · exact Kept.rfl'
  · rename_i e _
    have h1 := s.modEntry_kept k (fun d' => { d' with
      state := .released, target := some t, deadline := some d, targetReached := t ≤ s.now })
    have h2 : Kept s (match e.sustain with
        | some n => (s.modEntry k (fun d' => { d' with
            state := .released, target := some t, deadline := some d, targetReached := t ≤ s.now })).placeHold e.bar e.voice
            (e.due + n)
        | none => s.modEntry k (fun d' => { d' with
            state := .released, target := some t, deadline := some d, targetReached := t ≤ s.now })) := by
      split
      · exact h1.trans (State.placeHold_kept _ _ _ _)
      · exact h1
    dsimp only
    split
    · exact h2.trans (State.wake_kept _ _)
    · exact h2

theorem State.release_kept (k : SlotId) : Kept s (s.release k) := by
  unfold State.release
  split
  · exact Kept.rfl'
  · dsimp only
    repeat' split
    all_goals first
      | exact s.leave_kept _ _
      | exact s.join_kept _ _ _
      | exact (s.leave_kept _ _).trans (State.join_kept _ _ _ _)

theorem State.returnRoll_kept (e : Entry) (n : Nat) : Kept s (s.returnRoll e n) := by
  unfold State.returnRoll
  dsimp only
  split
  · exact (s.withEntries_kept _).trans (State.release_kept _ _)
  · exact s.withEntries_kept _

theorem State.strokeEnd_kept (k : SlotId) : Kept s (s.strokeEnd k) := by
  unfold State.strokeEnd
  split
  · exact Kept.rfl'
  · split
    · split
      · exact s.leave_kept _ _
      · split
        · exact s.leave_kept _ _
        · exact s.returnRoll_kept _ _
    · exact Kept.rfl'

theorem State.playStroke_kept (k : SlotId) : Kept s (s.playStroke k) := (s.modEntry_kept _ _).trans (State.strokeEnd_kept _ _)
theorem State.missStroke_kept (k : SlotId) : Kept s (s.missStroke k) := (s.modEntry_kept _ _).trans (State.strokeEnd_kept _ _)

theorem State.removeMember_kept (k : SlotId) (o : EntryOutcome) : Kept s (s.removeMember k o) := by
  unfold State.removeMember
  split
  · exact Kept.rfl'
  · split
    · exact s.missStroke_kept _
    · exact s.leave_kept _ _

theorem State.removeMembers_kept (o : EntryOutcome) (l : List SlotId) : Kept s (State.removeMembers o l s) := by
  induction l generalizing s with
  | nil => exact Kept.rfl'
  | cons k rest ih => exact (s.removeMember_kept k o).trans (ih _)

theorem State.flushVoice_kept (v : VoiceId) : Kept s (s.flushVoice v).1 :=
  (s.withEntries_kept _).trans (State.leaveAll_kept _ _ _)

theorem State.admitEntry_kept (a : Ask) (p : PortId) : Kept s (s.admitEntry a p).1 := by
  unfold State.admitEntry
  split
  · exact Kept.rfl'
  · exact Kept.rfl'
  · exact Kept.ite ((s.withAdmitted_kept _ _).trans (State.release_kept _ _)) (s.withAdmitted_kept _ _)

/-! ## The arbiters -/

theorem State.foldl_kept {α : Type} (f : State → α → State) (hf : ∀ t a, Kept t (f t a)) (l : List α) :
    Kept s (l.foldl f s) := by
  induction l generalizing s with
  | nil => exact Kept.rfl'
  | cons a rest ih => exact (hf s a).trans (ih _)

theorem State.grant_kept (e : Entry) (n : StrikerId) : Kept s (s.grant e n) := by
  unfold State.grant
  dsimp only
  exact (((s.foldl_kept _ (fun t m => t.modStriker_kept m _) _).trans (State.modStriker_kept _ _ _)).trans
    (State.modRail_kept _ _ _)).trans (State.modEntry_kept _ _ _)

theorem State.arbitrate_kept (r : RailId) : Kept s (s.arbitrate r) := by
  unfold State.arbitrate
  split
  · exact Kept.rfl'
  · dsimp only
    split
    · exact s.removeMembers_kept _ _
    · split
      · exact s.removeMembers_kept _ _
      · exact ((s.removeMembers_kept _ _).trans (State.grant_kept _ _ _)).trans (State.wake_kept _ _)

theorem State.settleUpTo_kept (n : Nat) : Kept s (s.settleUpTo n) := by
  induction n generalizing s with
  | zero => exact Kept.rfl'
  | succ n ih =>
    unfold State.settleUpTo
    split
    · exact Kept.rfl'
    · exact ((s.withDecisions_kept _).trans (State.arbitrate_kept _ _)).trans (ih _)

theorem State.settle_kept : Kept s s.settle := (s.settleUpTo_kept _).trans (State.withDecisions_kept _ _)

/-- After the decisions have been taken none is left. -/
@[simp] theorem State.settle_decisions : s.settle.decisions = [] := rfl

theorem State.settleAtJoin_kept (o : Interleaving) : Kept s (s.settleAtJoin o) := by
  unfold State.settleAtJoin
  split
  · exact s.settle_kept
  · exact Kept.rfl'

theorem State.settleAtBlock_kept (o : Interleaving) : Kept s (s.settleAtBlock o) := by
  unfold State.settleAtBlock
  split
  · exact Kept.rfl'
  · exact s.settle_kept

/-! ## Strikers -/

theorem State.enterLocked_kept (n : StrikerId) : Kept s (s.enterLocked n) := by
  unfold State.enterLocked
  dsimp only
  have h := (s.modStriker_kept n (fun k => { k with state := .locked, lockPending := false, recoveryEnd := none })).trans
    (State.raiseAll_kept _ .strikerLocked)
  split
  · exact h
  · split
    · exact h.trans (State.removeMembers_kept _ _ _)
    · exact h

theorem State.recovered_kept (n : StrikerId) : Kept s (s.recovered n) := by
  unfold State.recovered
  split
  · exact s.enterLocked_kept n
  · exact (s.modStriker_kept _ _).trans (State.wake_kept _ _)

theorem State.startRecover_kept (n : StrikerId) : Kept s (s.startRecover n) := by
  unfold State.startRecover
  dsimp only
  have h := s.modStriker_kept n (fun k => { k with state := .recover, driveEnd := none, holdEnd := none, playing := none })
  split
  · split
    · exact h
    · exact h.trans (State.recovered_kept _ _)
  · exact h.trans (State.recovered_kept _ _)

theorem State.verdict_kept (n : StrikerId) (b : Bool) : Kept s (s.verdict n b) := by
  unfold State.verdict
  split
  · dsimp only
    have h := s.modStriker_kept n (fun k => { k with silentCount := min 255 (k.silentCount + 1) })
    split
    · split
      · exact h.trans (State.enterLocked_kept _ _)
      · exact h
      · exact h.trans (State.modStriker_kept _ _ _)
    · exact h
  · exact s.modStriker_kept _ _

theorem State.holdEnded_kept (n : StrikerId) (early : Bool) : Kept s (s.holdEnded n early) := by
  unfold State.holdEnded
  split
  · exact s.startRecover_kept n
  · rename_i k _
    have h : Kept s (if early then s.flag k (fun f => { f with derated := true }) else s) := by
      split
      · exact s.modEntry_kept _ _
      · exact Kept.rfl'
    exact Kept.ite (h.trans (State.startRecover_kept _ _))
      ((h.trans (State.startRecover_kept _ _)).trans (State.leave_kept _ _ _))

theorem State.cutEntry_kept (k : SlotId) : Kept s (s.cutEntry k) := by
  unfold State.cutEntry
  split
  · exact Kept.rfl'
  · split
    · exact (s.modEntry_kept _ _).trans (State.leave_kept _ _ _)
    · split
      · exact s.modEntry_kept _ _
      · exact s.leave_kept _ _

theorem State.dropOrCut_kept (before : State) (l : List SlotId) : Kept s (State.dropOrCut before l s) := by
  induction l generalizing s with
  | nil => exact Kept.rfl'
  | cons k rest ih =>
    unfold State.dropOrCut
    refine Kept.trans ?_ (ih _)
    split
    · split
      · exact s.leave_kept _ _
      · split
        · exact s.cutEntry_kept _
        · exact Kept.rfl'
      · exact Kept.rfl'
    · exact Kept.rfl'

theorem State.leavePlaying_kept : Kept s s.leavePlaying :=
  ((s.withStrikers_kept _).trans (State.dropOrCut_kept _ _ _)).trans (State.allDampers_kept _ _)

theorem State.endHolds_kept (l : List StrikerId) : Kept s (State.endHolds l s) := by
  induction l generalizing s with
  | nil => exact Kept.rfl'
  | cons n rest ih => exact (s.holdEnded_kept n true).trans (ih _)

theorem State.coolAll_kept : Kept s s.coolAll := (s.withStrikers_kept _).trans (State.endHolds_kept _ _)

/-! ## The sense unit -/

theorem State.windowClosed_kept (n : StrikerId) (k : SlotId) (f : Entry → Entry) : Kept s (s.windowClosed n k f) := by
  unfold State.windowClosed
  dsimp only
  split
  · exact s.modEntry_kept _ _
  · split
    · exact (s.modEntry_kept _ _).trans (State.leave_kept _ _ _)
    · split
      · exact s.modEntry_kept _ _
      · exact (s.modEntry_kept _ _).trans (State.leave_kept _ _ _)

theorem State.judge_kept (w : Window) : Kept s (s.judge w) := by
  unfold State.judge
  split
  · exact Kept.rfl'
  · split
    · exact s.windowClosed_kept _ _ _
    · exact (s.verdict_kept _ _).trans (State.windowClosed_kept _ _ _ _)

theorem State.closeWindow_kept (w : Window) : Kept s (s.closeWindow w) := (s.modSense_kept _).trans (State.judge_kept _ _)

theorem State.closeEarly_kept (w : Window) : Kept s (s.closeEarly w) := by
  unfold State.closeEarly
  dsimp only
  split
  · exact (s.modSense_kept _).trans (State.modSense_kept _ _)
  · exact (s.modSense_kept _).trans (State.judge_kept _ _)

theorem State.openWindow_kept (n : StrikerId) (k : SlotId) (t : Nat) : Kept s (s.openWindow n k t).1 := by
  unfold State.openWindow
  split
  · exact Kept.rfl'
  · rename_i q _
    cases hq : s.sense.windowOn q with
    | some w =>
      dsimp only
      split
      · exact s.closeEarly_kept w
      · dsimp only
        exact (s.closeEarly_kept w).trans (State.modSense_kept _ _)
    | none =>
      dsimp only
      split
      · exact Kept.rfl'
      · dsimp only
        exact s.modSense_kept _

theorem State.pressDriven_kept (n : StrikerId) (k : SlotId) (q : PressPart) (t : Nat) : Kept s (s.pressDriven n k q t) := by
  unfold State.pressDriven
  dsimp only
  have h := (((s.modStriker_kept n (fun x => { x with
    state := .hold, driveEnd := none, holdEnd := some (s.now + if (s.striker n).hot then 0 else q.holdMs * 1000) })).trans
    (State.openWindow_kept _ n k t))).trans (State.modEntry_kept _ k (Entry.heard (State.openWindow n k t (s.modStriker n
      (fun x => { x with state := .hold, driveEnd := none, holdEnd := some (s.now + if (s.striker n).hot then 0 else q.holdMs * 1000) }))).2))
  exact Kept.ite (h.trans (State.holdEnded_kept _ _ _)) h

theorem State.singleDriven_kept (n : StrikerId) (k : SlotId) (t : Nat) : Kept s (s.singleDriven n k t) := by
  unfold State.singleDriven
  dsimp only
  have h := (((s.startRecover_kept n).trans (State.openWindow_kept _ n k t))).trans
    (State.modEntry_kept _ k (Entry.heard ((s.startRecover n).openWindow n k t).2))
  exact Kept.ite h (h.trans (State.leave_kept _ _ _))

theorem State.driveEnded_kept (n : StrikerId) : Kept s (s.driveEnded n) := by
  unfold State.driveEnded
  dsimp only
  split
  · exact s.startRecover_kept n
  · split
    · exact s.startRecover_kept n
    · split
      · exact s.pressDriven_kept _ _ _ _
      · exact s.singleDriven_kept _ _ _
      · exact (s.startRecover_kept n).trans (State.playStroke_kept _ _)

theorem State.deliverOpen_kept (k : PickupId) (n : Nat) : Kept s (s.deliverOpen k n) := by
  unfold State.deliverOpen
  split
  · exact Kept.rfl'
  · split
    · exact s.closeWindow_kept _
    · exact s.modSense_kept _

theorem State.deliverPickup_kept (k : PickupId) (n : Nat) : Kept s (s.deliverPickup k n) := by
  unfold State.deliverPickup
  split
  · split
    · exact (s.modSense_kept _).trans (State.judge_kept _ _)
    · exact s.deliverOpen_kept _ _
  · exact s.deliverOpen_kept _ _

/-! ## The players -/

theorem State.stepTaken_kept (v : VoiceId) (t : Nat) : Kept s (s.stepTaken v t) := by
  unfold State.stepTaken
  dsimp only
  split
  · exact (s.modPlayer_kept _ _).trans (State.modVoice_kept _ _ _)
  · exact s.modPlayer_kept _ _

theorem State.endPhrase_kept (v : VoiceId) (e : EndReason) : Kept s (s.endPhrase v e) := by
  unfold State.endPhrase
  dsimp only
  split
  · exact (s.modPlayer_kept _ _).trans (State.raise_kept _ _ _)
  · exact s.modPlayer_kept _ _

theorem State.loopEnd_kept (v : VoiceId) (t : Nat) : Kept s (s.loopEnd v t) := by
  unfold State.loopEnd
  dsimp only
  have h := s.modPlayer_kept v (fun q => { q with passes := min 255 (q.passes + 1) })
  split
  · exact h.trans (State.endPhrase_kept _ _ _)
  · split
    · exact h.trans (State.endPhrase_kept _ _ _)
    · exact h.trans (State.modPlayer_kept _ _ _)

theorem State.phraseEnd_kept (v : VoiceId) (t : Nat) : Kept s (s.phraseEnd v t) := by
  unfold State.phraseEnd
  split
  · exact s.loopEnd_kept _ _
  · exact s.endPhrase_kept _ _

theorem State.actOnStep_kept (o : Interleaving) (v : VoiceId) (p : PortId) (t a : Nat) (x : StepBody) :
    Kept s (s.actOnStep o v p t a x) := by
  unfold State.actOnStep
  split
  · exact (s.modPlayer_kept _ _).trans (State.stepTaken_kept _ _ _)
  · exact s.stepTaken_kept _ _
  · exact (s.stepTaken_kept _ _).trans (State.phraseEnd_kept _ _ _)
  · exact (s.modPlayer_kept _ _).trans (State.stepTaken_kept _ _ _)
  · dsimp only
    split
    · exact s.modPlayer_kept _ _
    · exact (s.modPlayer_kept _ _).trans (State.stepTaken_kept _ _ _)
    · exact ((s.admitEntry_kept _ _).trans (State.settleAtJoin_kept _ _)).trans (State.stepTaken_kept _ _ _)

theorem State.takeStepsUpTo_kept (o : Interleaving) (v : VoiceId) (p : PortId) (n : Nat) :
    Kept s (State.takeStepsUpTo o v p n s) := by
  induction n generalizing s with
  | zero => exact Kept.rfl'
  | succ n ih =>
    unfold State.takeStepsUpTo
    split
    · exact Kept.rfl'
    · split
      · exact s.modPlayer_kept _ _
      · dsimp only
        split
        · exact s.endPhrase_kept _ _
        · split
          · exact s.modPlayer_kept _ _
          · exact (s.actOnStep_kept _ _ _ _ _ _).trans (ih _)

theorem State.takeSteps_kept (o : Interleaving) (v : VoiceId) : Kept s (s.takeSteps o v) := by
  unfold State.takeSteps
  split
  · exact Kept.rfl'
  · split
    · exact Kept.rfl'
    · exact s.takeStepsUpTo_kept _ _ _ _

theorem State.armedTest_kept (o : Interleaving) (v : VoiceId) : Kept s (s.armedTest o v) := by
  unfold State.armedTest
  dsimp only
  split
  · exact (s.modPlayer_kept _ _).trans (State.takeSteps_kept _ _ _)
  · exact Kept.rfl'

theorem State.playerTick_kept (o : Interleaving) (v : VoiceId) : Kept s (s.playerTick o v) := by
  unfold State.playerTick
  split
  · exact s.takeSteps_kept _ _
  · exact s.armedTest_kept _ _

theorem State.playersTick_kept (o : Interleaving) (l : List VoiceId) : Kept s (State.playersTick o l s) := by
  induction l generalizing s with
  | nil => exact Kept.rfl'
  | cons v rest ih => exact (s.playerTick_kept o v).trans (ih _)

theorem State.startPlayer_kept (o : Interleaving) (v : VoiceId) (m : PlayerMode) (a b c d : Nat) :
    Kept s (s.startPlayer o v m a b c d) := (s.modPlayer_kept _ _).trans (State.armedTest_kept _ _ _)

theorem State.resumePlayer_kept (o : Interleaving) (v : VoiceId) : Kept s (s.resumePlayer o v) :=
  (s.modPlayer_kept _ _).trans (State.takeSteps_kept _ _ _)

theorem State.locatePlayers_kept (l : List VoiceId) : Kept s (State.locatePlayers l s) := by
  induction l generalizing s with
  | nil => exact Kept.rfl'
  | cons v rest ih =>
    unfold State.locatePlayers
    refine Kept.trans ?_ (ih _)
    split
    · exact Kept.rfl'
    · exact s.endPhrase_kept _ _

theorem State.releaseAll_kept (o : Interleaving) (l : List SlotId) : Kept s (State.releaseAll o l s) := by
  induction l generalizing s with
  | nil => exact Kept.rfl'
  | cons k rest ih =>
    unfold State.releaseAll
    refine Kept.trans ?_ (ih _)
    split
    · split
      · exact (s.release_kept _).trans (State.settleAtJoin_kept _ _)
      · exact Kept.rfl'
    · exact Kept.rfl'

end Sys2Proof.Machine
end

