-- ==== Sys2Proof/Laws/Request.lean ====
section
/-! SUPPORT. What a request can do: it is carried out and answered where READY is asserted, and is lost otherwise; and what an
event can do. -/
namespace Sys2Proof.Machine

/-- READY does not depend on the wall time. -/
@[simp] theorem State.ready_reach (s : State) (t : Nat) (p : PortId) : (s.reach t).ready p = s.ready p := rfl

/-- The state in which a request's body runs: the time reached, the frame off the receiver, the silence timer restarted. -/
def State.taken (w : When) (p : PortId) (s : State) : State :=
  (s.reach w.time).modPort p (fun q => q.hunt.restartSilence (max s.now w.time))

/-- A request taken while READY is asserted. -/
theorem request_ready {w : When} {p : PortId} {code : Byte} {body : State → Result} {s : State} (h : s.ready p = true) :
    request w p code body s =
      (body (s.taken w p)).1.modPort p
        (Port.answer (code + 0x80#8) (body (s.taken w p)).2.1 (body (s.taken w p)).2.2) := by
  simp [request, h, State.taken]

/-- A request that arrives while READY is deasserted is lost. -/
theorem request_lost {w : When} {p : PortId} {code : Byte} {body : State → Result} {s : State} (h : s.ready p = false) :
    request w p code body s = (s.reach w.time).loseFrame p := by
  simp [request, h]

/-- A lost frame sets the overflow flag of its port, or nothing. -/
theorem State.loseFrame_cases (s : State) (p : PortId) :
    s.loseFrame p = s ∨ s.loseFrame p = s.modPort p (fun q => { q with overflow := true }) := by
  unfold State.loseFrame
  split
  · exact .inl rfl
  · exact .inr rfl

/-- A request's answer on an unchanged state: a refusal. -/
theorem request_refused {w : When} {p : PortId} {code : Byte} {body : State → Result} {s : State} {st : Status}
    (h : s.ready p = true) (hb : body (s.taken w p) = refuse st (s.taken w p)) :
    request w p code body s = s.answering w p code st [] := by
  rw [request_ready h, hb]
  simp [refuse, State.taken, State.modPort, State.port, State.reach, State.answering, Port.answer, Port.hunt,
    Port.restartSilence, Port.flagsByte, Port.noticeLine]
  rfl

/-- A request's answer where its body leaves the state `u` as a request takes it: `u` with the port's answer. -/
theorem request_answers {w : When} {p : PortId} {code : Byte} {body : State → Result} {s u : State} {st : Status}
    {results : List Byte} (h : s.ready p = true) (hb : body (s.taken w p) = (u.taken w p, st, results)) :
    request w p code body s = u.answering w p code st results := by
  rw [request_ready h, hb]
  simp [State.taken, State.modPort, State.port, State.reach, State.answering, Port.answer, Port.hunt,
    Port.restartSilence, Port.flagsByte, Port.noticeLine]
  rfl

/-- An event taken while RESET is not asserted. -/
theorem event_awake {t : Nat} {f : State → State} {s : State} (h : s.power.inReset = false) :
    event t f s = f (s.reach t) := by
  simp [event, h]

/-- No event is taken while RESET is asserted. -/
theorem event_asleep {t : Nat} {f : State → State} {s : State} (h : s.power.inReset = true) : event t f s = s.reach t := by
  simp [event, h]

/-- A timer's event while RESET is not asserted, on a timer that runs. -/
theorem timerEvent_running {w : When} {t : Nat} {f : State → State} {s : State} (h : s.power.inReset = false) :
    timerEvent w (some t) f s = f (s.reach (max t w.time)) := by
  simp [timerEvent, event, h]

/-- A timer that does not run gives no event. -/
@[simp] theorem timerEvent_stopped {w : When} {f : State → State} {s : State} :
    timerEvent w none f s = s.reach w.time := rfl

/-- The receiver takes a byte where no framing error has come, or the line had been high for one bit time when it began (R166). -/
theorem Port.listens_iff {now : Nat} {q : Port} : q.listens now = true ↔ ∀ t, q.highSince = some t → t + 11 ≤ now := by
  unfold Port.listens
  cases q.highSince <;> simp

/-- What an arriving byte can do (R166, R167, R169): nothing where the receiver does not listen, then by READY. -/
theorem State.byteArrives_cases (w : When) (p : PortId) (b : Byte) (s : State) :
    ((s.port p).listens s.now = false ∧ s.byteArrives w p b = s) ∨
    ((s.port p).listens s.now = true ∧ s.ready p = true ∧ s.byteArrives w p b = s.takeByte w p b) ∨
    ((s.port p).listens s.now = true ∧ s.ready p = false ∧
      s.byteArrives w p b = if b = startByte then s.loseFrame p else s) := by
  unfold State.byteArrives
  cases (s.port p).listens s.now <;> cases s.ready p <;> simp

/-- What a framing error and the line's return leave of a port's other state (R166). -/
@[simp] theorem Port.misframed_highSince (now : Nat) (q : Port) : (q.misframed now).highSince = some now := rfl
@[simp] theorem Port.misframed_receiver (now : Nat) (q : Port) : (q.misframed now).receiver = .hunt := rfl
@[simp] theorem Port.misframed_lineLow (now : Nat) (q : Port) : (q.misframed now).lineLow = q.lineLow := rfl
@[simp] theorem Port.lineHigh_lineLow (now : Nat) (q : Port) : (q.lineHigh now).lineLow = false := rfl
@[simp] theorem Port.lineHigh_receiver (now : Nat) (q : Port) : (q.lineHigh now).receiver = q.receiver := rfl
@[simp] theorem Port.reset_highSince (q : Port) : q.reset.highSince = q.highSince := rfl
@[simp] theorem State.clearChimeMarks_ports (s : State) : s.clearChimeMarks.ports = s.ports := rfl
@[simp] theorem State.clearChimeMarks_players (s : State) : s.clearChimeMarks.players = s.players := rfl
@[simp] theorem State.clearChimeMarks_length (s : State) : s.clearChimeMarks.entries.length = s.entries.length :=
  List.length_map ..

end Sys2Proof.Machine
end

