-- ==== Sys2Proof/Laws/Leaving.lean ====
section
/-! SUPPORT. What the leaving of entries can do: one entry's, several entries', and that a request may be taken before or after
it; and what a damper unit does when holds leave. -/
namespace Sys2Proof.Machine

/-- An entry's leaving changes the entries, the ports and the players alone. -/
theorem State.leave_frame (s : State) (k : SlotId) (o : EntryOutcome) :
    s.leave k o = { s with
      entries := (s.leave k o).entries, ports := (s.leave k o).ports, players := (s.leave k o).players } := by
  unfold State.leave
  cases s.entryAt k with
  | none => rfl
  | some e => dsimp only; split <;> rfl

/-- An entry's leaving takes the entries of its slot away. -/
theorem State.leave_entries (s : State) (k : SlotId) (o : EntryOutcome) :
    (s.leave k o).entries = s.entries.filter (fun d => d.slot ≠ k) := by
  unfold State.leave
  cases h : s.entryAt k with
  | none =>
    simp only [State.entryAt, List.find?_eq_none, decide_eq_true_eq] at h
    exact (List.filter_eq_self.2 (fun d hd => by simpa using h d hd)).symm
  | some e => dsimp only; split <;> rfl

/-- A record is offered alike before and after the port has taken a request's frame. -/
theorem Port.offer_restarted (r : EchoRecord) (now : Nat) (q : Port) :
    (q.hunt.restartSilence now).offer r = (q.offer r).hunt.restartSilence now := by
  unfold Port.offer Port.levelCheck Port.raise Port.hunt Port.restartSilence
  dsimp only
  split
  · split <;> rfl
  · rfl

/-- A request may be taken before or after an entry leaves. -/
theorem State.leave_taken (w : When) (p : PortId) (s : State) (k : SlotId) (o : EntryOutcome) :
    (s.taken w p).leave k o = (s.leave k o).taken w p := by
  have h : (s.taken w p).entryAt k = s.entryAt k := rfl
  unfold State.leave
  rw [h]
  cases s.entryAt k with
  | none => rfl
  | some e =>
    dsimp only
    split
    · simp only [State.taken, State.tell, State.modPort, State.reach, State.port, State.concerns, State.voice]
      congr 1
      apply Bank.ext_look
      intro i
      by_cases h1 : e.port = p
      · subst h1; simp [Port.offer_restarted]
      · simp only [Bank.look_put]
        by_cases h2 : i = p
        · subst h2; simp [Ne.symm h1]
        · simp [h2, h1]
    · rfl

/-- Several entries leave as the fold of their leavings. -/
theorem State.leaveAll_eq_foldl (o : EntryOutcome) (l : List SlotId) (s : State) :
    State.leaveAll o l s = l.foldl (fun t k => t.leave k o) s := by
  induction l generalizing s with
  | nil => rfl
  | cons k l ih => exact ih _

/-- The calendar's way of letting the picked entries leave is the claims' one. -/
theorem State.leaveAll_slotsWhere (o : EntryOutcome) (gone : Entry → Bool) (s : State) :
    State.leaveAll o (s.slotsWhere gone) s = s.afterLeaving o gone := by
  rw [State.leaveAll_eq_foldl, State.slotsWhere, State.afterLeaving, List.foldl_map]

/-- Several entries' leaving changes the entries, the ports and the players alone. -/
theorem State.leaveAll_frame (o : EntryOutcome) (l : List SlotId) (s : State) :
    State.leaveAll o l s = { s with
      entries := (State.leaveAll o l s).entries
      ports := (State.leaveAll o l s).ports
      players := (State.leaveAll o l s).players } := by
  induction l generalizing s with
  | nil => rfl
  | cons k l ih =>
    let t := State.leaveAll o l (s.leave k o)
    exact (ih (s.leave k o)).trans (congrArg (fun u : State =>
      { u with entries := t.entries, ports := t.ports, players := t.players }) (s.leave_frame k o))

/-- Several entries' leaving takes the entries of their slots away. -/
theorem State.leaveAll_entries (o : EntryOutcome) (l : List SlotId) (s : State) :
    (State.leaveAll o l s).entries = s.entries.filter (fun d => d.slot ∉ l) := by
  induction l generalizing s with
  | nil => simp [State.leaveAll]
  | cons k l ih =>
    show (State.leaveAll o l (s.leave k o)).entries = _
    rw [ih, State.leave_entries, List.filter_filter]
    congr 1
    funext d
    simp [Bool.and_comm]

/-- Where no two entries share a slot, exactly the picked entries leave. -/
theorem State.afterLeaving_entries (o : EntryOutcome) (gone : Entry → Bool) (s : State)
    (h : (s.entries.map (·.slot)).Nodup) : (s.afterLeaving o gone).entries = s.entries.filter (fun e => !gone e) := by
  rw [← State.leaveAll_slotsWhere, State.leaveAll_entries]
  apply List.filter_congr
  intro d hd
  rw [Bool.eq_iff_iff, decide_eq_true_iff, State.slotsWhere, Bool.not_eq_true']
  constructor
  · intro hout
    by_contra hg
    exact hout (List.mem_map_of_mem (List.mem_filter.2 ⟨hd, by simpa using hg⟩))
  · intro hg hin
    obtain ⟨e, he, heq⟩ := List.mem_map.1 hin
    obtain ⟨hes, heg⟩ := List.mem_filter.1 he
    rw [List.inj_on_of_nodup_map h hes hd heq, hg] at heg
    cases heg

/-- A request may be taken before or after several entries leave. -/
theorem State.leaveAll_taken (w : When) (p : PortId) (o : EntryOutcome) (l : List SlotId) (s : State) :
    State.leaveAll o l (s.taken w p) = (State.leaveAll o l s).taken w p := by
  induction l generalizing s with
  | nil => rfl
  | cons k l ih =>
    show State.leaveAll o l ((s.taken w p).leave k o) = _
    rw [State.leave_taken, ih]
    rfl

/-- A unit from which holds are removed by a test is the claims' one, where there was such a hold. -/
theorem Damper.drop_eq_without (now : Nat) (gone : Hold → Bool) (d : Damper) :
    d.drop now gone = if d.holds.any gone then d.without now gone else d := by
  unfold Damper.drop Damper.without Damper.settleOpen Damper.minDone Damper.startClamp
  cases d.openSince <;> rfl

/-- At a stop a unit is the one that every hold has left. -/
theorem Damper.stopped_eq_without (now : Nat) (d : Damper) : d.stopped now = d.without now (fun _ => true) := by
  have h : d.holds.filter (fun h => !(fun _ => true) h) = [] := by simp
  unfold Damper.stopped Damper.without Damper.settleOpen Damper.minDone Damper.startClamp
  rw [h] <;> cases d.openSince <;> rfl

/-- The holds that a unit keeps. -/
@[simp] theorem Damper.without_holds (now : Nat) (gone : Hold → Bool) (d : Damper) :
    (d.without now gone).holds = d.holds.filter (fun h => !gone h) := by
  unfold Damper.without
  cases d.openSince <;> dsimp only <;> split <;> rfl

end Sys2Proof.Machine
end

