-- ==== Sys2Proof/Laws/Memory.lean ====
section
/-! SUPPORT. The laws of phrase memory: a read after a write, the canonical form kept, and what the form means. -/
namespace Sys2Proof.Machine

/-- A canonical list above `low` reads as unlisted below `low`. -/
theorem memRead_below {m : List Host.Cell} {low a : Nat} (h : memAbove low m = true) (ha : a < low) :
    memRead m a = fillByte a := by
  induction m generalizing low with
  | nil => rfl
  | cons c rest ih =>
    obtain ⟨b, x⟩ := c
    simp only [memAbove, Bool.and_eq_true, decide_eq_true_eq] at h
    have hab : a ≠ b := by omega
    simp only [memRead, hab, if_false]
    exact ih h.2 (by omega)

/-- A smaller bound holds where a greater one does. -/
theorem memAbove_mono {m : List Host.Cell} {low high : Nat} (h : memAbove high m = true) (hle : low ≤ high) :
    memAbove low m = true := by
  cases m with
  | nil => rfl
  | cons c rest =>
    obtain ⟨b, x⟩ := c
    simp only [memAbove, Bool.and_eq_true, decide_eq_true_eq, bne_iff_ne, ne_eq] at h ⊢
    exact ⟨⟨by omega, h.1.2⟩, h.2⟩

/-- A write keeps the canonical form. -/
theorem memAbove_memWrite {m : List Host.Cell} {low a : Nat} (x : Byte) (h : memAbove low m = true) (ha : low ≤ a) :
    memAbove low (memWrite m a x) = true := by
  induction m generalizing low with
  | nil =>
    simp only [memWrite]
    split
    · rfl
    · simp [memAbove, *]
  | cons c rest ih =>
    obtain ⟨b, y⟩ := c
    simp only [memAbove, Bool.and_eq_true, decide_eq_true_eq, bne_iff_ne, ne_eq] at h
    obtain ⟨⟨hb, hy⟩, hrest⟩ := h
    simp only [memWrite]
    split
    · split
      · simp [memAbove, hb, hy, hrest]
      · simp only [memAbove, Bool.and_eq_true, decide_eq_true_eq, bne_iff_ne, ne_eq]
        exact ⟨⟨ha, by assumption⟩, ⟨by omega, hy⟩, hrest⟩
    · split
      · split
        · exact memAbove_mono hrest (by omega)
        · simp only [memAbove, Bool.and_eq_true, decide_eq_true_eq, bne_iff_ne, ne_eq]
          subst_vars
          exact ⟨⟨ha, by assumption⟩, hrest⟩
      · simp only [memAbove, Bool.and_eq_true, decide_eq_true_eq, bne_iff_ne, ne_eq]
        exact ⟨⟨hb, hy⟩, ih hrest (by omega)⟩

/-- A write keeps the canonical form of the whole memory. -/
theorem memWf_memWrite {m : List Host.Cell} (a : Nat) (x : Byte) (h : memWf m = true) : memWf (memWrite m a x) = true :=
  memAbove_memWrite x h (Nat.zero_le a)

/-- Writing several bytes keeps the canonical form. -/
theorem memWf_memWriteAll {m : List Host.Cell} (a : Nat) (l : List Byte) (h : memWf m = true) :
    memWf (memWriteAll m a l) = true := by
  induction l generalizing m a with
  | nil => exact h
  | cons x rest ih => exact ih (a + 1) (memWf_memWrite a x h)

/-- Pushing steps keeps the canonical form. -/
theorem memWf_pushSteps {m : List Host.Cell} (a : Area) (l : List Byte) (h : memWf m = true) :
    memWf (pushSteps m a l).1 = true := by
  match l with
  | [] | [_] | [_, _] | [_, _, _] | [_, _, _, _] | [_, _, _, _, _] | [_, _, _, _, _, _] | [_, _, _, _, _, _, _] => exact h
  | b0 :: b1 :: b2 :: b3 :: b4 :: b5 :: b6 :: b7 :: rest =>
    exact memWf_pushSteps _ rest (memWf_memWriteAll a.write [b0, b1, b2, b3, b4, b5, b6, b7] h)

/-- A read after a write gives the byte written at its address and the old byte elsewhere. -/
theorem memRead_memWrite_above {m : List Host.Cell} {low : Nat} (a b : Nat) (x : Byte) (h : memAbove low m = true) :
    memRead (memWrite m a x) b = if b = a then x else memRead m b := by
  induction m generalizing low with
  | nil =>
    simp only [memWrite, memRead]
    by_cases hx : x = fillByte a
    · by_cases hb : b = a
      · subst hb; simp [hx, memRead]
      · simp [hx, hb, memRead]
    · simp [hx, memRead]
  | cons c rest ih =>
    obtain ⟨d, y⟩ := c
    simp only [memAbove, Bool.and_eq_true, decide_eq_true_eq, bne_iff_ne, ne_eq] at h
    obtain ⟨⟨-, hy⟩, hrest⟩ := h
    by_cases had : a < d
    · simp only [memWrite, had, if_true]
      by_cases hx : x = fillByte a
      · simp only [hx, if_true]
        by_cases hb : b = a
        · subst hb
          have : b ≠ d := by omega
          simp only [memRead, this, if_false, if_true]
          exact memRead_below hrest (by omega)
        · simp [hb]
      · simp [hx, memRead]
    · by_cases had' : a = d
      · subst had'
        simp only [memWrite, had, if_false, if_true]
        by_cases hx : x = fillByte a
        · simp only [hx, if_true]
          by_cases hb : b = a
          · subst hb
            simp only [if_true]
            exact memRead_below hrest (by omega)
          · simp [hb, memRead]
        · simp only [hx, if_false, memRead]
          by_cases hb : b = a <;> simp [hb]
      · simp only [memWrite, had, had', if_false, memRead]
        by_cases hb : b = d
        · have : b ≠ a := by omega
          simp only [hb, if_true]
          have : d ≠ a := by omega
          simp [this]
        · simp only [hb, if_false]
          exact ih hrest

/-- A read after a write gives the byte written at its address and the old byte elsewhere. -/
theorem memRead_memWrite {m : List Host.Cell} (a b : Nat) (x : Byte) (h : memWf m = true) :
    memRead (memWrite m a x) b = if b = a then x else memRead m b := memRead_memWrite_above a b x h

/-- A read after several bytes were written. -/
theorem memRead_memWriteAll {m : List Host.Cell} (a b : Nat) (l : List Byte) (h : memWf m = true) :
    memRead (memWriteAll m a l) b = if a ≤ b then (l[b - a]?).getD (memRead m b) else memRead m b := by
  induction l generalizing m a with
  | nil => simp [memWriteAll]
  | cons x rest ih =>
    simp only [memWriteAll]
    rw [ih (a + 1) (memWf_memWrite a x h), memRead_memWrite a b x h]
    by_cases hab : b = a
    · subst hab; simp
    · by_cases hlt : a ≤ b
      · have h1 : a + 1 ≤ b := by omega
        have h2 : b - a = (b - (a + 1)) + 1 := by omega
        simp [hab, hlt, h1, h2]
      · have h1 : ¬ a + 1 ≤ b := by omega
        simp [hab, hlt, h1]

end Sys2Proof.Machine
end

