-- ==== Sys2Proof/Laws/PerInstr.lean ====
section
/-! SUPPORT. One family of facts about every command as syntax: a command with a kind code is one that comes on a port, and the
payload of a command that a sender can give fits in a frame. -/
namespace Sys2Proof.Laws.FitsFrame

/-- A command has a kind code exactly where it comes on a port as a request (R195), and its payload is at most 60 bytes (R167). -/
def Statement (c : Instr) : Prop :=
  (kindCode c).isSome = (requestPort c).isSome ∧ (c.wellFormed = true → (requestPayload c).length ≤ 60)

theorem length_halfBytes (h : Half) : (halfBytes h).length = 2 := rfl

theorem length_quadBytes (q : Quad) : (quadBytes q).length = 4 := rfl

theorem length_bytesOfHalves (l : List Half) : (bytesOfHalves l).length = 2 * l.length := by
  induction l with
  | nil => rfl
  | cons h rest ih => simp [bytesOfHalves, length_halfBytes, ih]; omega

theorem powerOn (w : When) : Statement (.powerOn w) :=
  ⟨rfl, fun _ => Nat.le_of_ble_eq_true rfl⟩

theorem phraseMemoryFillEnd (w : When) : Statement (.phraseMemoryFillEnd w) :=
  ⟨rfl, fun _ => Nat.le_of_ble_eq_true rfl⟩

theorem resetAssert (w : When) : Statement (.resetAssert w) :=
  ⟨rfl, fun _ => Nat.le_of_ble_eq_true rfl⟩

theorem resetRelease (w : When) : Statement (.resetRelease w) :=
  ⟨rfl, fun _ => Nat.le_of_ble_eq_true rfl⟩

theorem framingError (w : When) (p : PortId) : Statement (.framingError w p) :=
  ⟨rfl, fun _ => Nat.le_of_ble_eq_true rfl⟩

theorem lineBreak (w : When) (p : PortId) : Statement (.lineBreak w p) :=
  ⟨rfl, fun _ => Nat.le_of_ble_eq_true rfl⟩

theorem breakEnd (w : When) (p : PortId) : Statement (.breakEnd w p) :=
  ⟨rfl, fun _ => Nat.le_of_ble_eq_true rfl⟩

theorem frameGapTimeout (w : When) (p : PortId) : Statement (.frameGapTimeout w p) :=
  ⟨rfl, fun _ => Nat.le_of_ble_eq_true rfl⟩

theorem frameLengthAbandon (w : When) (p : PortId) (length : Byte) : Statement (.frameLengthAbandon w p length) :=
  ⟨rfl, fun _ => Nat.le_of_ble_eq_true rfl⟩

theorem startByteOverflow (w : When) (p : PortId) : Statement (.startByteOverflow w p) :=
  ⟨rfl, fun _ => Nat.le_of_ble_eq_true rfl⟩

theorem checkByteMismatch (w : When) (p : PortId) : Statement (.checkByteMismatch w p) :=
  ⟨rfl, fun _ => Nat.le_of_ble_eq_true rfl⟩

theorem unknownKind (w : When) (p : PortId) : Statement (.unknownKind w p) :=
  ⟨rfl, fun _ => Nat.le_of_ble_eq_true rfl⟩

theorem replySent (w : When) (p : PortId) : Statement (.replySent w p) :=
  ⟨rfl, fun _ => Nat.le_of_ble_eq_true rfl⟩

theorem silenceExpiry (w : When) (p : PortId) : Statement (.silenceExpiry w p) :=
  ⟨rfl, fun _ => Nat.le_of_ble_eq_true rfl⟩

theorem setRail (w : When) (p : PortId) (rail fitted : Byte) (spacing : Half) (window : Quad) (count : Byte) (nominal : Half) (floor : Byte) :
    Statement (.setRail w p rail fitted spacing window count nominal floor) :=
  ⟨rfl, fun _ => Nat.le_of_ble_eq_true rfl⟩

theorem setStriker (w : When) (p : PortId) (striker : Byte) (recovery : Quad) (minPulse : Byte) (maxPulse : Half) (table : Byte) (soft hard : Half) (lock : Byte) :
    Statement (.setStriker w p striker recovery minPulse maxPulse table soft hard lock) :=
  ⟨rfl, fun _ => Nat.le_of_ble_eq_true rfl⟩

theorem setBar (w : When) (p : PortId) (bar cls first second damper pickup : Byte) (threshold : Half) :
    Statement (.setBar w p bar cls first second damper pickup threshold) :=
  ⟨rfl, fun _ => Nat.le_of_ble_eq_true rfl⟩

theorem setClass (w : When) (p : PortId) (cls : Byte) (lead slip : Half) : Statement (.setClass w p cls lead slip) :=
  ⟨rfl, fun _ => Nat.le_of_ble_eq_true rfl⟩

theorem setDamper (w : When) (p : PortId) (unit : Byte) (lift clamp : Half) (minOpen : Quad) :
    Statement (.setDamper w p unit lift clamp minOpen) :=
  ⟨rfl, fun _ => Nat.le_of_ble_eq_true rfl⟩

theorem setCharge (w : When) (p : PortId) (settle timeout : Half) : Statement (.setCharge w p settle timeout) :=
  ⟨rfl, fun _ => Nat.le_of_ble_eq_true rfl⟩

theorem setQuota (w : When) (p : PortId) (port : Byte) (quota : Half) : Statement (.setQuota w p port quota) :=
  ⟨rfl, fun _ => Nat.le_of_ble_eq_true rfl⟩

theorem setCurve (w : When) (p : PortId) (table first : Byte) (points : List Half) :
    Statement (.setCurve w p table first points) := by
  refine ⟨rfl, fun h => ?_⟩
  simp [Instr.wellFormed, pointsAllowed] at h
  simp [requestPayload, length_bytesOfHalves]
  omega

theorem curveMode (w : When) (p : PortId) (mode : Byte) : Statement (.curveMode w p mode) :=
  ⟨rfl, fun _ => Nat.le_of_ble_eq_true rfl⟩

theorem commit (w : When) (p : PortId) (table : Byte) : Statement (.commit w p table) :=
  ⟨rfl, fun _ => Nat.le_of_ble_eq_true rfl⟩

theorem setScan (w : When) (p : PortId) (pickup gain : Byte) (length : Quad) : Statement (.setScan w p pickup gain length) :=
  ⟨rfl, fun _ => Nat.le_of_ble_eq_true rfl⟩

theorem setPort (w : When) (p : PortId) (enables watermark : Byte) (silence : Half) :
    Statement (.setPort w p enables watermark silence) :=
  ⟨rfl, fun _ => Nat.le_of_ble_eq_true rfl⟩

theorem conduct (w : When) (p : PortId) (release : Byte) : Statement (.conduct w p release) :=
  ⟨rfl, fun _ => Nat.le_of_ble_eq_true rfl⟩

theorem tempo (w : When) (p : PortId) (c : Half) : Statement (.tempo w p c) :=
  ⟨rfl, fun _ => Nat.le_of_ble_eq_true rfl⟩

theorem ramp (w : When) (p : PortId) (target : Half) (beats : Byte) : Statement (.ramp w p target beats) :=
  ⟨rfl, fun _ => Nat.le_of_ble_eq_true rfl⟩

theorem meter (w : When) (p : PortId) (beats : Byte) : Statement (.meter w p beats) :=
  ⟨rfl, fun _ => Nat.le_of_ble_eq_true rfl⟩

theorem run (w : When) (p : PortId) : Statement (.run w p) :=
  ⟨rfl, fun _ => Nat.le_of_ble_eq_true rfl⟩

theorem stop (w : When) (p : PortId) : Statement (.stop w p) :=
  ⟨rfl, fun _ => Nat.le_of_ble_eq_true rfl⟩

theorem locate (w : When) (p : PortId) (position : Quad) : Statement (.locate w p position) :=
  ⟨rfl, fun _ => Nat.le_of_ble_eq_true rfl⟩

theorem source (w : When) (p : PortId) (mode : Byte) : Statement (.source w p mode) :=
  ⟨rfl, fun _ => Nat.le_of_ble_eq_true rfl⟩

theorem openVoice (w : When) (p : PortId) (voice priority low high : Byte) :
    Statement (.openVoice w p voice priority low high) :=
  ⟨rfl, fun _ => Nat.le_of_ble_eq_true rfl⟩

theorem closeVoice (w : When) (p : PortId) (voice : Byte) : Statement (.closeVoice w p voice) :=
  ⟨rfl, fun _ => Nat.le_of_ble_eq_true rfl⟩

theorem strike (w : When) (p : PortId) (voice bar form : Byte) (due : Quad) (strength tag : Byte) (sustain : Half) :
    Statement (.strike w p voice bar form due strength tag sustain) :=
  ⟨rfl, fun _ => Nat.le_of_ble_eq_true rfl⟩

theorem roll (w : When) (p : PortId) (voice bar form : Byte) (due : Quad) (strength tag : Byte) (sustain : Half) (count spacing : Byte) :
    Statement (.roll w p voice bar form due strength tag sustain count spacing) :=
  ⟨rfl, fun _ => Nat.le_of_ble_eq_true rfl⟩

theorem press (w : When) (p : PortId) (voice bar form : Byte) (due : Quad) (strength tag : Byte) (sustain : Half) (hold : Half) (duty : Byte) :
    Statement (.press w p voice bar form due strength tag sustain hold duty) :=
  ⟨rfl, fun _ => Nat.le_of_ble_eq_true rfl⟩

theorem chop (w : When) (p : PortId) (voice tag : Byte) : Statement (.chop w p voice tag) :=
  ⟨rfl, fun _ => Nat.le_of_ble_eq_true rfl⟩

theorem cancel (w : When) (p : PortId) (voice tag : Byte) : Statement (.cancel w p voice tag) :=
  ⟨rfl, fun _ => Nat.le_of_ble_eq_true rfl⟩

theorem flush (w : When) (p : PortId) (voice : Byte) : Statement (.flush w p voice) :=
  ⟨rfl, fun _ => Nat.le_of_ble_eq_true rfl⟩

theorem unlock (w : When) (p : PortId) (striker : Byte) : Statement (.unlock w p striker) :=
  ⟨rfl, fun _ => Nat.le_of_ble_eq_true rfl⟩

theorem seek (w : When) (p : PortId) (address : Half) : Statement (.seek w p address) :=
  ⟨rfl, fun _ => Nat.le_of_ble_eq_true rfl⟩

theorem load (w : When) (p : PortId) (data : List Byte) : Statement (.load w p data) := by
  refine ⟨rfl, fun h => ?_⟩
  simp [Instr.wellFormed, dataAllowed] at h
  simp [requestPayload]
  omega

theorem peek (w : When) (p : PortId) (address : Half) (count : Byte) : Statement (.peek w p address count) :=
  ⟨rfl, fun _ => Nat.le_of_ble_eq_true rfl⟩

theorem setArea (w : When) (p : PortId) (voice : Byte) (first last : Half) : Statement (.setArea w p voice first last) :=
  ⟨rfl, fun _ => Nat.le_of_ble_eq_true rfl⟩

theorem cue (w : When) (p : PortId) (voice mode loops form : Byte) (start : Quad) (horizon : Half) :
    Statement (.cue w p voice mode loops form start horizon) :=
  ⟨rfl, fun _ => Nat.le_of_ble_eq_true rfl⟩

theorem chime (w : When) (p : PortId) (address : Half) (loops form : Byte) (start : Quad) (horizon : Half) :
    Statement (.chime w p address loops form start horizon) :=
  ⟨rfl, fun _ => Nat.le_of_ble_eq_true rfl⟩

theorem halt (w : When) (p : PortId) (voice option : Byte) : Statement (.halt w p voice option) :=
  ⟨rfl, fun _ => Nat.le_of_ble_eq_true rfl⟩

theorem push (w : When) (p : PortId) (voice : Byte) (steps : List Byte) : Statement (.push w p voice steps) := by
  refine ⟨rfl, fun h => ?_⟩
  simp [Instr.wellFormed, stepsAllowed] at h
  simp [requestPayload]
  omega

theorem clear (w : When) (p : PortId) (voice : Byte) : Statement (.clear w p voice) :=
  ⟨rfl, fun _ => Nat.le_of_ble_eq_true rfl⟩

theorem pedal (w : When) (p : PortId) (voice unit direction : Byte) : Statement (.pedal w p voice unit direction) :=
  ⟨rfl, fun _ => Nat.le_of_ble_eq_true rfl⟩

theorem up (w : When) (p : PortId) : Statement (.up w p) :=
  ⟨rfl, fun _ => Nat.le_of_ble_eq_true rfl⟩

theorem play (w : When) (p : PortId) : Statement (.play w p) :=
  ⟨rfl, fun _ => Nat.le_of_ble_eq_true rfl⟩

theorem rest (w : When) (p : PortId) : Statement (.rest w p) :=
  ⟨rfl, fun _ => Nat.le_of_ble_eq_true rfl⟩

theorem down (w : When) (p : PortId) : Statement (.down w p) :=
  ⟨rfl, fun _ => Nat.le_of_ble_eq_true rfl⟩

theorem echoRead (w : When) (p : PortId) (count : Byte) : Statement (.echoRead w p count) :=
  ⟨rfl, fun _ => Nat.le_of_ble_eq_true rfl⟩

theorem notices (w : When) (p : PortId) : Statement (.notices w p) :=
  ⟨rfl, fun _ => Nat.le_of_ble_eq_true rfl⟩

theorem timeStatus (w : When) (p : PortId) : Statement (.timeStatus w p) :=
  ⟨rfl, fun _ => Nat.le_of_ble_eq_true rfl⟩

theorem calendarStatus (w : When) (p : PortId) : Statement (.calendarStatus w p) :=
  ⟨rfl, fun _ => Nat.le_of_ble_eq_true rfl⟩

theorem entryStatus (w : When) (p : PortId) (slot : Byte) : Statement (.entryStatus w p slot) :=
  ⟨rfl, fun _ => Nat.le_of_ble_eq_true rfl⟩

theorem voiceStatus (w : When) (p : PortId) (voice : Byte) : Statement (.voiceStatus w p voice) :=
  ⟨rfl, fun _ => Nat.le_of_ble_eq_true rfl⟩

theorem barStatus (w : When) (p : PortId) (bar : Byte) : Statement (.barStatus w p bar) :=
  ⟨rfl, fun _ => Nat.le_of_ble_eq_true rfl⟩

theorem strikerStatus (w : When) (p : PortId) (striker : Byte) : Statement (.strikerStatus w p striker) :=
  ⟨rfl, fun _ => Nat.le_of_ble_eq_true rfl⟩

theorem railStatus (w : When) (p : PortId) (rail : Byte) : Statement (.railStatus w p rail) :=
  ⟨rfl, fun _ => Nat.le_of_ble_eq_true rfl⟩

theorem curveStatus (w : When) (p : PortId) (table : Byte) : Statement (.curveStatus w p table) :=
  ⟨rfl, fun _ => Nat.le_of_ble_eq_true rfl⟩

theorem damperStatus (w : When) (p : PortId) (unit : Byte) : Statement (.damperStatus w p unit) :=
  ⟨rfl, fun _ => Nat.le_of_ble_eq_true rfl⟩

theorem senseStatus (w : When) (p : PortId) (pickup : Byte) : Statement (.senseStatus w p pickup) :=
  ⟨rfl, fun _ => Nat.le_of_ble_eq_true rfl⟩

theorem stageStatus (w : When) (p : PortId) : Statement (.stageStatus w p) :=
  ⟨rfl, fun _ => Nat.le_of_ble_eq_true rfl⟩

theorem tickExpiry (w : When) : Statement (.tickExpiry w) :=
  ⟨rfl, fun _ => Nat.le_of_ble_eq_true rfl⟩

theorem syncOutPulseEnd (w : When) : Statement (.syncOutPulseEnd w) :=
  ⟨rfl, fun _ => Nat.le_of_ble_eq_true rfl⟩

theorem syncInPulse (w : When) : Statement (.syncInPulse w) :=
  ⟨rfl, fun _ => Nat.le_of_ble_eq_true rfl⟩

theorem lossTimerExpiry (w : When) : Statement (.lossTimerExpiry w) :=
  ⟨rfl, fun _ => Nat.le_of_ble_eq_true rfl⟩

theorem targetFireTimeReached (w : When) (slot : SlotId) : Statement (.targetFireTimeReached w slot) :=
  ⟨rfl, fun _ => Nat.le_of_ble_eq_true rfl⟩

theorem deadlineExpiry (w : When) (slot : SlotId) : Statement (.deadlineExpiry w slot) :=
  ⟨rfl, fun _ => Nat.le_of_ble_eq_true rfl⟩

theorem spacingEnd (w : When) (rail : RailId) : Statement (.spacingEnd w rail) :=
  ⟨rfl, fun _ => Nat.le_of_ble_eq_true rfl⟩

theorem windowSlotFreeing (w : When) (rail : RailId) : Statement (.windowSlotFreeing w rail) :=
  ⟨rfl, fun _ => Nat.le_of_ble_eq_true rfl⟩

theorem driveEnd (w : When) (striker : StrikerId) : Statement (.driveEnd w striker) :=
  ⟨rfl, fun _ => Nat.le_of_ble_eq_true rfl⟩

theorem holdEnd (w : When) (striker : StrikerId) : Statement (.holdEnd w striker) :=
  ⟨rfl, fun _ => Nat.le_of_ble_eq_true rfl⟩

theorem recoveryEnd (w : When) (striker : StrikerId) : Statement (.recoveryEnd w striker) :=
  ⟨rfl, fun _ => Nat.le_of_ble_eq_true rfl⟩

theorem coolingStep (w : When) : Statement (.coolingStep w) :=
  ⟨rfl, fun _ => Nat.le_of_ble_eq_true rfl⟩

theorem liftEnd (w : When) (unit : UnitId) : Statement (.liftEnd w unit) :=
  ⟨rfl, fun _ => Nat.le_of_ble_eq_true rfl⟩

theorem minimumOpenExpiry (w : When) (unit : UnitId) : Statement (.minimumOpenExpiry w unit) :=
  ⟨rfl, fun _ => Nat.le_of_ble_eq_true rfl⟩

theorem clampEnd (w : When) (unit : UnitId) : Statement (.clampEnd w unit) :=
  ⟨rfl, fun _ => Nat.le_of_ble_eq_true rfl⟩

theorem playerStallResume (w : When) (voice : VoiceId) : Statement (.playerStallResume w voice) :=
  ⟨rfl, fun _ => Nat.le_of_ble_eq_true rfl⟩

theorem scanPacerFiring (w : When) : Statement (.scanPacerFiring w) :=
  ⟨rfl, fun _ => Nat.le_of_ble_eq_true rfl⟩

theorem railConversionComplete (w : When) (millivolts : Half) : Statement (.railConversionComplete w millivolts) :=
  ⟨rfl, fun _ => Nat.le_of_ble_eq_true rfl⟩

theorem windowSampleDue (w : When) (pickup : PickupId) : Statement (.windowSampleDue w pickup) :=
  ⟨rfl, fun _ => Nat.le_of_ble_eq_true rfl⟩

theorem pickupConversionComplete (w : When) (input : Int) : Statement (.pickupConversionComplete w input) :=
  ⟨rfl, fun _ => Nat.le_of_ble_eq_true rfl⟩

theorem windowClose (w : When) (pickup : PickupId) : Statement (.windowClose w pickup) :=
  ⟨rfl, fun _ => Nat.le_of_ble_eq_true rfl⟩

theorem chargeExpiry (w : When) : Statement (.chargeExpiry w) :=
  ⟨rfl, fun _ => Nat.le_of_ble_eq_true rfl⟩

theorem dischargeExpiry (w : When) : Statement (.dischargeExpiry w) :=
  ⟨rfl, fun _ => Nat.le_of_ble_eq_true rfl⟩

theorem guardEdge (w : When) (closed : Bool) : Statement (.guardEdge w closed) :=
  ⟨rfl, fun _ => Nat.le_of_ble_eq_true rfl⟩

theorem byteTaken (w : When) (p : PortId) (value : Byte) : Statement (.byteTaken w p value) :=
  ⟨rfl, fun _ => Nat.le_of_ble_eq_true rfl⟩

end Sys2Proof.Laws.FitsFrame
end

