-- ==== Sys2Proof/Tests/Slice0.lean ====
section
/-! SUPPORT. The model's own tests. The expected values are the spec's: its worked examples, its tables and its byte layouts; each
test names its source. The witnesses at the end show, for each statement with hypotheses, states and operands that meet them. -/
namespace Sys2Proof.Tests
open Sys2Proof.Machine

set_option Elab.async false

/-! ## Small states -/

/-- A moment. -/
def at_ (t : Nat) : When := { time := t }

/-- What a command leaves. -/
def after (c : Instr) (s : State) : State := match exec c s with
  | .next t => t
  | _ => s

/-- The payload of the reply begun on port 0. -/
def said (s : State) : List Byte := match (s.port 0).reply with
  | some r => r.payload
  | none => []

/-- What a command's reply on port 0 says. -/
def reply (c : Instr) (s : State) : List Byte := said (after c s)

/-- Port 0 is the conductor. -/
def conducting : State := State.reset.modTimeline (fun x => { x with conductor := some 0 })

/-- Voice 0 is open to all bars and owned by port 0, with a phrase area of four steps. -/
def owned : State := State.reset.modVoice 0 (fun v => { v with
  state := .opened, owner := some 0, high := 127, area := some { first := 4096, last := 4127, read := 4096, write := 4096, retained := 0 } })

/-- Voice 0 as in `owned`, and the stage PLAYING. -/
def playing : State := owned.modStage (fun x => { x with stage := .playing })

/-- The timeline of a running beat: position 239 in 4 beats per bar. -/
def lastTick : State := State.reset.modTimeline (fun x => { x with
  state := .running, position := 239, tickDue := some 1600 })

/-! ## Well-formed commands: each check refuses an ill-formed one (R195's payload lengths, the pin table) -/

theorem test_wf_curve_without_points : (Instr.setCurve (at_ 0) 0 0#8 0#8 []).wellFormed = false := by decide +kernel
theorem test_wf_curve_with_17_points :
    (Instr.setCurve (at_ 0) 0 0#8 0#8 (List.replicate 17 0#16)).wellFormed = false := by decide +kernel
theorem test_wf_load_without_bytes : (Instr.load (at_ 0) 0 []).wellFormed = false := by decide +kernel
theorem test_wf_load_of_57_bytes : (Instr.load (at_ 0) 0 (List.replicate 57 0#8)).wellFormed = false := by decide +kernel
theorem test_wf_push_of_part_of_a_step : (Instr.push (at_ 0) 0 0#8 (List.replicate 9 0#8)).wellFormed = false := by decide +kernel
theorem test_wf_push_of_8_steps : (Instr.push (at_ 0) 0 0#8 (List.replicate 64 0#8)).wellFormed = false := by decide +kernel
theorem test_wf_input_beyond_its_span : (Instr.pickupConversionComplete (at_ 0) 262144).wellFormed = false := by decide +kernel

/-! ## Frames (R167, R168, R195) -/

/-- R168's worked check byte: RUN's frame is C5 00 14 6C. -/
theorem test_crc_of_run : frameBytes 0x14#8 [] = [0xC5#8, 0x00#8, 0x14#8, 0x6C#8] := by decide +kernel

/-- Figures of several bytes go least significant byte first (R195). -/
theorem test_locate_payload : requestPayload (.locate (at_ 0) 0 0x01020304#32) = [4#8, 3#8, 2#8, 1#8] := by decide +kernel

/-- STRIKE's fields in their order and widths: 11 bytes (R195). -/
theorem test_strike_is_read : readRequest (at_ 0) 0 0x22#8
    [0#8, 40#8, 0#8, 0xE0#8, 0x01#8, 0#8, 0#8, 150#8, 1#8, 0#8, 0#8] =
    .request (.strike (at_ 0) 0 0#8 40#8 0#8 480#32 150#8 1#8 0#16) := by decide +kernel

/-- A payload of a length that its kind does not allow (R168). -/
theorem test_strike_too_short : readRequest (at_ 0) 0 0x22#8 [0#8, 40#8] = .badLength := by decide +kernel

/-- A code between the families names no request (R168). -/
theorem test_unknown_kind : readRequest (at_ 0) 0 0x0D#8 [] = .unknown := by decide +kernel

/-- The four bytes of RUN's frame, one after another, are answered as RUN: OWNER without the conductor role (R22). -/
theorem test_run_on_the_line : (match receiveBytes (at_ 0) 0 [0xC5#8, 0x00#8, 0x14#8, 0x6C#8] State.reset with
    | .next t => said t
    | _ => []) = [Status.owner.code, 0#8] := by decide +kernel

/-- RUN's reply of OWNER on the line: the start byte, two payload bytes, the kind of the request with bit 7 set (R170). -/
theorem test_reply_frame : ((after (.run (at_ 0) 0) State.reset).sending 0).take 5 =
    [0xC5#8, 0x02#8, 0x94#8, Status.owner.code, 0#8] := by decide +kernel

/-- After a framing error the receiver takes no byte until the line has been high for one bit time (R166): the start byte that
ends 11 µs after it is the first that is taken. -/
theorem test_wait_after_framing_error :
    let s := after (.framingError (at_ 500) 0) State.reset
    ((after (.byteTaken (at_ 510) 0 0xC5#8) s).port 0).receiver = .hunt ∧
    ((after (.byteTaken (at_ 511) 0 0xC5#8) s).port 0).receiver = .length := by decide +kernel

/-! ## Stroke energy: the worked case and the cases at the limits (spec/04) -/

/-- The live points of the worked case. -/
def workedPoints : Bank Nat 16 :=
  ⟨#[200, 420, 700, 1000, 1350, 1700, 2100, 2500, 2900, 3300, 3700, 4200, 4800, 5500, 6300, 7200], rfl⟩

/-- A rail of nominal 2,400 with a last sample. -/
def railAt (sample : Nat) : Rail := { Rail.initial with lastSample := some sample }

theorem test_worked_case : shape 200 { Striker.initial with heat := 30000 } workedPoints (railAt 2250) =
    { applied := 163, derated := true, pulse := 3770 } := by decide +kernel
theorem test_worked_case_cool : shape 200 { Striker.initial with heat := 24000 } workedPoints (railAt 2250) =
    { applied := 200, derated := false, pulse := 4970 } := by decide +kernel
theorem test_strength_255_on_a_sagging_rail : (shape 255 Striker.initial defaultPoints (railAt 1920)).pulse = 9000 ∧
    (shape 255 { Striker.initial with maxPulse := 12000 } defaultPoints (railAt 1920)).pulse = 11250 := by decide +kernel
theorem test_weak_strokes : (shape 1 Striker.initial defaultPoints (railAt 2400)).pulse = 330 ∧
    (shape 1 Striker.initial (Bank.fill 16 0) (railAt 2400)).pulse = 300 := by decide +kernel
theorem test_quantize_halves_up : (shape 34 Striker.initial defaultPoints (railAt 2600)).pulse = 1350 ∧
    (shape 80 Striker.initial defaultPoints (railAt 2200)).pulse = 3300 := by decide +kernel
theorem test_derate_at_its_ends :
    shape 100 { Striker.initial with heat := 24001 } defaultPoints (railAt 2400) =
      { applied := 100, derated := false, pulse := 3710 } ∧
    shape 255 { Striker.initial with heat := 39999 } defaultPoints (railAt 2400) =
      { applied := 128, derated := true, pulse := 4670 } := by decide +kernel

/-- The cooling example of spec/04, and the least loss. -/
theorem test_cooling : [30377, 29903, 29436, 28977, 127, 63, 1, 0].map cooled =
    [29903, 29436, 28977, 28525, 126, 62, 0, 0] := by decide +kernel

/-- The hold heat of duty 200 (spec/04, a press that runs hot), and the largest the notes of spec/04 name. -/
theorem test_hold_heat : holdHeat 200 = 1953 ∧ holdHeat 255 = 2490 := by decide +kernel

/-- Duty 128 turns on every other segment from the first, duty 1 segment 127 alone (R91). -/
theorem test_hold_duty : segmentOn 128 0 = true ∧ segmentOn 128 1 = false ∧ segmentOn 1 127 = true ∧
    (List.range 256).countP (segmentOn 1) = 1 := by decide +kernel

/-! ## The timeline (the examples of spec/01) -/

/-- The three-beat ritardando: the state at the boundary that takes its k-th step. -/
def ritardando (done tempo : Nat) : State := lastTick.modTimeline (fun x => { x with
  tempo := tempo, ramp := some { target := 10000, start := 12000, length := 3, done := done } })

/-- Tempo, period, MARIMBA's lead ticks and the ramp's presence. -/
def paced (s : State) : Nat × Nat × Nat × Bool :=
  (s.timeline.tempo, s.timeline.period, s.timeline.marimba.leadTicks, s.timeline.ramp.isSome)

theorem test_ritardando_first : paced (after (.tickExpiry (at_ 0)) (ritardando 0 12000)) = (11334, 17646, 9, true) := by
  decide +kernel
theorem test_ritardando_second : paced (after (.tickExpiry (at_ 0)) (ritardando 1 11334)) = (10667, 18749, 8, true) := by
  decide +kernel
theorem test_ritardando_third : paced (after (.tickExpiry (at_ 0)) (ritardando 2 10667)) = (10000, 20000, 8, false) := by
  decide +kernel

/-- Locating under a pending meter. -/
theorem test_locate_under_pending_meter :
    let t := (after (.locate (at_ 0) 0 5000#32) (conducting.modTimeline (fun x => { x with pendingMeter := some 3 }))).timeline
    (t.beatsPerBar, t.tickInBar, t.beatInBar, t.tickInBeat, t.barNumber) = (3, 680, 2, 200, 6) := by decide +kernel

/-- Following an outside beat: the state before the pulse at 1,480,000. -/
def following : State := State.reset.modTimeline (fun x => { x with
  state := .running, source := .sync, position := 2390, beatInBar := 1, barNumber := 2, lastPulse := some 1000000
  tickDue := some (8 * 1481259) })

theorem test_early_pulse_catches_up :
    let t := (after (.syncInPulse (at_ 1480000)) following).timeline
    (t.position, t.period, t.lastInterval, t.tickDue) = (2400, 16000, 480000, some (1480000 * 8 + 16000)) := by decide +kernel

/-- The counter's expiry with no pulse at tick-in-beat 239, and the loss timer of the example. -/
theorem test_late_pulse_is_held_for :
    let t := (after (.tickExpiry (at_ 0)) (following.modTimeline (fun x => { x with
      position := 2639, lastInterval := 480000, period := 16000, tickDue := some (8 * 1960000) }))).timeline
    (t.state, t.position, t.lossDue) = (.held, 2639, some 2920001) := by decide +kernel

/-- Loss of sync falls back to the tempo of the period and crosses. -/
theorem test_loss_of_sync :
    let t := (after (.lossTimerExpiry (at_ 0)) (following.modTimeline (fun x => { x with
      state := .held, position := 2639, period := 16000, tickDue := none, lossDue := some 2920001 }))).timeline
    (t.source, t.tempo, t.position, t.state) = (.internal, 12500, 2640, .running) := by decide +kernel

/-! ## First requests after power-on (the example of spec/10) -/

/-- TEMPO 9,000 in STOPPED: OK, flags 0, STOPPED, position 0, tempo, period, no period pending. -/
theorem test_tempo_in_stopped :
    (after (.tempo (at_ 0) 0 9000#16) conducting).timeline.period = 22222 ∧
      (after (.tempo (at_ 0) 0 9000#16) conducting).timeline.marimba.leadTicks = 7 := by decide +kernel

/-- A striker of one bar refuses another bar's record with BUSY. -/
theorem test_striker_of_another_bar :
    let fitted := after (.setRail (at_ 0) 0 2#8 1#8 1500#16 20000#32 4#8 2400#16 80#8) State.reset
    let setup := fitted.modPort 0 (fun q => { q with reply := none })
    let mapped := (after (.setBar (at_ 0) 0 40#8 0#8 34#8 35#8 0xFF#8 5#8 900#16) setup)
    said fitted = [0#8, 0#8] ∧ said mapped = [0#8, 0#8] ∧
      reply (.setBar (at_ 0) 0 41#8 0#8 34#8 0xFF#8 0xFF#8 0xFF#8 0#16) (mapped.modPort 0 (fun q => { q with reply := none })) =
        [1#8, 0#8] := by decide +kernel

/-- STRIKE on bar 40 takes slot 0 with arrival 0; a bar outside the voice's range is refused with RANGE. -/
theorem test_first_strike :
    reply (.strike (at_ 0) 0 0#8 40#8 0#8 480#32 150#8 1#8 0#16) owned = [0#8, 0#8, 0#8, 0#8, 0#8, 0#8, 0#8] ∧
    reply (.strike (at_ 0) 0 0#8 48#8 1#8 960#32 150#8 2#8 0#16) (owned.modVoice 0 (fun v => { v with low := 40, high := 47 })) =
      [3#8, 0#8] := by decide +kernel

/-! ## Strokes, rails and the stage (the examples of spec/02, spec/03, spec/07 and spec/08) -/

/-- A SINGLE on bar 40 in slot 0. -/
def stroke : Entry where
  slot := 0
  voice := 0
  port := 0
  report := true
  bar := 40
  due := 9600
  part := .single
  strength := 200
  sustain := none
  tag := 17#8
  seq := 501
  state := .waiting
  target := none
  deadline := none
  targetReached := false
  fire := none
  flags := {}
  peak := none
  listened := false
  wasCut := false

/-- Bar 40 on strikers 34 and 35 of rail 2, that rail up, the stage PLAYING. -/
def stand : State :=
  ((playing.modBar 40 (fun b => { b with first := some 34, second := some 35, pickup := some 5, threshold := 900 })).modRail 2
    (fun r => { r with fitted := true, state := .up, lastSample := some 2400 })).modStriker 34
    (fun k => { k with state := .recover, recoveryEnd := some 2050000 })

/-- From request to echo: at tick 9,591 the stroke is released with target 2,023,667 and deadline 2,031,667. -/
theorem test_release_times :
    let before := ({ stand with entries := [stroke], nextSeq := 502 } : State).modTimeline (fun x => { x with
      state := .running, position := 9590, tickDue := some (8 * 2022917) })
    ((after (.tickExpiry (at_ 0)) before).entries.map (fun e => (e.state, e.target, e.deadline))) =
      [(.released, some 2023667, some 2031667)] := by decide +kernel

/-- At the spacing end striker 35 is granted: offset 633, strength 200, pulse 7,120. -/
theorem test_grant_at_spacing_end :
    let before := ({ stand with entries := [{ stroke with
      state := .released, target := some 2023667, deadline := some 2031667, targetReached := true }] } : State).modRail 2
        (fun r => { r with spacingEnd := some 2024300 })
    ((after (.spacingEnd (at_ 0) 2) before).entries.map (·.fire)) =
      [some { striker := 35, offset := 633, applied := 200, pulse := 7120 }] := by decide +kernel

/-- The record that the trace offers to its port, in the layout of spec/11. -/
theorem test_echo_record_bytes : (({ stroke with
      fire := some { striker := 35, offset := 633, applied := 200, pulse := 7120 }, peak := some 4210
      listened := true } : Entry).echo .played).bytes = [0#8, 17#8, 40#8, 0#8, 0x80#8, 0x25#8, 0#8, 0#8, 200#8, 200#8, 35#8, 0#8,
      0x79#8, 0x02#8, 0xD0#8, 0x1B#8, 0x72#8, 0x10#8, 0#8, 0xFF#8, 0xFF#8] := by decide +kernel

/-- The converter shared: samples of 1,915, then 1,924 and 1,925 on a rail with floor 1,920. -/
theorem test_rail_falls_and_rises :
    let low := ({ Rail.initial with state := .up } : Rail).sampled 1915
    (low.state, low.lowRun, (low.sampled 1924).state, (low.sampled 1925).state) = (.low, 0, .low, .up) := by decide +kernel

/-- The converter shared: a pickup at gain 2 reads −5,120 and the peak becomes 5,120. -/
theorem test_window_sample_is_amplified :
    let listening := State.reset.modSense (fun x => { x with
      conv := some { input := .pickup 2, came := 2000000, done := 2000010, gain := 2 }
      windows := [{ pickup := 2, slot := 0, striker := 0, closeTime := 2040000, nextSample := 2000250, samples := 0
                    peak := some 3000 }] })
    (after (.pickupConversionComplete (at_ 0) (-20480)) listening).sense.windows.map (·.peak) = [some 5120] := by decide +kernel

/-- The guard opens mid-bar: striker 35 leaves DRIVE for a full recovery, the unit springs back, ALERT is asserted. -/
theorem test_guard_opens :
    let before := ({ playing with now := 7396500 } : State).modStriker 35 (fun k => { k with
      state := .drive, driveEnd := some 7403620, recoveryEnd := some 7436500, heat := 712 })
    let t := after (.guardEdge (at_ 7400000) false) (before.modDamper 1 (fun d => { d with
      state := .opened, holds := [{ voice := 6, bar := some 70, endTick := some 12000 }], openSince := some 7000000 }))
    (t.stage.stage, t.alert, (t.striker 35).state, (t.striker 35).recoveryEnd, (t.striker 35).heat, (t.damper 1).clampEnd) =
      (.guarded, true, .recover, some 7440000, 712, some 7408000) := by decide +kernel

/-- A queue that overflows: of three records offered at 127, the first is taken and the mark is set; the next taken has LOST. -/
theorem test_queue_overflow :
    let r := stroke.echo .flushed
    let q := (({ Port.initial with echo := List.replicate 127 r } : Port).offer r).offer r
    (q.echo.length, q.lost, ((({ q with echo := q.echo.drop 8 } : Port).offer r).echo.getLast?).map (·.flags.lost)) =
      (128, true, some true) := by decide +kernel

/-- An impatient master: NOTICES reports nothing pending, ECHO_LEVEL and PHRASE_END enabled, and ECHO in the flags byte. -/
theorem test_notices_reply :
    let q : Port := { Port.initial with enables := 0x21#8, echo := [stroke.echo .played] }
    reply (.notices (at_ 0) 0) (State.reset.modPort 0 (fun _ => q)) = [0#8, 4#8, 0#8, 0x21#8] := by decide +kernel

/-- The step that the power-on fill leaves everywhere (R108, R196). -/
theorem test_filled_step : decodeStep [] 4096 = { delta := 0, body := .ended } := by decide +kernel

/-- Contention on one rail at 1,000,000: D, whose one striker is hot, leaves, and A fires on striker 16, whose mark is clear. -/
def contention : State :=
  let a : Entry := { stroke with
    slot := 1, bar := 20, strength := 100, seq := 10, state := .released, target := some 1000000, deadline := some 1008000 }
  let d : Entry := { a with slot := 3, voice := 3, bar := 60, strength := 150, seq := 13 }
  let idle : Nat → Bool → Striker := fun heat mark => { Striker.initial with heat := heat, firedLast := mark }
  { playing with
    now := 999000
    entries := [a, { d with targetReached := true }]
    bars := (playing.bars.put 20 { Bar.initial with first := some 16, second := some 17, pickup := some 2 }).put 60
      { Bar.initial with cls := .perc, first := some 24 }
    strikers := ((playing.strikers.put 16 (idle 2000 false)).put 17 (idle 2000 true)).put 24 (idle 40100 false)
    rails := playing.rails.put 1 { Rail.initial with
      fitted := true, state := .up, lastSample := some 2400, count := 3, recent := [985000] } }

theorem test_contention :
    let t := after (.targetFireTimeReached (at_ 0) 1) contention
    (t.entries.map (fun e => (e.slot, e.fire.map (·.striker))), (t.striker 16).driveEnd, (t.striker 16).heat) =
      ([(1, some 16)], some 1003710, 2371) ∧
    ((t.striker 17).firedLast, (t.rail 1).recent, (t.rail 1).spacingEnd) =
      (false, [985000, 1000000], some 1001500) := by decide +kernel

/-- A press that runs hot: the second cooling step of spec/04's example ends the hold. -/
theorem test_hot_press :
    let press : Entry := { stroke with part := .press { holdMs := 300, duty := 200 }, state := .firing, listened := true }
    let holding := ({ playing with entries := [press] } : State).modStriker 50 (fun k => { k with
      state := .hold, heat := 38679, holdEnd := some 304390, recoveryEnd := some 40000, playing := some 0 })
    let t := after (.coolingStep (at_ 35000)) holding
    ((t.striker 50).state, (t.striker 50).heat, t.entries.length) = (.recover, 39375, 0) := by decide +kernel

/-! ## Witnesses: states and operands that meet the hypotheses of the statements, clause by clause, at the ends of the ranges -/

/-- Port 0 in the middle of a frame. -/
def receiving (r : Receiver) (length : Nat) (payload : List Byte) : State := State.reset.modPort 0 (fun q => { q with
  receiver := r, frameLength := length, frameKind := 0x14#8, framePayload := payload, gapStart := 1000 })

/-- Port 0 with a reply in progress. -/
def replying : State := State.reset.modPort 0 (fun q => { q with reply := some { kind := 0x94#8, payload := [0#8, 0#8] } })

/-- RESET is asserted. -/
def inReset : State := { State.reset with power := { inReset := true, fill := .none, guardHigh := true } }

/-- The power-on fill runs. -/
def filling : State := { State.reset with power := { inReset := false, fill := .running 2000, guardHigh := true } }

/-- A stage, with the guard in a position. -/
def staged (g : Stage) (closed : Bool) : State := State.reset.modStage (fun x => { x with stage := g, guardClosed := closed })

/-- `stand` with one stroke RELEASED. -/
def released : State := { stand with entries := [{ stroke with
  state := .released, target := some 2000, deadline := some 10000 }] }

/-- A roll of three strokes with some played. -/
def rolling (played missed : Nat) : Entry := { stroke with part := .roll {
  count := 3, spacing := 2, firstDue := 9600, played := played, missed := missed, chopMark := false, flushMark := false } }

/-- Striker 35 drives the entry in slot 0. -/
def driving (e : Entry) : State := ({ stand with entries := [{ e with state := .firing }] } : State).modStriker 35 (fun k => { k with
  state := .drive, driveEnd := some 7120, lastFire := some 0, recoveryEnd := some 40000, playing := some 0 })

/-- Striker 35 holds the press in slot 0. -/
def holding : State := ({ stand with entries := [{ stroke with
    part := .press { holdMs := 5, duty := 255 }, state := .firing }] } : State).modStriker 35 (fun k => { k with
  state := .hold, holdEnd := some 12120, lastFire := some 0, recoveryEnd := some 40000, playing := some 0, heat := 38000 })

/-- A window on pickup 5 for the stroke in slot 0, which striker 35 has played. -/
def listening (peak : Nat) (k : Striker → Striker) : State :=
  ({ stand with entries := [{ stroke with state := .firing, listened := true }] } : State).modStriker 35 k |>.modSense (fun x => { x with
    windows := [{ pickup := 5, slot := 0, striker := 35, closeTime := 40000, nextSample := 7370, samples := 1, peak := some peak }] })

/-- Port 0 after a framing error at 1,000. -/
def misframed (s : State) : State := s.modPort 0 (fun q => { q with highSince := some 1000 })

theorem test_witness_StepRunsFrontCommand :
    (State.reset.withQueue [.run (at_ 0) 0]).pending = [.run (at_ 0) 0] ∧ State.reset.pending = [] ∧
      inReset.pending = [] ∧ inReset.power.inReset = true := by decide +kernel

theorem test_witness_EveryCommandAnswers : State.reset.decisions = [] := by decide +kernel

theorem test_witness_RequestFramesReadBack : ∀ c ∈ ([.run (at_ 0) 0, .load (at_ 0) 0 (List.replicate 56 0#8),
      .setCurve (at_ 0) 0 0#8 0#8 (List.replicate 16 0#16), .push (at_ 0) 0 0#8 (List.replicate 56 0#8)] : List Instr),
    c.wellFormed = true ∧ requestPort c = some (at_ 0, 0) ∧ (kindCode c).isSome = true := by decide +kernel

theorem test_witness_FrameOnTheLineIsTheRequest : (Instr.run (at_ 0) 0).wellFormed = true ∧
    requestPort (.run (at_ 0) 0) = some (at_ 0, 0) ∧ kindCode (.run (at_ 0) 0) = some 0x14#8 ∧ State.reset.ready 0 = true ∧
    (State.reset.port 0).receiver = .hunt ∧ (State.reset.port 0).framePayload = [] ∧ (State.reset.port 0).highSince = none ∧
    ((misframed State.reset).port 0).highSince = some 1000 ∧ 1000 + 11 ≤ max (misframed State.reset).now 1011 := by decide +kernel

/-- Each state of the receiver, at the last moment in time and at the first too late. -/
theorem test_witness_ReceiverFollowsItsTable :
    ((receiving .hunt 0 []).ready 0 = true ∧ ((receiving .hunt 0 []).port 0).receiver = .hunt) ∧
    (((receiving .length 0 []).port 0).receiver = .length ∧ max 0 1210 ≤ 1000 + 210 ∧ (60#8).toNat ≤ 60 ∧ 60 < (61#8).toNat) ∧
    (((receiving .kind 0 []).port 0).receiver = .kind ∧ ((receiving .kind 0 []).port 0).frameLength = 0 ∧
      ((receiving .kind 60 []).port 0).frameLength ≠ 0) ∧
    (((receiving .payload 2 []).port 0).receiver = .payload ∧
      ((receiving .payload 2 []).port 0).framePayload.length + 1 < ((receiving .payload 2 []).port 0).frameLength ∧
      ((receiving .payload 2 [7#8]).port 0).framePayload.length + 1 = ((receiving .payload 2 [7#8]).port 0).frameLength) ∧
    (((receiving .check 0 []).port 0).receiver ≠ .hunt ∧ ¬ max 0 1211 ≤ ((receiving .check 0 []).port 0).gapStart + 210) ∧
    (((receiving .check 0 []).port 0).highSince = none ∧ ((misframed State.reset).port 0).highSince = some 1000 ∧
      1000 + 11 ≤ max (misframed State.reset).now 1011) := by decide +kernel

theorem test_witness_WholeFramesAreChecked :
    ((receiving .check 0 []).ready 0 = true ∧ ((receiving .check 0 []).port 0).receiver = .check ∧
      max (receiving .check 0 []).now 1210 ≤ ((receiving .check 0 []).port 0).gapStart + 210 ∧
      ((receiving .check 0 []).port 0).highSince = none) ∧
    (crc8 [0#8, 0x14#8] ≠ 0x6D#8 ∧ crc8 [0#8, 0x14#8] = 0x6C#8 ∧
      readRequest (at_ 1210) 0 0x14#8 [] = .request (.run (at_ 1210) 0)) ∧
    (readRequest (at_ 1210) 0 0x18#8 [] = .unknown ∧ readRequest (at_ 1210) 0 0x14#8 [0#8] = .badLength) := by decide +kernel

theorem test_witness_FramesAreLostWhileNotReady :
    (replying.power.inReset = false ∧ replying.power.fill = .none ∧ (replying.port 0).lineLow = false ∧
      (replying.port 0).reply.isSome = true ∧ (replying.port 0).highSince = none ∧ 0xC4#8 ≠ 0xC5#8 ∧ (Instr.run (at_ 0) 0).wellFormed = true ∧
      requestPort (.run (at_ 0) 0) = some (at_ 0, 0)) ∧
    (filling.power.inReset = false ∧ filling.power.fill ≠ .none) := by decide +kernel

theorem test_witness_LineEventsTakeEffect : State.reset.power.inReset = false ∧ State.reset.power.fill = .none ∧
    ((misframed State.reset).port 0).highSince = some 1000 ∧ max (misframed State.reset).now 1010 < 1000 + 11 ∧
    ((receiving .kind 0 []).port 0).receiver ≠ .hunt ∧ (receiving .length 0 []).ready 0 = true ∧
    ((receiving .length 0 []).port 0).receiver = .length ∧ 60 < (61#8).toNat ∧ (State.reset.port 0).lineLow = false ∧
    ((after (.lineBreak (at_ 5) 0) State.reset).port 0).lineLow = true := by decide +kernel

/-- A port with an owned voice, the chime and a silence expiry; on each of the two voices a WAITING entry and a FIRING roll, and one
WAITING entry on another port's voice; a damper unit OPEN long enough under a hold of each kind. -/
def leaving : State :=
  let on : SlotId → VoiceId → PortId → Entry → Entry := fun k v p e => { e with slot := k, voice := v, port := p }
  let roll : Entry := { stroke with state := .firing, part := .roll {
    count := 3, spacing := 2, firstDue := 9600, played := 0, missed := 0, chopMark := false, flushMark := false } }
  let s := { owned.modPort 0 (fun q => { q with silenceDue := some 100000 }) with
    chimePort := some 0
    entries := [on 0 0 0 stroke, on 1 0 0 roll, on 2 15 0 stroke, on 3 15 0 roll, on 4 1 1 stroke] }
  (s.modVoice 1 (fun v => { v with state := .opened, owner := some 1 })).modDamper 0 (fun d => { d with
    state := .opened, minPassed := true
    holds := [{ voice := 15, bar := some 40, endTick := some 9 }, { voice := 0, bar := none, endTick := none },
      { voice := 1, bar := none, endTick := none }] })

/-- A break on the chime port's line (R27, R105): the WAITING entries of its voice and of voice 15 leave, their rolls are marked, the
other port's entry stays, no record is offered, and the closed voice's endless hold leaves. -/
theorem test_port_reset :
    let t := after (.lineBreak (at_ 0) 0) leaving
    t.entries.map (fun e => (e.slot, match e.part with | .roll x => x.flushMark | _ => false)) =
      [(1, true), (3, true), (4, false)] ∧
    ((t.port 0).echo, (t.port 1).echo, (t.damper 0).holds.map (·.voice), (t.damper 0).state) = ([], [], [15, 1], .opened) := by
  decide +kernel

theorem test_witness_PortResetLeavesNoTrace : leaving.power.inReset = false ∧ leaving.power.fill = .none ∧
    (leaving.port 0).lineLow = false ∧ (leaving.port 0).silenceDue = some 100000 ∧ (0 : VoiceId) ≠ chimeVoice ∧
    (leaving.voice 0).state = .opened ∧ (leaving.voice 0).owner = some 0 ∧ leaving.owns 0 1 = false ∧
    leaving.chimePort = some 0 ∧ State.reset.chimePort ≠ some 0 ∧ (leaving.entries.map (·.slot)).Nodup := by decide +kernel

theorem test_witness_PowerOnAndResetInitialize : inReset.power.inReset = true ∧ inReset.power.fill = .none ∧
    (after (.resetAssert (at_ 5)) filling).power = { inReset := true, fill := .interrupted, guardHigh := true } ∧
    filling.power.inReset = false ∧ filling.power.fill = .running 2000 ∧ 4095 < 4096 := by decide +kernel

theorem test_witness_ResetHoldsThePart : inReset.power.inReset = true ∧ Instr.coolingStep (at_ 0) ≠ .powerOn (at_ 0) ∧
    (∀ b, Instr.coolingStep (at_ 0) ≠ .guardEdge (at_ 0) b) := by decide +kernel

theorem test_witness_RequestsAreAnswered : (Instr.run (at_ 0) 0).wellFormed = true ∧
    requestPort (.run (at_ 0) 0) = some (at_ 0, 0) ∧ kindCode (.run (at_ 0) 0) = some 0x14#8 ∧ State.reset.ready 0 = true := by
  decide +kernel

/-- The first number beyond a numbering, and bound requests in PLAYING that DORMANT would take, and would refuse with RANGE. -/
theorem test_witness_BadFieldsAndStagesAreRefused :
    namesNothing (.railStatus (at_ 0) 0 6#8) = true ∧ namesNothing (.railStatus (at_ 0) 0 5#8) = false ∧
    stageBound (.setCharge (at_ 0) 0 200#16 3000#16) = true ∧ playing.stage.stage ≠ .dormant ∧ playing.stage.stage ≠ .standby ∧
    playing.stage.stage ≠ .fault ∧ playing.ready 0 = true ∧
    (let dormant := playing.modStage (fun x => { x with stage := .dormant });
      reply (.setCharge (at_ 0) 0 50#16 500#16) dormant = [Status.ok.code, 0#8] ∧
      reply (.setCharge (at_ 0) 0 49#16 500#16) dormant = [Status.range.code, 0#8]) := by decide +kernel

theorem test_witness_RailStrikerAndBarSetupTakesEffect :
    (State.reset.ready 0 = true ∧ State.reset.stage.stage = .dormant) ∧
    ((10000#16).toNat ≤ 10000 ∧ 1000 ≤ (1000#32).toNat ∧ (100000#32).toNat ≤ 100000 ∧ 1 ≤ (1#8).toNat ∧ (8#8).toNat ≤ 8 ∧
      1200 ≤ (1200#16).toNat ∧ (4800#16).toNat ≤ 4800 ∧ 50 ≤ (50#8).toNat ∧ (95#8).toNat ≤ 95 ∧
      (false = (State.reset.rail 5).fitted ∧ ∀ b, ∀ n ∈ (State.reset.bar b).strikers, railOf n ≠ 5)) ∧
    (8000 ≤ (8000#32).toNat ∧ (250000#32).toNat ≤ 250000 ∧ 20 ≤ (20#8).toNat ∧ (200#8).toNat ≤ 200 ∧
      (200#8).toNat ≤ (200#16).toNat ∧ (1200#16).toNat ≤ 1200 ∧ 1000 ≤ (1000#16).toNat ∧
      (1000#16).toNat + 1000 ≤ (2000#16).toNat ∧ (60000#16).toNat ≤ 60000 ∧ (15#8).toNat ≤ 15) ∧
    ((32767#16).toNat ≤ 32767 ∧ ((34 : StrikerId) ≠ 35 ∧ railOf 34 = railOf 35) ∧ (stand.rail (railOf 34)).fitted = true ∧
      ∀ n ∈ ([34, 35] : List StrikerId), (stand.striker n).bar = none) ∧
    (∃ n ∈ ([34] : List StrikerId), ((stand.modStriker 34 (fun k => { k with bar := some 40 })).striker n).bar = some 40 ∧
      (40 : BarId) ≠ 41) := by decide +kernel

/-- Setup requests with one field just outside its range, which every stage refuses with RANGE (R63, R54, R51, R23, R35, R94, R162, R30,
R132, R77), and the same with good fields, which PLAYING refuses with STAGE (R161). -/
theorem test_witness_SetupIsRefused :
    let rail := fun (r : Byte) (fitted : Byte) (spacing : Half) (floor : Byte) =>
      Instr.setRail (at_ 0) 0 r fitted spacing 20000#32 4#8 2400#16 floor
    let striker := fun (minPulse : Byte) (maxPulse soft hard : Half) =>
      Instr.setStriker (at_ 0) 0 35#8 40000#32 minPulse maxPulse 0#8 soft hard 3#8
    let bar := fun (first second : Byte) (threshold : Half) =>
      Instr.setBar (at_ 0) 0 41#8 0#8 first second 0xFF#8 0xFF#8 threshold
    let used := stand.modStage (fun x => { x with stage := .playing })
    stand.ready 0 = true ∧ used.ready 0 = true ∧
    (∀ c ∈ [rail 2#8 1#8 10001#16 80#8, rail 2#8 1#8 1500#16 49#8, rail 2#8 0#8 1500#16 80#8,
        striker 19#8 900#16 24000#16 40000#16, striker 200#8 199#16 24000#16 40000#16, striker 30#8 900#16 24000#16 24999#16,
        bar 34#8 34#8 0#16, bar 34#8 16#8 0#16, bar 16#8 0xFF#8 0#16, bar 0xFF#8 34#8 0#16, bar 0xFF#8 0xFF#8 32768#16,
        .setClass (at_ 0) 0 0#8 60001#16 8000#16, .setClass (at_ 0) 0 0#8 18000#16 50001#16,
        .setDamper (at_ 0) 0 0#8 1999#16 8000#16 0#32, .setDamper (at_ 0) 0 0#8 2000#16 2000#16 500001#32,
        .setCharge (at_ 0) 0 500#16 500#16, .setQuota (at_ 0) 0 0#8 57#16, .setScan (at_ 0) 0 0#8 3#8 40000#32,
        .setScan (at_ 0) 0 0#8 1#8 4999#32, .setCurve (at_ 0) 0 0#8 16#8 [12000#16], .peek (at_ 0) 0 0#16 57#8],
      (said (after c used)).head? = some Status.range.code) ∧
    (∀ c ∈ [rail 2#8 1#8 10000#16 80#8, striker 200#8 200#16 24000#16 25000#16, bar 0xFF#8 0xFF#8 32767#16,
        .setClass (at_ 0) 0 0#8 60000#16 50000#16, .setDamper (at_ 0) 0 0#8 2000#16 50000#16 500000#32,
        .setCharge (at_ 0) 0 499#16 500#16, .setQuota (at_ 0) 0 0#8 56#16],
      (said (after c used)).head? = some Status.stage.code) ∧
    (said (after (rail 3#8 1#8 1500#16 80#8) (stand.modStage (fun x => { x with stage := .standby })))).head? =
      some Status.stage.code := by decide +kernel

theorem test_witness_ParameterSetupTakesEffect : State.reset.ready 0 = true ∧ State.reset.stage.stage = .dormant ∧
    ((60000#16).toNat ≤ 60000 ∧ (50000#16).toNat ≤ 50000) ∧ (2000 ≤ (2000#16).toNat ∧ (500000#32).toNat ≤ 500000) ∧
    (50 ≤ (50#16).toNat ∧ (2000#16).toNat ≤ 2000 ∧ 500 ≤ (500#16).toNat ∧ (10000#16).toNat ≤ 10000 ∧
      (499#16).toNat < (500#16).toNat) ∧
    (State.reset.useCount 0 ≤ (0#16).toNat ∧ (56#16).toNat ≤ 256 ∧
      ∀ n ∈ [0, 56, 57],
        ((List.finRange 4).map (fun x => if x = 0 then n else State.reset.quotas.look x)).sum ≤ 224 ↔ n ≠ 57) ∧
    (5000 ≤ (5000#32).toNat ∧ (100000#32).toNat ≤ 100000) := by decide +kernel

/-- A write that keeps a table's form, and one that breaks it. -/
theorem test_witness_CurveRequestsTakeEffect :
    let rise : Bank Nat 16 := (State.reset.table 0).live.put 15 12000
    let fall : Bank Nat 16 := (State.reset.table 0).live.put 15 0
    let marked := (State.reset.modTable 7 (fun c => { c with commitPending := true }))
    (State.reset.ready 0 = true ∧ pointsAllowed [12000#16] = true ∧ (15#8).toNat + [12000#16].length ≤ 16 ∧
      (∀ k : Fin 16, rise.look k = if 15 ≤ k.1 then ([12000#16][k.1 - 15]?).elim ((State.reset.table 0).live.look k) BitVec.toNat
        else (State.reset.table 0).live.look k) ∧ monotonePoints rise = true ∧ monotonePoints fall = false ∧
      (∀ k : Fin 16, fall.look k = if 15 ≤ k.1 then ([0#16][k.1 - 15]?).elim ((State.reset.table 0).live.look k) BitVec.toNat
        else (State.reset.table 0).live.look k) ∧
      (State.reset.table 0).staging = (State.reset.table 0).live ∧ State.reset.shaper.mode = .direct) ∧
    (({ marked with shaper := { marked.shaper with mode := .staged } } : State).shaper.mode = .staged ∧
      (marked.table 7).commitPending = true ∧ ∀ c, (State.reset.table c).commitPending = false) := by decide +kernel

theorem test_witness_PortSettingsTakeEffect : State.reset.ready 0 = true ∧ (63#8).toNat < 64 ∧
    ((0#8).toNat < 1 ∧ 128 < (129#8).toNat ∧ (1 ≤ (1#16).toNat ∧ (99#16).toNat ≤ 99) ∧ 10000 < (10001#16).toNat) ∧
    (1 ≤ (1#8).toNat ∧ (128#8).toNat ≤ 128 ∧ 99 < (100#16).toNat ∧ (10000#16).toNat ≤ 10000) := by decide +kernel

theorem test_witness_ConductorRoleIsExclusive : State.reset.ready 0 = true ∧ State.reset.timeline.conductor = none ∧
    conducting.ready 0 = true ∧ conducting.timeline.conductor = some 0 ∧ conducting.ready 1 = true ∧ (0 : PortId) ≠ 1 ∧
    ((conducting.modPort 0 (fun q => { q with silenceDue := some 100000 })).port 0).silenceDue.isSome = true := by
  decide +kernel

/-- Each refusal's state and argument: the mode SYNC, the position's end, a state other than STOPPED, and 1,999. -/
theorem test_witness_ConductorRequestsAreChecked : conducting.timeline.position ≤ 4294967295 ∧
    requestPort (.tempo (at_ 0) 0 1999#16) = some (at_ 0, 0) ∧ State.reset.timeline.conductor ≠ some 0 ∧
    conducting.timeline.conductor = some 0 ∧ conducting.timeline.source ≠ .sync ∧ (1999#16).toNat < 2000 ∧
    following.timeline.source = .sync ∧ following.timeline.state ≠ .stopped ∧ ¬ 30000 < (30000#16).toNat := by decide +kernel

theorem test_witness_TempoAndSourceRequestsTakeEffect : conducting.ready 0 = true ∧ conducting.timeline.conductor = some 0 ∧
    conducting.timeline.source = .internal ∧ 2000 ≤ (2000#16).toNat ∧ (30000#16).toNat ≤ 30000 ∧ 1 ≤ (1#8).toNat ∧
    (64#8).toNat ≤ 64 ∧ (16#8).toNat ≤ 16 ∧ conducting.timeline.state = .stopped ∧ following.timeline.state ≠ .stopped ∧
    following.timeline.source = .sync := by decide +kernel

/-- The timeline HELD with its conductor on port 0. -/
def held : State := conducting.modTimeline (fun x => { x with
  state := .held, source := .sync, position := 4294967039, lossDue := some 2920001, syncOutEnd := some 900, lastPulse := some 1000 })

/-- HELD meets the timeline's invariant. -/
theorem test_held_is_sound : held.TimelineSound := by
  refine ⟨?_, ?_, ?_, ?_, ?_, ?_, ?_, ?_, ?_, ?_, ?_⟩
  case refine_6 =>
    have none : held.timeline.pendingMeter = none := by decide +kernel
    intro m h
    rw [none] at h
    cases h
  all_goals decide +kernel

theorem test_witness_HeldTimeline : held.ready 0 = true ∧ held.timeline.conductor = some 0 ∧ held.timeline.state = .held ∧
    held.timeline.source = .sync ∧ held.timeline.pendingPeriod = none ∧ held.timeline.position + 1 < 4294967295 ∧
    held.power.inReset = false ∧ held.timeline.lossDue = some 2920001 ∧ held.timeline.syncOutEnd = some 900 := by decide +kernel

/-- A period pending in HELD: SOURCE INTERNAL and the loss of sync set the tempo from the period before, and the crossing adopts it. -/
theorem test_witness_PendingInHeld :
    let s := held.modTimeline (fun x => { x with pendingPeriod := some 20000 })
    (s.timeline.state = .held ∧ s.timeline.period = 16667) ∧
    ∀ c ∈ [Instr.source (at_ 0) 0 0#8, .lossTimerExpiry (at_ 0)], let t := (after c s).timeline
      t.period = 20000 ∧ t.pendingPeriod = none ∧ t.tempo = 12000 ∧ t.state = .running := by decide +kernel

theorem test_witness_RunStopAndLocateTakeEffect : conducting.ready 0 = true ∧ conducting.timeline.conductor = some 0 ∧
    (conducting.modTimeline (fun x => { x with position := 4294967294 })).timeline.position < 4294967295 ∧
    conducting.timeline.state = .stopped ∧ held.timeline.state ≠ .stopped ∧ (conducting.entries.map (·.slot)).Nodup := by
  decide +kernel

/-- METER's mark in the timeline summary it replies with, the last byte (R182; log entry 35), and the listed items before it. -/
theorem test_meter_summary : reply (.meter (at_ 0) 0 3#8) conducting = [0#8, 0#8, 0#8, 0#8] ++ b4 0 ++ b4 0 ++ b1 0 ++ b2 0 ++
    b2 12000 ++ b4 16667 ++ [0#8, 0#8, 0#8, 0#8, 1#8] := by decide +kernel

/-- STOP's damper units (R103): an OPEN one whose minimum open time has passed begins CLAMPING, a LIFTING one goes on. -/
theorem test_stop_clears_holds :
    let hold : Hold := { voice := 0, bar := none, endTick := none }
    let s := (held.modDamper 0 (fun d => { d with state := .opened, minPassed := true, holds := [hold] })).modDamper 1 (fun d =>
      { d with state := .lifting, liftEnd := some 9, holds := [hold] })
    let t := after (.stop (at_ 0) 0) s
    ((t.damper 0).state, (t.damper 0).clampEnd, (t.damper 0).holds) = (.clamping, some (t.now + 8000), []) ∧
    ((t.damper 1).state, (t.damper 1).liftEnd, (t.damper 1).holds) = (.lifting, some 9, []) := by decide +kernel

/-- The outcomes with which CANCEL, FLUSH, CLOSE, HALT and LOCATE let an entry leave (R46, R47, R26, R126, R48). -/
theorem test_outcomes_of_requests :
    let s := { conducting with voices := owned.voices, entries := [stroke] }
    [Instr.cancel (at_ 0) 0 0#8 17#8, .flush (at_ 0) 0 0#8, .closeVoice (at_ 0) 0 0#8, .halt (at_ 0) 0 0#8 1#8,
      .locate (at_ 0) 0 9601#32].map (fun c => (((after c s).port 0).echo.map (·.outcome), (after c s).entries.length)) =
      [([.cancelled], 0), ([.flushed], 0), ([.flushed], 0), ([.flushed], 0), ([.passed], 0)] := by decide +kernel

theorem test_witness_VoicesOpenAndClose : State.reset.ready 0 = true ∧ (14 < (15#8).toNat ∧ 3 < (4#8).toNat ∧
      127 < (128#8).toNat ∧ (0#8).toNat < (1#8).toNat) ∧
    ((3#8).toNat ≤ 3 ∧ (127#8).toNat ≤ (127#8).toNat ∧ (0 : VoiceId) ≠ chimeVoice ∧ (State.reset.voice 0).state = .closed ∧
      (∀ u : VoiceId, u < 0 → (State.reset.voice u).state = .opened) ∧ (owned.voice 0).state = .opened) ∧
    (let full : State := { owned with voices := owned.voices.mapWith (fun _ v => { v with state := .opened }) };
      full.ready 0 = true ∧ ∀ v : VoiceId, v ≠ chimeVoice → (full.voice v).state = .opened) ∧
    (owned.owns 0 0 = true ∧ owned.owns 0 15 = false ∧ (released.entries.map (·.slot)).Nodup ∧
      (driving (rolling 0 0)).entries.countP (fun e => e.voice = 0 && e.state = .firing && e.part.isRoll) = 1) := by
  decide +kernel

theorem test_witness_StrokesAreAdmittedOrRefused :
    (owned.ready 0 = true ∧ owned.decisions = [] ∧ owned.owns 0 0 = true ∧ (owned.voice 0).low ≤ (0 : BarId).1 ∧
      (127 : BarId).1 ≤ (owned.voice 0).high ∧ 1#8 ≠ 0#8 ∧ 1#16 ≠ 0#16 ∧ owned.entries.length < 256 ∧
      owned.useCount 0 < owned.quotas.look 0 ∧ (∀ e ∈ owned.entries, e.slot ≠ 0) ∧
      (∀ k : SlotId, k < 0 → ∃ e ∈ owned.entries, e.slot = k) ∧
      owned.timeline.position < 10 - (owned.timeline.times (owned.bar 127).cls).leadTicks ∧ 4294967294 + 1 ≤ 4294967295) ∧
    (2 ≤ (2#8).toNat ∧ (32#8).toNat ≤ 32 ∧ 1 ≤ (1#8).toNat ∧ (240#8).toNat ≤ 240 ∧ 5 ≤ (5#16).toNat ∧ (400#16).toNat ≤ 400) ∧
    ((1#8).toNat < 2 ∧ 32 < (33#8).toNat ∧ 240 < (241#8).toNat ∧ (4#16).toNat < 5 ∧ 400 < (401#16).toNat ∧
      256 ≤ (List.replicate 256 stroke).length ∧ (0#8).getLsbD 1 = false ∧ (2#8).getLsbD 1 = true ∧
      ¬ 4294967295 < 4294967295 + 0 ∧ 4294967295 < 4294967295 + (2 - 1) * 1) ∧
    ((3#8).toNat < 4 ∧ owned.owns 1 0 = false ∧ (owned.voice 0).high < 128 ∧
      4294967295 < (owned.modTimeline (fun x => { x with position := 1 })).timeline.position + (4294967295#32).toNat ∧
      ({ owned with quotas := owned.quotas.put 0 0 } : State).quotas.look 0 ≤ owned.useCount 0) := by decide +kernel

theorem test_witness_EntriesAreChoppedCancelledFlushed : released.ready 0 = true ∧ released.commands 0 0 = true ∧
    released.commands 1 0 = false ∧ (released.entries.map (·.slot)).Nodup := by decide +kernel

/-- Port 0's load pointer at the last byte of its area, and an area at the end of memory. -/
theorem test_witness_SeekAndLoadTakeEffect :
    let ready := owned.modPort 0 (fun q => { q with loadPointer := 4127 })
    ready.ready 0 = true ∧ (32767#16).toNat ≤ 32767 ∧ 32767 < (32768#16).toNat ∧ memWf ready.mem = true ∧
    dataAllowed [1#8] = true ∧ ready.areaFor 0 4127 4127 = some 0 ∧ (ready.player 0).state = .idle ∧
    ready.areaFor 0 4127 4128 = none ∧ ready.areaFor 0 0 4095 = some 15 ∧ ready.areaFor 1 4127 4127 = none ∧
    ((ready.modPlayer 0 (fun x => { x with state := .armed })).player 0).state ≠ .idle := by decide +kernel

/-- The lowest area and the highest, an address off a step's start, and one below the lowest. -/
theorem test_witness_AreasAreBound : owned.ready 0 = true ∧ owned.owns 0 0 = true ∧ owned.owns 1 0 = false ∧
    (4096 % 8 = 0 ∧ (32767 + 1) % 8 = 0 ∧ 4096 ≤ 32767) ∧ ¬ 4097 % 8 = 0 ∧ ¬ 4096 ≤ 4088 ∧ (owned.player 0).state = .idle ∧
    (∃ a, (owned.voice 0).area = some a ∧ 4120 ≤ a.last ∧ a.first ≤ 4135) ∧ (1 : VoiceId) ≠ 0 := by
  refine ⟨?_, ?_, ?_, ?_, ?_, ?_, ?_, ⟨_, rfl, ?_⟩, ?_⟩ <;> decide +kernel

/-- A marker step: its delta and its kind byte. -/
def marker (delta : Half) (kind : Byte) : List Byte := halfBytes delta ++ [kind, 0#8, 0x80#8, 0#8, 0#8, 0#8]

/-- The timeline runs, at position 0. -/
def running (s : State) : State := s.modTimeline (fun x => { x with state := .running, tickDue := some 16667 })

/-- `owned` on a running timeline, with bytes at the start of voice 0's area and of the chime area. -/
def phrased (bytes : List Byte) : State :=
  running { owned with mem := memWriteAll (memWriteAll owned.mem 4096 bytes) 0 bytes }

/-- Horizons 240 and 1,920, the last chime start address, a start far ahead, and a player that plays. -/
theorem test_witness_PlayersStartAndHalt : owned.ready 0 = true ∧ owned.decisions = [] ∧ owned.owns 0 0 = true ∧
    (owned.voice 0).area.isSome = true ∧ 240 ≤ (240#16).toNat ∧ (1920#16).toNat ≤ 1920 ∧ (4294967295#32).toNat ≤ 4294967295 ∧
    (owned.player 0).state = .idle ∧ (owned.player chimeVoice).state = .idle ∧ owned.timeline.state = .stopped ∧
    (4088#16).toNat % 8 = 0 ∧ (4088#16).toNat ≤ 4088 ∧ owned.commands 0 0 = true ∧ owned.commands 1 0 = false ∧
    ((owned.modPlayer 0 (fun x => { x with state := .starved })).player 0).state ≠ .idle ∧
    following.timeline.position + 1920 < 4311 ∧
    (let s := phrased (marker 241#16 0x82#8);
      s.timeline.state ≠ .stopped ∧ (240#32).toNat ≤ s.timeline.position + 240 ∧ (decodeStep s.mem 4096).delta = 241 ∧
      s.timeline.position + 240 < 0 + 241 ∧ (decodeStep s.mem 0).delta = 241 ∧
      (∃ a ∈ (s.voice 0).area, (s.voice 0).area = some a ∧ a.first + 7 ≤ a.last ∧ a.retained = 0) ∧
      (∃ a ∈ (s.voice chimeVoice).area, 0 + 7 ≤ a.last) ∧ s.decisions = []) ∧
    decodeStep (phrased (marker 240#16 0x81#8)).mem 4096 = { delta := 240, body := .ended } ∧
    0 + 240 ≤ (phrased []).timeline.position + 240 := by decide +kernel

/-- CUE and CHIME refused: by another port, with no area, with a horizon or a start address out of range (R117, R129). -/
theorem test_witness_CueIsRefused :
    let cue := fun (p : PortId) (horizon : Half) => Instr.cue (at_ 0) p 0#8 0#8 1#8 0#8 0#32 horizon
    let bare := owned.modVoice 0 (fun v => { v with area := none })
    (owned.ready 1 = true ∧ owned.owns 1 0 = false ∧ owned.owns 0 0 = true ∧ bare.owns 0 0 = true ∧ (bare.voice 0).area = none) ∧
    (((after (cue 1 240#16) owned).port 1).reply.map (·.payload.head?)) = some (some Status.owner.code) ∧
    (said (after (cue 0 240#16) bare)).head? = some Status.state.code ∧
    (∀ c ∈ [cue 0 239#16, cue 0 1921#16, .chime (at_ 0) 0 4#16 0#8 0#8 0#32 240#16, .chime (at_ 0) 0 4096#16 0#8 0#8 0#32 240#16,
        .chime (at_ 0) 0 0#16 0#8 0#8 0#32 239#16],
      (said (after c owned)).head? = some Status.range.code) := by decide +kernel

/-- A ring that has just room, one that has not, no area, another owner's voice, a player that plays a phrase, and a STARVED one,
on a STOPPED timeline and on one whose horizon the step pushed lies just beyond. -/
theorem test_witness_StreamRequestsTakeEffect : owned.ready 0 = true ∧ stepsAllowed (List.replicate 8 0#8) = true ∧
    owned.owns 1 0 = false ∧ owned.owns 0 0 = true ∧
    (owned.modVoice 0 (fun v => { v with area := none })).owns 0 0 = true ∧
    (∃ a, (owned.voice 0).area = some a ∧ (List.replicate 32 0#8).length ≤ a.last + 1 - a.first - a.retained ∧
      a.last + 1 - a.first - a.retained < (List.replicate 40 0#8).length ∧ (a.last + 1 - a.first) % 8 = 0 ∧
      (a.write - a.first) % 8 = 0 ∧ a.first ≤ a.write ∧ a.write ≤ a.last ∧
      (let starved := (running owned).modPlayer 0 (fun x => { x with state := .starved, mode := .stream });
        (starved.player 0).state = .starved ∧ starved.decisions = [] ∧ starved.timeline.state ≠ .stopped ∧
        owned.timeline.state = .stopped ∧ (starved.player 0).previousDue = 0 ∧ (starved.player 0).horizon = 480 ∧
        (decodeStep (pushSteps starved.mem a (marker 481#16 0x82#8)).1 a.read).delta = 481 ∧
        starved.timeline.position + 480 < 0 + 481)) ∧
    (owned.player 0).state ≠ .starved ∧ memWf owned.mem = true ∧
    ((owned.modPlayer 0 (fun x => { x with state := .running })).player 0).state ≠ .idle ∧
    (owned.player 0).mode ≠ .stream := by
  refine ⟨?_, ?_, ?_, ?_, ?_, ⟨_, rfl, ?_⟩, ?_, ?_, ?_, ?_⟩ <;> decide +kernel

/-- The pushed steps' places, clause by clause at the ring's end: the write position at the last step, two steps pushed. -/
theorem test_witness_PushedSteps :
    let a : Area := { first := 4096, last := 4127, read := 4096, write := 4120, retained := 0 }
    memWf [(4096, 1#8)] = true ∧ (List.replicate 16 0#8).length % 8 = 0 ∧ a.first ≤ a.write ∧ a.write ≤ a.last ∧
    (a.last + 1 - a.first) % 8 = 0 ∧ (a.write - a.first) % 8 = 0 ∧ 16 ≤ a.last + 1 - a.first ∧
    a.first + (a.write - a.first + 8 * 1) % (a.last + 1 - a.first) = 4096 := by decide +kernel

/-- A told player of voice 0 at the start of its area, which holds some bytes. -/
def stalled (bytes : List Byte) (f : Player → Player) : State := (phrased bytes).modPlayer 0 (fun x => f { x with
  state := .stalled, told := true, startAddress := 4096, nextAddress := 4096 })

/-- A told player on a timeline that is STOPPED, and one that runs, in each mode, past the end of its area, at the end of the tick
range, and in a stream with nothing retained, the last step retained, and END next. -/
theorem test_witness_StalledPlayersResume :
    (let s := stalled [] id;
      s.power.inReset = false ∧ s.decisions = [] ∧ (s.player 0).state = .stalled ∧ (s.player 0).told = true ∧
      s.timeline.state ≠ .stopped ∧ (s.modTimeline (fun x => { x with state := .stopped })).timeline.state = .stopped ∧
      (∃ a ∈ (s.voice 0).area, (s.voice 0).area = some a ∧ (s.player 0).nextAddress + 7 ≤ a.last ∧ a.last < 4121 + 7 ∧
        a.retained = 0) ∧ (0 : VoiceId) ≠ chimeVoice ∧ (s.voice 0).owner = some 0 ∧ (s.player 0).mode = .once ∧
      (s.player 0).horizon = 480 ∧ s.timeline.position = 0) ∧
    (let s := stalled (marker 1#16 0x82#8) (fun x => { x with previousDue := 4294967295 });
      4294967295 < (s.player 0).previousDue + (decodeStep s.mem 4096).delta) ∧
    ((decodeStep (stalled (marker 481#16 0x82#8) id).mem 4096).delta = 481 ∧ 480 < 0 + 481) ∧
    (∀ k ∈ [0x80#8, 0x81#8, 0x82#8, 0x83#8],
      let s := stalled (marker 480#16 k ++ marker 1#16 0x82#8) id;
      (decodeStep s.mem 4096).delta = 480 ∧ (decodeStep s.mem 4104).delta = 1 ∧ 480 < 480 + 1 ∧ 4104 + 7 ≤ 4127 ∧
      (decodeStep s.mem 4096).body = if k = 0x80#8 then .mark else if k = 0x81#8 then .ended else if k = 0x82#8 then .rest
        else .invalid) ∧
    (∀ n ∈ [0, 1, 2], let s := stalled (marker 480#16 0x81#8) (fun x => { x with
        mode := .loop, loops := n, passes := 0, passDue := 480 * (n / 2) });
      (s.player 0).mode = .loop ∧ ((s.player 0).loops ≠ 0 ∧ min 255 (0 + 1) = (s.player 0).loops ↔ n = 1) ∧
      (0 + 480 = (s.player 0).passDue ↔ n = 2) ∧ ((s.player 0).returnPoint.map (· + 8)).getD (s.player 0).startAddress = 4096 ∧
      480 < 480 + (decodeStep s.mem 4096).delta) ∧
    (let s := stalled [] (fun x => { x with mode := .stream });
      let steps : Byte → List Byte := fun k => marker 480#16 k;
      (s.player 0).mode = .stream ∧ (decodeStep (stalled (steps 0x81#8) id).mem 4096).body = .ended ∧
      (decodeStep (stalled (steps 0x82#8) id).mem 4096).body = .rest ∧
      ∃ a ∈ ((s.modVoice 0 (fun v => { v with area := v.area.map (fun a => { a with retained := 8 }) })).voice 0).area,
        a.retained ≠ 0 ∧ a.retained ≤ 8 ∧ a.read = 4096) := by decide +kernel

/-- The stroke that a told player holds: admitted, refused for its strength 0, and FULL by the quota. -/
theorem test_witness_StalledStrokes :
    let single : Byte → List Byte := fun strength => [10#8, 0#8, 0#8, strength, 0#8, 7#8, 0#8, 0#8] ++ marker 471#16 0x82#8
    let s := stalled (single 100#8) id
    decodeStep s.mem 4096 = { delta := 10, body := .stroke 0 .single 100 7#8 none } ∧
    decodeStep (stalled (single 0#8) id).mem 4096 = { delta := 10, body := .stroke 0 .single 0 7#8 none } ∧
    (s.voice 0).low ≤ 0 ∧ 10 + (none : Option Nat).getD 0 ≤ 4294967295 ∧ s.entries = [] ∧
    s.useCount 0 < s.quotas.look 0 ∧ ({ s with quotas := Bank.fill 4 0 } : State).quotas.look 0 ≤ s.useCount 0 ∧
    s.timeline.position + 480 < 10 + (decodeStep s.mem 4104).delta ∧ 10 + (decodeStep s.mem 4104).delta ≤ 4294967295 ∧
    s.timeline.position < 10 - (s.timeline.times (s.bar 0).cls).leadTicks := by decide +kernel

/-- Steps of the kinds SINGLE, ROLL, PRESS and marker, with every bit of a field at its end: the last bar, parameter A 127, parameter
B at its two ends, and the first marker code that names nothing (the table of spec/11, R114, R196). -/
theorem test_steps_of_every_kind :
    let read : List Byte → Step := fun bytes => decodeStep (phrased bytes).mem 4096
    read [0xFF#8, 0x01#8, 127#8, 255#8, 127#8, 9#8, 0#8, 0#8] = { delta := 511, body := .stroke 127 .single 255 9#8 none } ∧
    read [0#8, 0#8, 1#8, 1#8, 0#8, 9#8, 0xFF#8, 0xFF#8] = { delta := 0, body := .stroke 1 .single 1 9#8 (some 65535) } ∧
    read [0#8, 0#8, 0xA8#8, 90#8, 127#8, 9#8, 240#8, 0#8] = { delta := 0, body := .stroke 40 (.roll {
      count := 127, spacing := 240, firstDue := 0, played := 0, missed := 0, chopMark := false, flushMark := false }) 90 9#8 none } ∧
    read [0#8, 0#8, 40#8, 90#8, 0xE4#8, 9#8, 200#8, 0#8] =
      { delta := 0, body := .stroke 40 (.press { holdMs := 400, duty := 200 }) 90 9#8 none } ∧
    read [5#8, 0#8, 0x83#8, 0#8, 0x80#8, 0#8, 0#8, 0#8] = { delta := 5, body := .invalid } := by decide +kernel

/-- Players at a tick expiry: ARMED before and at its start, RUNNING with a step just beyond the horizon and a REST at it. -/
theorem test_witness_PlayersAtATick :
    (∀ start ∈ [481, 482], let s := (phrased (marker 480#16 0x82#8 ++ marker 2#16 0x82#8)).modPlayer 0 (fun x => { x with
        state := .armed, start := start, previousDue := 1, nextAddress := 4096 });
      s.power.inReset = false ∧ s.decisions = [] ∧ s.entries = [] ∧ s.timeline.state = .running ∧
      s.timeline.tickDue = some 16667 ∧ s.timeline.source = .internal ∧ s.timeline.position + 1 < 4294967295 ∧
      (∀ u, u ≠ 0 → (s.player u).state = .idle) ∧ (s.voice 0).area.isSome = true ∧ (s.voice 0).owner = some 0 ∧
      (s.timeline.position + 1 + (s.player 0).horizon < (s.player 0).start ↔ start = 482) ∧
      (decodeStep s.mem 4096) = { delta := 480, body := .rest } ∧ 1 + 480 ≤ s.timeline.position + 1 + 480 ∧ 4096 + 15 ≤ 4127 ∧
      s.timeline.position + 1 + 480 < 1 + 480 + (decodeStep s.mem 4104).delta) ∧
    (decodeStep (phrased (marker 482#16 0x82#8)).mem 4096).delta = 482 := by decide +kernel

theorem test_witness_PedalPlacesAndRemovesHolds : playing.ready 0 = true ∧ playing.owns 0 0 = true ∧ playing.owns 1 0 = false ∧
    playing.stage.stage = .playing ∧ owned.stage.stage ≠ .playing := by decide +kernel

/-- Damper units in each state with a timer. -/
theorem test_witness_DamperUnitsFollowTheirTimers :
    let unit : Damper → State := fun d => State.reset.modDamper 0 (fun _ => d)
    let hold : Hold := { voice := 0, bar := none, endTick := none }
    let lifting : Damper := { Damper.initial with state := .lifting, liftEnd := some 12000 }
    let opened : Damper := { Damper.initial with state := .opened, openSince := some 12000 }
    let clamping : Damper := { Damper.initial with state := .clamping, clampEnd := some 40000 }
    ((unit lifting).power.inReset = false ∧ ((unit lifting).damper 0).state = .lifting ∧
      ((unit lifting).damper 0).liftEnd = some 12000 ∧ 0 < lifting.minOpen ∧
      ({ lifting with minOpen := 0 } : Damper).holds = []) ∧
    (((unit opened).damper 0).state = .opened ∧ ((unit opened).damper 0).minPassed = false ∧
      ((unit opened).damper 0).openSince = some 12000 ∧ 32000 = 12000 + opened.minOpen) ∧
    (((unit clamping).damper 0).state = .clamping ∧ ((unit clamping).damper 0).clampEnd = some 40000 ∧
      ({ clamping with holds := [hold] } : Damper).holds ≠ []) ∧
    (({ Bar.initial with damper := some 0 } : Bar).damper = some 0 ∧ Bar.initial.damper = none) ∧
    (let s := (running State.reset).modDamper 0 (fun d => { d with
        state := .opened, openSince := some 0, holds := [{ hold with endTick := some 1 }, { hold with endTick := some 2 }] });
      s.power.inReset = false ∧ s.decisions = [] ∧ s.entries = [] ∧ (∀ v, (s.player v).state = .idle) ∧
      s.timeline.state = .running ∧ s.timeline.tickDue = some 16667 ∧ s.timeline.source = .internal ∧
      s.timeline.position + 1 < 4294967295 ∧ 1 ≤ s.timeline.position + 1 ∧ ¬ 2 ≤ s.timeline.position + 1) := by decide +kernel

/-- Every stage with the guard as it can stand. -/
theorem test_witness_StageRequestsFollowTheTable : ∀ g ∈ [Stage.dormant, .charging, .standby, .playing, .guarded, .discharging,
      .fault], (staged g true).ready 0 = true ∧ (staged g true).stage.stage = g ∧ (staged g true).stage.guardClosed = true ∧
      (staged g false).stage.guardClosed = false := by decide +kernel

theorem test_witness_StageFitted : (∃ r, (stand.rail r).fitted = true) ∧ ¬ (∃ r, (State.reset.rail r).fitted = true) := by
  decide +kernel

/-- A stroke driven without a window, one with a window, a roll driven, a RELEASED stroke and a FIRING one that no striker plays;
and the sample that is the third in a row below half of the nominal. -/
theorem test_witness_LeavingPlayingStopsEverything :
    (∀ s ∈ [driving stroke, driving (rolling 1 0), released, listening 900 id,
        { driving stroke with sense := (listening 900 id).sense }],
      s.power.inReset = false ∧ s.stage.stage = .playing ∧ (s.entries.map (·.slot)).Nodup ∧ s.ready 0 = true ∧
      s.stage.guardClosed = true ∧ ∃ e ∈ s.entries, s.entries = [e]) ∧
    (((driving stroke).striker 35).state = .drive ∧ ((driving stroke).striker 35).playing = some stroke.slot ∧
      (driving stroke).windowFor 0 = false ∧ (listening 900 id).windowFor 0 = true ∧ (rolling 1 0).part.isRoll = true ∧
      (∀ n, ((listening 900 id).striker n).playing ≠ some 0)) ∧
    (let s := ((driving stroke).modRail 2 (fun r => { r with lowRun := 2 })).modSense (fun x => { x with
        conv := some { input := .rail 2, came := 0, done := 10, gain := 1 } });
      s.sense.waiting = [] ∧ s.decisions = [] ∧ (s.rail 2).state = .up ∧ (s.rail 2).lowRun = 2 ∧
      2 * ((11999#16).toNat / 10) < (s.rail 2).nominal ∧ ¬ 2 * ((12000#16).toNat / 10) < (s.rail 2).nominal) := by decide +kernel

theorem test_witness_GuardEdgesMoveTheStage : State.reset.power.inReset = false ∧
    (staged .standby true).stage.guardClosed ≠ false ∧ (staged .guarded false).stage.guardClosed ≠ true ∧
    (staged .fault true).stage.guardClosed ≠ false ∧ (staged .dormant false).stage.guardClosed ≠ true := by decide +kernel

/-- A rail that charges and stands settled just long enough. -/
def charging : State := (((staged .charging true).modStage (fun x => { x with
    chargeDue := some 3000000, target := some .playing })).modRail 2 (fun r => { r with
    fitted := true, state := .charging, settleSince := some 60500 })).modSense (fun x => { x with
    conv := some { input := .rail 2, came := 260490, done := 260500, gain := 1 } })

theorem test_witness_ChargesAndDischargesEnd : charging.power.inReset = false ∧ charging.stage.stage = .charging ∧
    charging.stage.chargeDue = some 3000000 ∧ charging.sense.waiting = [] ∧ charging.decisions = [] ∧
    (charging.rail 2).fitted = true ∧ (charging.rail 2).state = .charging ∧
    (charging.rail 2).nominal * 90 / 100 ≤ (21600#16).toNat / 10 ∧
    (∀ q, (charging.rail q).fitted = true → (charging.rail q).settleSince = some 60500 ∧
      60500 + charging.stage.settleMs * 1000 ≤ 260500) ∧
    ((staged .discharging true).modStage (fun x => { x with dischargeDue := some 5000000 })).stage.dischargeDue =
      some 5000000 := by decide +kernel

/-- A sample that starts a rail's run and one that ends it; one that sets the last bled mark, with another rail's clear and set. -/
theorem test_witness_SamplesOfACharge :
    let fresh := charging.modRail 2 (fun r => { r with settleSince := none })
    let off : Bool → State := fun b => ((charging.modStage (fun x => { x with stage := .discharging })).modRail 2 (fun r => { r with
      state := .off })).modRail 1 (fun r => { r with fitted := true, bled := b })
    (fresh.power.inReset = false ∧ fresh.sense.conv = some { input := .rail 2, came := 260490, done := 260500, gain := 1 } ∧
      fresh.sense.waiting = [] ∧ fresh.decisions = [] ∧ (fresh.rail 2).fitted = true ∧ (fresh.rail 2).state = .charging ∧
      (fresh.rail 2).settleSince = none ∧ 2159 < (fresh.rail 2).nominal * 90 / 100 ∧ (fresh.rail 2).nominal * 90 / 100 ≤ 2160 ∧
      ¬ 260500 + fresh.stage.settleMs * 1000 ≤ 260500) ∧
    (∀ b, (off b).stage.stage = .discharging ∧ ((off b).rail 2).state = .off ∧ ((off b).rail 2).fitted = true ∧
      ((off b).rail 1).bled = b ∧ 199 < 200 ∧ ¬ 200 < 200 ∧ ∀ r, r ≠ 1 → r ≠ 2 → ((off b).rail r).fitted = false) := by
  decide +kernel

theorem test_witness_EchoRecordsAndNoticesAreRead : State.reset.ready 0 = true ∧ 8 < (9#8).toNat ∧ (8#8).toNat ≤ 8 ∧
    1#8 ≠ 0#8 := by decide +kernel

/-- A record whose marked absences all stand, in the layout of spec/11: a FLUSHED roll with DAMPED and NO_LISTEN set. -/
theorem test_echo_record_of_a_roll : (({ rolling 2 1 with flags := { damped := true } } : Entry).echo .flushed).bytes =
    [0#8, 17#8, 40#8, 1#8, 0x80#8, 0x25#8, 0#8, 0#8, 200#8, 0#8, 0xFF#8, 5#8, 0xFF#8, 0xFF#8, 0#8, 0#8, 0xFF#8, 0xFF#8,
      0x0A#8, 2#8, 1#8] := by decide +kernel

theorem test_witness_ReadingChangesNothing : State.reset.ready 0 = true ∧ 1 ≤ (1#8).toNat ∧ (56#8).toNat ≤ 56 ∧
    (32767#16).toNat + (1#8).toNat - 1 ≤ 32767 ∧ 32767 < (32767#16).toNat + (2#8).toNat - 1 ∧ 16 ≤ (16#8).toNat ∧
    128 ≤ (128#8).toNat ∧ 96 ≤ (96#8).toNat ∧ 6 ≤ (6#8).toNat ∧ 8 ≤ (8#8).toNat ∧ 4 ≤ (4#8).toNat ∧ 24 ≤ (254#8).toNat ∧
    254#8 ≠ 0xFF#8 ∧ (-2147483648 : Int) ≤ 2147483647 ∧ bSigned (-1) = [0xFF#8, 0xFF#8, 0xFF#8, 0xFF#8] := by decide +kernel

/-- An inner tick, the last tick of a beat, a bar line, and the last position that the statement allows. -/
theorem test_witness_TickExpiryAdvancesTheTimeline : lastTick.power.inReset = false ∧ lastTick.timeline.state = .running ∧
    lastTick.timeline.tickDue = some 1600 ∧ lastTick.timeline.source = .internal ∧ (lastTick.timeline.position + 1) % 240 = 0 ∧
    lastTick.timeline.beatInBar + 1 < lastTick.timeline.beatsPerBar ∧
    (ritardando 2 10667).timeline.ramp = some { target := 10000, start := 12000, length := 3, done := 2 } ∧
    (let bar := lastTick.modTimeline (fun x => { x with beatInBar := 3 });
      bar.timeline.beatsPerBar ≤ bar.timeline.beatInBar + 1) ∧
    (let last := lastTick.modTimeline (fun x => { x with position := 4294967293 });
      last.timeline.position + 1 < 4294967295 ∧ last.timeline.position % 240 ≠ 239) ∧
    (let final := lastTick.modTimeline (fun x => { x with position := 4294967294 });
      final.timeline.position = 4294967294 ∧ final.timeline.tickDue = some 1600 ∧ final.timeline.state = .running) ∧
    (let beat := following.modTimeline (fun x => { x with position := 4294967280 });
      beat.power.inReset = false ∧ beat.timeline.state = .running ∧ beat.timeline.source = .sync ∧
      4294967280 ≤ beat.timeline.position ∧ beat.timeline.position < 4294967295 ∧ beat.timeline.lastPulse = some 1000000 ∧
      100000 ≤ max beat.now 1100000 - 1000000) := by decide +kernel

/-- `following` meets the timeline's invariant, and its pulses stand around the 100,000 µs of R16. -/
theorem test_following_is_sound : following.TimelineSound := by
  refine ⟨?_, ?_, ?_, ?_, ?_, ?_, ?_, ?_, ?_, ?_, ?_⟩
  case refine_6 =>
    have none : following.timeline.pendingMeter = none := by decide +kernel
    intro m h
    rw [none] at h
    cases h
  all_goals decide +kernel

theorem test_witness_SyncModeFollowsThePulses : following.power.inReset = false ∧ following.timeline.source = .sync ∧
    following.timeline.state ≠ .stopped ∧ following.timeline.lastPulse = some 1000000 ∧
    max following.now 1099999 - 1000000 < 100000 ∧ 100000 ≤ max following.now 1100000 - 1000000 ∧
    following.timeline.position - following.timeline.position % 240 + 240 < 4294967295 ∧
    (following.modTimeline (fun x => { x with position := 2639 })).timeline.position % 240 = 239 ∧
    lastTick.timeline.source = .internal := by decide +kernel

/-- The stroke of `released` on a bar with one striker, at its deadline. -/
theorem test_witness_GrantFiresTheStriker :
    let s := released.modBar 40 (fun b => { b with first := some 35, second := none })
    s.power.inReset = false ∧ s.decisions = [] ∧ (s.entries.map (·.slot)).Nodup ∧
    (∃ e ∈ s.entries, s.entryAt 0 = some e ∧ e.state = .released ∧ e.targetReached = false ∧ e.target = some 2000 ∧
      e.deadline = some 10000 ∧ (s.bar e.bar).first = some 35 ∧ (s.bar e.bar).second = none ∧ s.members (railOf 35) = [e] ∧
      e.part.isRoll = false) ∧
    s.stage.stage = .playing ∧ (s.rail (railOf 35)).state = .up ∧ (s.rail (railOf 35)).spacingEnd = none ∧
    (s.rail (railOf 35)).recent.length < (s.rail (railOf 35)).count ∧ max s.now (max 2000 10000) ≤ 10000 ∧
    (s.striker 35).state = .idle ∧ (s.striker 35).heat < (s.striker 35).hard ∧
    ((s.modRail (railOf 35) (fun r => { r with state := .low })).rail (railOf 35)).state ≠ .up := by decide +kernel

theorem test_witness_ArbiterChoosesByTheKeys : (contention.firstStroke contention.entries).isSome = true ∧
    contention.firstStroke [] = none ∧ contention.chooseStriker false [16, 17] = some 16 ∧
    contention.chooseStriker true [17, 16] = some 16 ∧ contention.chooseStriker true [] = none := by decide +kernel

/-- The rail of `contention` with its spacing end at 1,000,000 and some entries on it. -/
def freed (entries : List Entry) : State := { contention with
  entries := entries, rails := contention.rails.put 1 { contention.rail 1 with spacingEnd := some 1000000 } }

/-- A RELEASED stroke for `freed`. -/
def due_ (slot : SlotId) (bar : BarId) (part : StrokePart) : Entry := { stroke with
  slot := slot, bar := bar, part := part, seq := slot.1, state := .released, target := some 1000000, deadline := some 1000000 }

/-- Two strokes on a bar with two strikers at a spacing end, at the target and at the deadline: slot 1 is granted before slot 2, and
striker 16 before 17. -/
theorem test_witness_GrantAtASpacingEnd : ∀ part ∈ [StrokePart.single, (rolling 0 0).part],
    let s := freed [due_ 1 20 part, due_ 2 20 .single]
    s.power.inReset = false ∧ s.decisions = [] ∧ s.stage.stage = .playing ∧ (s.entries.map (·.slot)).Nodup ∧
    (s.rail 1).spacingEnd = some 1000000 ∧ (s.rail 1).state = .up ∧ (s.rail 1).recent.length < (s.rail 1).count ∧
    0 < (s.rail 1).spacing ∧ max s.now (max 1000000 0) = 1000000 ∧ s.members 1 = [due_ 1 20 part, due_ 2 20 .single] ∧
    (s.bar 20).strikers = [16, 17] ∧ railOf 16 = 1 ∧ (due_ 1 20 part).target = (due_ 2 20 .single).target ∧ (due_ 1 20 part).seq < (due_ 2 20 .single).seq ∧
    (∀ n ∈ (s.bar 20).strikers, (s.striker n).state = .idle ∧ (s.striker n).heat < (s.striker n).hard) ∧
    (s.striker 16).heat = (s.striker 17).heat ∧ (s.striker 16).firedLast = false ∧ (s.striker 17).firedLast = true := by
  decide +kernel

/-- The one member is hot: a SINGLE, a ROLL with a stroke left and one with none. -/
theorem test_witness_HotMembers : ∀ part ∈ [StrokePart.single, (rolling 1 0).part, (rolling 1 1).part],
    let s := freed [due_ 3 60 part]
    s.members 1 = [due_ 3 60 part] ∧ (s.bar 60).strikers = [24] ∧ (s.striker 24).state ≠ .locked ∧
    (s.striker 24).hard ≤ (s.striker 24).heat ∧ (1 + (0 + 1) < 3 ∧ 3 ≤ 1 + (1 + 1)) ∧
    s.timeline.position < 9600 + 2 - (s.timeline.times (s.bar 60).cls).leadTicks := by decide +kernel

/-- Striker 34 ends its recovery with a lock pending, its bar's other striker IDLE and LOCKED, with one RELEASED stroke and two. -/
theorem test_witness_LockLeavesABarWithoutACandidate :
    let s : State := { stand with
      entries := [due_ 0 40 .single, due_ 1 40 .single]
      strikers := stand.strikers.put 34 { stand.striker 34 with lockPending := true, bar := some 40 } }
    let alone := s.modStriker 35 (fun k => { k with state := .locked })
    s.power.inReset = false ∧ s.decisions = [] ∧ (s.striker 34).state = .recover ∧ (s.striker 34).recoveryEnd = some 2050000 ∧
    (s.striker 34).lockPending = true ∧ (s.striker 34).bar = some 40 ∧
    (∃ m ∈ (s.bar 40).strikers, m ≠ 34 ∧ (s.striker m).state ≠ .locked) ∧
    (∀ m ∈ (alone.bar 40).strikers, m ≠ 34 → (alone.striker m).state = .locked) ∧
    alone.entries.filter (fun x => x.state = .released && x.bar = 40) = [due_ 0 40 .single, due_ 1 40 .single] ∧
    ({ alone with entries := [due_ 0 40 .single] } : State).entries.filter (fun x => x.state = .released && x.bar = 40) =
      [due_ 0 40 .single] := by decide +kernel

theorem test_witness_DeadlinesAndRailTimersTakeEffect : released.power.inReset = false ∧ released.decisions = [] ∧
    (∃ e ∈ released.entries, released.entryAt 0 = some e ∧ e.state = .released ∧ e.deadline = some 10000 ∧
      (released.bar e.bar).first = some 34) ∧ (released.entries.map (·.slot)).Nodup ∧
    (3 ≤ 1 + (1 + 1) ∧ 1 + (0 + 1) < 3 ∧
      released.timeline.position < 9600 + 2 - (released.timeline.times (released.bar 40).cls).leadTicks) ∧
    (let timed := stand.modRail 2 (fun r => { r with spacingEnd := some 5, recent := [0, 4] });
      timed.members 2 = [] ∧ (timed.rail 2).spacingEnd = some 5 ∧ (timed.rail 2).recent = 0 :: [4] ∧
        20000 = 0 + (timed.rail 2).window) := by decide +kernel

theorem test_witness_LeavingEntriesReachTheEchoQueue : (released.entryAt 0).isSome = true ∧
    (List.replicate 127 (stroke.echo .played)).length < 128 ∧ 128 ≤ (List.replicate 128 (stroke.echo .played)).length := by
  decide +kernel

/-- A single, a press and rolls (one flush-marked) at the drive end, on a bar without a pickup and on one with a free one, the striker
cool and hot. -/
theorem test_witness_DriveEndsTakeEffect : ∀ e ∈ [stroke, rolling 2 0, rolling 0 0,
      { stroke with part := .press { holdMs := 400, duty := 1 } }, { stroke with part := .roll {
        count := 3, spacing := 2, firstDue := 9600, played := 0, missed := 0, chopMark := false, flushMark := true } }],
    let s := driving e
    let deaf := s.modBar 40 (fun b => { b with pickup := none })
    s.power.inReset = false ∧ s.decisions = [] ∧ (s.striker 35).state = .drive ∧ (s.striker 35).driveEnd = some 7120 ∧
    (s.striker 35).playing = some 0 ∧ (s.striker 35).recoveryEnd = some 40000 ∧ (s.striker 35).lastFire = some 0 ∧
    (s.entryAt 0).isSome = true ∧ (s.entries.map (·.slot)).Nodup ∧ max s.now (max 7120 39999) < 40000 ∧
    (s.bar 40).pickup = some 5 ∧ (deaf.bar 40).pickup = none ∧ s.sense.windows = [] ∧ s.sense.conv = none ∧
    (s.striker 35).heat < (s.striker 35).hard ∧ s.windowFor 0 = false ∧
    (let hot := s.modStriker 35 (fun k => { k with heat := 40000 }); (hot.striker 35).hard ≤ (hot.striker 35).heat) ∧
    s.timeline.position < 9600 + 2 - (s.timeline.times (s.bar 40).cls).leadTicks := by decide +kernel

/-- Another stroke's window on pickup 5, open as a new stroke's drive ends: its last conversion in progress, or none. -/
def crowded (peak : Option Nat) (conv : Option Conversion) : State :=
  ({ driving stroke with entries := [{ stroke with state := .firing }, { stroke with slot := 1, seq := 502, state := .firing }] } :
    State).modSense (fun x => { x with
    conv := conv
    windows := [{ pickup := 5, slot := 1, striker := 34, closeTime := 40000, nextSample := 7370, samples := 1, peak := peak }] })

/-- Eight windows open; and a window that closes early, with its conversion in progress, with no peak, and with a peak at the
threshold. -/
theorem test_witness_WindowsCloseEarly :
    (let s := (driving stroke).modSense (fun x => { x with windows := (List.finRange 8).map (fun i => {
        pickup := ⟨i.1 + 10, by omega⟩, slot := 1, striker := 34, closeTime := 40000, nextSample := 7370, samples := 0
        peak := none }) });
      8 ≤ s.sense.windows.length ∧ ∀ x ∈ s.sense.windows, x.pickup ≠ 5) ∧
    (∀ peak ∈ [none, some 900], ∀ conv ∈ [none, some { input := SenseInput.pickup 5, came := 7115, done := 7125, gain := 1 }],
      let s := crowded peak conv
      s.power.inReset = false ∧ (s.entries.map (·.slot)).Nodup ∧ (s.bar 40).pickup = some 5 ∧ s.sense.closing = none ∧
      s.sense.waiting = [] ∧ s.sense.conv = conv ∧ ((34 : StrikerId) ≠ 35 ∧ (1 : SlotId) ≠ 0) ∧
      (s.entryAt 1).map (·.wasCut) = some false ∧ (s.striker 34).playing ≠ some 1 ∧ (s.bar 40).threshold ≤ 900) := by
  decide +kernel

/-- A window closed early with its conversion in progress, the new window's first sample waiting behind it. -/
theorem test_witness_JudgedAfterTheClose :
    let c : Conversion := { input := .pickup 5, came := 7115, done := 7125, gain := 1 }
    let s := after (.driveEnd (at_ 0) 35) ((crowded (some 100) (some c)).modStriker 34 (fun k => { k with lockThreshold := 0 }))
    s.power.inReset = false ∧ s.decisions = [] ∧ s.sense.conv = some c ∧
    s.sense.waiting = [{ input := .pickup 5, came := 7120 }] ∧ s.sense.closing.map (fun x => (x.pickup, x.slot, x.striker)) =
      some (5, 1, 34) ∧ (s.entryAt 1).map (·.wasCut) = some false ∧ (s.striker 34).playing ≠ some 1 ∧
    (s.striker 34).lockThreshold = 0 ∧ (s.bar 40).threshold = 900 := by decide +kernel

theorem test_witness_HoldsRecoveriesAndLocksEnd :
    (holding.power.inReset = false ∧ holding.decisions = [] ∧ (holding.striker 35).state = .hold ∧
      (holding.striker 35).holdEnd = some 12120 ∧ (holding.striker 35).playing = some 0 ∧
      (holding.striker 35).recoveryEnd = some 40000 ∧ max holding.now (max 12120 39999) < 40000 ∧
      holding.windowFor 0 = false ∧ (listening 0 id).windowFor 0 = true) ∧
    ((stand.striker 34).state = .recover ∧ (stand.striker 34).recoveryEnd = some 2050000 ∧
      (stand.striker 34).lockPending = false ∧ stand.members (railOf 34) = [] ∧ (∀ e ∈ stand.entries, e.state ≠ .released) ∧
      ((stand.modStriker 34 (fun k => { k with lockPending := true })).striker 34).lockPending = true) ∧
    (stand.ready 0 = true ∧ ((stand.modStriker 34 (fun k => { k with state := .locked })).striker 34).state = .locked ∧
      (stand.striker 34).state ≠ .locked) := by decide +kernel

/-- No press holds; and one that overheats at this step with a window open. -/
theorem test_witness_CoolingReachesEveryStriker :
    (stand.power.inReset = false ∧ stand.decisions = [] ∧ ∀ n, stand.dutyOf n = none) ∧
    (let s := { holding with sense := (listening 0 id).sense };
      s.entries = [{ stroke with part := .press { holdMs := 5, duty := 255 }, state := .firing }] ∧
      (s.striker 35).state = .hold ∧ (s.striker 35).playing = some 0 ∧ (s.striker 35).recoveryEnd = some 40000 ∧
      max s.now (max s.shaper.coolDue 39999) < 40000 ∧ (∀ m, m ≠ 35 → (s.striker m).playing ≠ some 0) ∧
      (s.striker 35).hard ≤ (s.striker 35).heat + 255 * 25000 / 2560 ∧ s.windowFor 0 = true) := by decide +kernel

theorem test_witness_ConversionsTakeEffect :
    (stand.power.inReset = false ∧ stand.decisions = [] ∧ (stand.rail 2).fitted = true ∧
      (∀ i : RailId, i < 2 - stand.sense.nextRail → (stand.rail (stand.sense.nextRail + i)).fitted = false) ∧
      stand.sense.conv = none ∧ ∀ r, (State.reset.rail r).fitted = false) ∧
    (let s := stand.modSense (fun x => { x with conv := some { input := .rail 2, came := 0, done := 10, gain := 1 } });
      s.sense.waiting = [] ∧ s.stage.stage ≠ .charging ∧ s.stage.stage ≠ .discharging ∧ (s.rail 2).state ≠ .low ∧
      ((s.rail 2).sampled ((24000#16).toNat / 10)).state ≠ .fault) ∧
    (let s := listening 0 id;
      (∃ x ∈ s.sense.windows, s.sense.windows = [x] ∧ x.pickup = 5 ∧ x.nextSample < x.closeTime) ∧ s.sense.conv = none ∧
      s.sense.closing = none ∧ s.sense.waiting = [] ∧ max s.now (max 10 39999) < 40000) := by decide +kernel

/-- A peak at the threshold and one below it, and a lock threshold of 1 on strikers IDLE, in RECOVER and LOCKED, with another entry in
the calendar; no peak; a stroke cut; and a press still held. -/
theorem test_witness_WindowsAreJudgedAtTheirClose :
    let other : Entry := { stroke with slot := 9, seq := 600 }
    let with_ : State → State := fun s => { s with entries := s.entries ++ [other] }
    let locking : StrikerState → State := fun st => with_ (listening 899 (fun k => { k with lockThreshold := 1, state := st }))
    let mute : State := (listening 0 id).modSense (fun x => { x with windows := x.windows.map (fun y => { y with peak := none }) })
    let cut : State := (listening 900 id).modEntry 0 (fun e => { e with wasCut := true })
    let held : State := (listening 900 (fun k => { k with state := .hold, playing := some 0 }))
    (∀ s ∈ [listening 900 id, listening 899 id, locking .idle, locking .recover, locking .locked, mute, cut, held],
      s.power.inReset = false ∧ s.decisions = [] ∧ s.sense.conv = none ∧ s.sense.waiting = [] ∧
      (s.entries.map (·.slot)).Nodup ∧
      ∃ x ∈ s.sense.windows, s.sense.windows = [x] ∧ ∃ e ∈ s.entries, s.entryAt x.slot = some e ∧ e.state = .firing ∧
        (s.bar e.bar).threshold = 900) ∧
    (∀ st ∈ [StrikerState.idle, .recover, .locked], ((locking st).striker 35).lockThreshold ≠ 0 ∧
      ((locking st).striker 35).lockThreshold ≤ min 255 (((locking st).striker 35).silentCount + 1) ∧
      ((locking st).striker 35).state = st ∧ ∀ d ∈ (locking st).entries, d.state ≠ .released) ∧
    ((∀ x ∈ mute.sense.windows, x.peak = none) ∧ (cut.entryAt 0).map (·.wasCut) = some true ∧
      (held.striker 35).playing = some 0) := by decide +kernel

theorem test_witness_RailSamplesDecideTheState : Rail.initial.lowRun < 3 ∧ Rail.initial.state = .off ∧
    (let up := { Rail.initial with state := .up, lowRun := 2 };
      up.lowRun < 3 ∧ 2 * 1199 < up.nominal ∧ up.lowRun + 1 = 3 ∧ ¬ 2 * 1200 < up.nominal ∧
      1919 < up.nominal * up.floor / 100 ∧ up.nominal * up.floor / 100 ≤ 1920 ∧ 1924 < up.nominal * up.floor / 100 + 5 ∧
      up.nominal * up.floor / 100 + 5 ≤ 1925) := by decide +kernel

/-- A LOW rail with a sample below, at its return to UP, with no member and with one that is due; and a rail FAULT in STANDBY and in
GUARDED. -/
theorem test_witness_RailReturnsAndFaults :
    let sampling : RailState → Nat → State → State := fun st run s => (s.modRail 2 (fun r => { r with
      state := st, lowRun := run })).modSense (fun x => { x with
      conv := some { input := .rail 2, came := 1990, done := 2000, gain := 1 } })
    let low := sampling .low 0 stand
    let due := sampling .low 0 (released.modBar 40 (fun b => { b with first := some 35, second := none }))
    (low.power.inReset = false ∧ low.decisions = [] ∧ low.sense.waiting = [] ∧ low.stage.stage ≠ .charging ∧
      low.stage.stage ≠ .discharging ∧ (low.rail 2).state = .low ∧ ((low.rail 2).sampled ((19249#16).toNat / 10)).state = .low ∧
      ((low.rail 2).sampled ((19250#16).toNat / 10)).state = .up ∧ low.members 2 = []) ∧
    (due.stage.stage = .playing ∧ (due.entries.map (·.slot)).Nodup ∧ (due.rail 2).spacingEnd = none ∧
      (due.rail 2).recent.length < (due.rail 2).count ∧
      (∃ e ∈ due.entries, due.members 2 = [e] ∧ e.target = some 2000 ∧ e.deadline = some 10000 ∧
        (due.bar e.bar).first = some 35 ∧ (due.bar e.bar).second = none) ∧ (due.striker 35).state = .idle ∧
      (due.striker 35).heat < (due.striker 35).hard) ∧
    (∀ g ∈ [Stage.standby, .guarded], let s := sampling .up 2 (stand.modStage (fun x => { x with stage := g }))
      s.stage.stage = g ∧ (s.rail 2).state = .up ∧ ((s.rail 2).sampled ((11999#16).toNat / 10)).state = .fault ∧
      ((s.rail 2).sampled ((12000#16).toNat / 10)).state ≠ .fault) := by decide +kernel

theorem test_witness_PulseStagesComputeTheWidth : 24000 + 1000 ≤ 25000 ∧ 24999 < 25000 ∧ 24000 < 24999 ∧ 1 ≤ 255 ∧
    monotonePoints defaultPoints = true ∧ monotonePoints workedPoints = true ∧ 200 % 10 = 0 ∧ 12000 % 10 = 0 := by
  decide +kernel

/-- The limits at the ends of what SET_STRIKER takes, and a last sample; the pulse reaches both limits, and lies between them. -/
theorem test_witness_PulsesOfAStriker :
    let k : Striker := { Striker.initial with minPulse := 200, maxPulse := 12000 }
    k.minPulse % 10 = 0 ∧ k.maxPulse % 10 = 0 ∧ 200 ≤ k.minPulse ∧ k.maxPulse ≤ 12000 ∧ (railAt 1200).lastSample = some 1200 ∧
    0 < 1200 ∧ (shape 1 k (Bank.fill 16 0) (railAt 1200)).pulse = 200 ∧
    (shape 255 k defaultPoints (railAt 1200)).pulse = 12000 ∧ (shape 200 k workedPoints (railAt 2250)).pulse = 4970 := by
  decide +kernel

/-- A gate in DRIVE, and in a HOLD of the full duty in its first segment, in segment 255 and in the next period's first; the outputs
of a stage, a unit and a timeline that turn them on. -/
theorem test_witness_HoldDutySpreadsItsSegments :
    (driving stroke).power.inReset = false ∧ (driving stroke).stage.stage = .playing ∧
    ((driving stroke).striker 35).state = .drive ∧ (driving stroke).gateOn 35 = true ∧
    (∀ d ∈ [0, 255, 256], let s : State := { holding with now := 7120 + d }
      s.power.inReset = false ∧ s.stage.stage = .playing ∧ (s.striker 35).state = .hold ∧ (s.striker 35).playing = some 0 ∧
      (s.entryAt 0).map (·.part) = some (.press { holdMs := 5, duty := 255 }) ∧
      (s.striker 35).holdEnd = some (7120 + 5 * 1000) ∧ 7120 ≤ s.now ∧ (s.gateOn 35 = true ↔ d ≠ 255)) ∧
    (stand.rail 2).fitted = true ∧ stand.railEnable 2 = true ∧ (staged .guarded false).alert = true ∧
    (stand.modDamper 1 (fun d => { d with state := .lifting })).damperDrive 1 = true ∧
    (stand.modTimeline (fun x => { x with syncOutEnd := some 1000 })).syncOut = true ∧
    ((State.reset.modPort 0 (fun q => { q with pendingNotices := 0x21#8, enables := 0x20#8 })).port 0).noticeLine = true := by
  decide +kernel

/-- Each invariant holds in a state other than the reset state, from which a step answers a next state. -/
theorem test_witness_StepKeepsMemorySound : memWf [(4096, 1#8), (4098, 0#8)] = true ∧
    (match step ({ playing with mem := [(4096, 1#8), (4098, 0#8)] } : State) with | .next _ => true | _ => false) = true := by
  decide +kernel

theorem test_witness_StepKeepsCalendarSound : released.CalendarSound := by
  refine ⟨?_, ?_, ?_, ?_⟩ <;> decide +kernel

theorem test_witness_StepKeepsCalendarOrdered : ({ released with nextSeq := 502 } : State).CalendarOrdered := by
  refine ⟨?_, ?_, ?_, ?_⟩ <;> decide +kernel

theorem test_witness_StepKeepsTimelineSound : following.TimelineSound := test_following_is_sound

theorem test_witness_StepKeepsCurvesAndLeadsSound : stand.CurvesSound ∧ stand.LeadsSound := by
  refine ⟨?_, ?_⟩
  · intro c; revert c; decide +kernel
  · intro c; cases c <;> decide +kernel

theorem test_witness_StepKeepsChimeAndRailsSound : stand.ChimeSound ∧ stand.RailsSound := by
  refine ⟨⟨?_, ?_, ?_, ?_, ?_, ?_⟩, ?_, ?_⟩ <;> decide +kernel

theorem test_witness_StepKeepsStageSound : (driving stroke).StageSound := by
  refine ⟨?_, ?_, ?_, ?_, ?_, ?_⟩ <;> decide +kernel

/-! ### Release: at position 0 the release ticks of MARIMBA reach tick 9, whose best fire time is 750; tick 0 is past its deadline -/

/-- The bar's strikers locked, so that it has no candidate. -/
def unable (s : State) : State := (s.modStriker 34 (fun k => { k with state := .locked })).modStriker 35 (fun k => { k with
  state := .locked })

/-- An entry due at a tick, WAITING in slot 0. -/
def waiting (due : Nat) : Entry := { stroke with due := due }

/-- Each test of a release: a chopped ROLL, no candidate, the stage, the deadline, a release with a sustain, and a partner that is
stronger, equal and earlier, and weaker. -/
theorem test_witness_ReleaseFollowsItsTests :
    let on : List Entry → State := fun l => { stand with entries := l }
    let best : Int := 0 + ((9 : Int) - 0) * 16667 / 8 - 18000
    let partner : Nat → Nat → Entry := fun strength seq => { waiting 9 with
      slot := 1, strength := strength, seq := seq, state := .released, target := some 750, deadline := some 8750 }
    let chopped : Entry := { waiting 9 with part := .roll {
      count := 3, spacing := 2, firstDue := 9, played := 0, missed := 0, chopMark := true, flushMark := false } }
    (∀ e ∈ [waiting 9, waiting 0, chopped, { waiting 9 with sustain := some 1 }],
      (on [e]).entryAt 0 = some e ∧ ((on [e]).entries.map (·.slot)).Nodup) ∧
    ((∃ n ∈ ((on []).bar 40).strikers, ((on []).striker n).state ≠ .locked) ∧
      (∀ n ∈ ((unable (on [])).bar 40).strikers, ((unable (on [])).striker n).state = .locked) ∧
      ((on []).modStage (fun x => { x with stage := .standby })).stage.stage ≠ .playing ∧ (on []).stage.stage = .playing ∧
      (on []).timeline.position = 0 ∧ (on []).timeline.period = 16667 ∧ (on []).now = 0 ∧
      (on []).timeline.times ((on []).bar 40).cls = { lead := 18000, slip := 8000, leadTicks := 9 }) ∧
    (best = 750 ∧ ¬ best + 8000 < 0 ∧ (0 + ((0 : Int) - 0) * 16667 / 8 - 18000) + 8000 < 0) ∧
    (((on []).bar 40).rail = some 2 ∧ (((on []).modBar 40 (fun b => { b with damper := some 1 })).bar 40).damper = some 1 ∧
      0 < 9 + 1) ∧
    (∀ d ∈ [partner 201 9, partner 200 501, partner 199 9], ((on [waiting 9, d]).entries.map (·.slot)).Nodup ∧
      d ∈ (on [waiting 9, d]).entries ∧ d.slot ≠ 0 ∧ d.state = .released ∧ d.part = .single ∧ d.bar = (waiting 9).bar ∧
      d.due = (waiting 9).due) := by decide +kernel

/-- A STRIKE that the position releases at once: no candidate, another stage, a deadline past, and a release with no member. -/
theorem test_witness_StrikesReleasedAtOnce : ∀ s ∈ [stand, unable stand, stand.modStage (fun x => { x with stage := .standby })],
    s.ready 0 = true ∧ s.decisions = [] ∧ s.owns 0 0 = true ∧ (s.voice 0).low ≤ (40 : BarId).1 ∧
    (40 : BarId).1 ≤ (s.voice 0).high ∧ 200#8 ≠ 0#8 ∧ s.entries = [] ∧ s.useCount 0 < s.quotas.look 0 ∧
    (∀ k : SlotId, ¬ k < 0) ∧ (9#32).toNat - (s.timeline.times (s.bar 40).cls).leadTicks ≤ s.timeline.position ∧
    ¬ (10#32).toNat - (s.timeline.times (s.bar 40).cls).leadTicks ≤ s.timeline.position ∧
    (s.bar 40).rail = some 2 ∧ s.members 2 = [] := by decide +kernel

/-- An entry at a tick expiry: its release tick just reached, and not yet. -/
theorem test_witness_ReleaseAtATick : ∀ due ∈ [10, 11], let s : State := { running stand with entries := [waiting due] }
    s.power.inReset = false ∧ s.decisions = [] ∧ (waiting due).state = .waiting ∧ (∀ v, (s.player v).state = .idle) ∧
    s.timeline.state = .running ∧ s.timeline.tickDue = some 16667 ∧ s.timeline.source = .internal ∧
    s.timeline.position + 1 < 4294967295 ∧ s.timeline.pendingPeriod = none ∧ s.timeline.ramp = none ∧
    ((waiting due).due - (s.timeline.times (s.bar (waiting due).bar).cls).leadTicks ≤ s.timeline.position + 1 ↔ due = 10) ∧
    (let now := max s.now (max ((16667 + 4) / 8) 0);
      (now : Int) < now + ((10 : Int) - 1) * 16667 / 8 - 18000) := by decide +kernel

end Sys2Proof.Tests
end

section
/-! SUPPORT. The conductor role (R21): what CONDUCT answers in each case, and what a reset of the holder's port does to the
timeline. -/
namespace Sys2Proof.Machine

/-! ## What the commands run -/

theorem exec_conduct (w : When) (p : PortId) (release : Byte) (s : State) :
    exec (.conduct w p release) s = .next (request w p 0x10#8 (conductResult p release) s) := rfl

theorem exec_lineBreak (w : When) (p : PortId) (s : State) :
    exec (.lineBreak w p) s = execLineBreak w p s := rfl

theorem exec_silenceExpiry (w : When) (p : PortId) (s : State) :
    exec (.silenceExpiry w p) s = .next (timerEvent w (s.port p).silenceDue (State.portReset p) s) := rfl

/-! ## CONDUCT, by its option and by the holder -/

@[simp] theorem State.setConductor_timeline (c : Option PortId) (s : State) :
    (s.setConductor c).timeline = { s.timeline with conductor := c } := rfl

theorem conductResult_claim_free {p : PortId} {s : State} (h : s.timeline.conductor = none) :
    conductResult p 0#8 s = (s.setConductor (some p), .ok, b1 p.1) := by
  simp [conductResult, fieldBool, conductOk, h, oId, o1]

theorem conductResult_claim_held {p : PortId} {s : State} (h : s.timeline.conductor = some p) :
    conductResult p 0#8 s = (s, .ok, b1 p.1) := by
  simp [conductResult, fieldBool, conductOk, h, oId, o1]

theorem conductResult_claim_busy {p q : PortId} {s : State} (hq : q ≠ p) (h : s.timeline.conductor = some q) :
    conductResult p 0#8 s = refuse .busy s := by
  simp [conductResult, fieldBool, h, hq]

theorem conductResult_release_held {p : PortId} {s : State} (h : s.timeline.conductor = some p) :
    conductResult p 1#8 s = (s.setConductor none, .ok, [0xFF#8]) := by
  simp [conductResult, fieldBool, conductOk, h, oId, o1]

theorem conductResult_release_refused {p : PortId} {s : State} (h : s.timeline.conductor ≠ some p) :
    conductResult p 1#8 s = refuse .owner s := by
  cases hc : s.timeline.conductor with
  | none => simp [conductResult, fieldBool, hc]
  | some q =>
    have hq : q ≠ p := fun e => h (hc.trans (congrArg some e))
    simp [conductResult, fieldBool, hc, hq]

/-! ## A port reset -/

theorem State.haltPlayer_kept (s : State) (v : VoiceId) : Kept s (s.haltPlayer v) := s.modPlayer_kept _ _

theorem State.dropPedals_kept (s : State) (v : VoiceId) : Kept s (s.dropPedals v) := s.allDampers_kept _

theorem State.closeVoice_kept (s : State) (v : VoiceId) : Kept s (s.closeVoice v).1 := by
  dsimp only [State.closeVoice]
  exact (((s.flushVoice_kept v).trans (State.haltPlayer_kept _ v)).trans (State.dropPedals_kept _ v)).trans
    (State.modVoice_kept _ _ _)

theorem State.closeVoices_kept (l : List VoiceId) (s : State) : Kept s (State.closeVoices l s) := by
  induction l generalizing s with
  | nil => exact Kept.rfl'
  | cons v rest ih => exact (s.closeVoice_kept v).trans (ih _)

theorem State.clearMarks_kept (s : State) (p : PortId) : Kept s (s.clearMarks p) := s.withEntries_kept _

theorem State.clearChimeMarks_kept (s : State) : Kept s s.clearChimeMarks := s.withEntries_kept _

@[simp] theorem State.dropChime_timeline (s : State) (p : PortId) : (s.dropChime p).timeline = s.timeline := by
  unfold State.dropChime
  split
  · exact (((s.haltPlayer_kept chimeVoice).trans (State.clearChimeMarks_kept _)).trans
      (State.flushVoice_kept _ chimeVoice)).timeline
  · rfl

theorem State.dropConductor_held {s : State} {p : PortId} (h : s.timeline.conductor = some p) :
    s.dropConductor p = s.setConductor none := if_pos h

/-- A reset of the holder's port releases the role, and leaves the rest of the timeline (R21). -/
theorem State.portReset_timeline_held {s : State} {p : PortId} (h : s.timeline.conductor = some p) :
    (s.portReset p).timeline = { s.timeline with conductor := none } := by
  have hkept : ∀ l, ((State.closeVoices l (s.clearMarks p)).dropChime p).timeline = s.timeline := fun l =>
    (State.dropChime_timeline _ p).trans ((s.clearMarks_kept p).trans (State.closeVoices_kept l _)).timeline
  simp only [State.portReset, State.modPort_timeline]
  rw [State.dropConductor_held (by rw [hkept, h]), State.setConductor_timeline, hkept]

/-! ## The two events that reset a port -/

/-- READY is asserted where neither RESET, nor the fill, nor a break's low line, nor a reply in progress holds it (R165, R166,
R169). -/
theorem State.ready_iff (s : State) (p : PortId) :
    s.ready p = true ↔
      s.power.inReset = false ∧ s.power.fill = .none ∧ (s.port p).lineLow = false ∧ (s.port p).reply = none := by
  simp [State.ready, State.held, and_assoc]

section
variable {w : When} {p : PortId} {s : State}

/-- A break that comes while READY is asserted resets the port (R166). -/
theorem exec_lineBreak_ready (hready : s.ready p = true) :
    exec (.lineBreak w p) s = .next (((s.reach w.time).portReset p).modPort p (fun q => { q with lineLow := true })) := by
  obtain ⟨hawake, hfill, hlow, -⟩ := (s.ready_iff p).1 hready
  rw [exec_lineBreak, execLineBreak, event_awake hawake]
  simp [State.held, hawake, hfill, hlow]

/-- The silence expiry of a port whose timer runs resets the port (R174). -/
theorem exec_silenceExpiry_due {due : Nat} (hawake : s.power.inReset = false) (hdue : (s.port p).silenceDue = some due) :
    exec (.silenceExpiry w p) s = .next ((s.reach (max due w.time)).portReset p) := by
  rw [exec_silenceExpiry, hdue, timerEvent_running hawake]

theorem lineBreak_releases_conductor (hready : s.ready p = true) (h : s.timeline.conductor = some p) :
    ∃ t, exec (.lineBreak w p) s = .next t ∧ t.timeline = { s.timeline with conductor := none } :=
  ⟨_, exec_lineBreak_ready hready, State.portReset_timeline_held (s := s.reach w.time) h⟩

theorem silenceExpiry_releases_conductor (hawake : s.power.inReset = false)
    (hdue : (s.port p).silenceDue.isSome = true) (h : s.timeline.conductor = some p) :
    ∃ t, exec (.silenceExpiry w p) s = .next t ∧ t.timeline = { s.timeline with conductor := none } := by
  obtain ⟨due, hdue⟩ := Option.isSome_iff_exists.1 hdue
  exact ⟨_, exec_silenceExpiry_due hawake hdue, State.portReset_timeline_held (s := s.reach (max due w.time)) h⟩

/-! ## What a CONDUCT that is taken answers -/

/-- A CONDUCT that is granted and leaves the state `u`. -/
theorem exec_conduct_ok {release : Byte} {u : State} {results : List Byte} (hready : s.ready p = true)
    (h : conductResult p release (s.taken w p) = (u.taken w p, .ok, results)) :
    exec (.conduct w p release) s = .next (u.answering w p 0x10#8 .ok results) := by
  rw [exec_conduct, request_answers hready h]

/-- A CONDUCT that is refused. -/
theorem exec_conduct_refused {release : Byte} {st : Status} (hready : s.ready p = true)
    (h : conductResult p release (s.taken w p) = refuse st (s.taken w p)) :
    exec (.conduct w p release) s = .next (s.answering w p 0x10#8 st []) := by
  rw [exec_conduct, request_refused hready h]

end

/-- Settles O18, by who holds the role: no port, the requesting port, or another. -/
theorem conductorRoleIsExclusive : Obligations.ConductorRoleIsExclusive := by
  intro w p s hready holder
  have hawake := ((s.ready_iff p).1 hready).1
  refine ⟨fun hfree => ?free, fun hheld => ?held, fun q hq hother => ?other⟩
  case free =>
    have hne : s.timeline.conductor ≠ some p := by simp [hfree]
    exact ⟨exec_conduct_ok (u := s.setConductor (some p)) hready (conductResult_claim_free hfree),
      exec_conduct_refused hready (conductResult_release_refused hne)⟩
  case held =>
    exact ⟨exec_conduct_ok hready (conductResult_claim_held hheld),
      exec_conduct_ok (u := s.setConductor none) hready (conductResult_release_held hheld),
      lineBreak_releases_conductor hready hheld,
      fun hdue => silenceExpiry_releases_conductor hawake hdue hheld⟩
  case other =>
    have hne : s.timeline.conductor ≠ some p := by simp [hother, hq]
    exact ⟨exec_conduct_refused hready (conductResult_claim_busy hq hother),
      exec_conduct_refused hready (conductResult_release_refused hne)⟩

end Sys2Proof.Machine
end

section
/-! SUPPORT. The pulse of a stroke (R83 to R87): what each stage of the shaper gives, and its bounds. -/
namespace Sys2Proof.Machine

/-! ## The heat derate (R84) -/

section
variable {strength heat soft hard : Nat}

theorem derate_of_le (h : heat ≤ soft) : derate strength heat soft hard = strength := if_pos h

theorem derate_of_lt (h : soft < heat) :
    derate strength heat soft hard = strength - strength * (heat - soft) / (2 * (hard - soft)) :=
  if_neg (Nat.not_le.2 h)

/-- Below Hh the amount taken off is less than half of the strength. -/
theorem derate_loss_lt_half (hlimits : soft < hard) (hcool : heat < hard) (hpos : 1 ≤ strength) :
    2 * (strength * (heat - soft) / (2 * (hard - soft))) < strength := by
  have hspan : 0 < hard - soft := Nat.sub_pos_of_lt hlimits
  have hexcess : heat - soft < hard - soft := by omega
  apply Nat.lt_of_mul_lt_mul_right (a := hard - soft)
  calc 2 * (strength * (heat - soft) / (2 * (hard - soft))) * (hard - soft)
      = strength * (heat - soft) / (2 * (hard - soft)) * (2 * (hard - soft)) := by ring
    _ ≤ strength * (heat - soft) := Nat.div_mul_le_self _ _
    _ < strength * (hard - soft) := Nat.mul_lt_mul_of_pos_left hexcess hpos

theorem derate_le : derate strength heat soft hard ≤ strength := by
  rcases Nat.lt_or_ge soft heat with hwarm | hcold
  · rw [derate_of_lt hwarm]
    exact Nat.sub_le _ _
  · exact (derate_of_le hcold).le

theorem lt_two_mul_derate (hlimits : soft < hard) (hcool : heat < hard) (hpos : 1 ≤ strength) :
    strength < 2 * derate strength heat soft hard := by
  rcases Nat.lt_or_ge soft heat with hwarm | hcold
  · have hloss := derate_loss_lt_half hlimits hcool hpos
    rw [derate_of_lt hwarm]
    omega
  · rw [derate_of_le hcold]
    omega

end

/-! ## The curve (R85) -/

section
variable {points : Bank Nat 16} {strength : Nat}

theorem curvePoint_of_ge {k : Nat} (h : 15 ≤ k) : curvePoint points k = curvePoint points 15 := by
  simp [curvePoint, h]

theorem monotonePoints_iff : monotonePoints points = true ↔
    (∀ k < 15, curvePoint points k ≤ curvePoint points (k + 1)) ∧ curvePoint points 15 ≤ 12000 := by
  simp [monotonePoints]

theorem curvePoint_monotone (h : monotonePoints points = true) : Monotone (curvePoint points) := by
  refine monotone_nat_of_le_succ fun k => ?_
  rcases Nat.lt_or_ge k 15 with hk | hk
  · exact (monotonePoints_iff.1 h).1 k hk
  · rw [curvePoint_of_ge hk, curvePoint_of_ge (Nat.le_succ_of_le hk)]

theorem roundDiv_zero {b : Nat} (hb : 0 < b) : roundDiv 0 b = 0 :=
  Nat.div_eq_of_lt (by omega)

/-- A fraction of at most one of a whole is at most the whole, rounded too. -/
theorem roundDiv_mul_le {a d b : Nat} (hb : 0 < b) (hd : d ≤ b) : roundDiv (a * d) b ≤ a := by
  have hmul : a * d ≤ a * b := Nat.mul_le_mul_left a hd
  refine Nat.le_of_lt_succ (Nat.div_lt_of_lt_mul ?_)
  calc 2 * (a * d) + b < 2 * (a * b) + 2 * b := by omega
    _ = 2 * b * (a + 1) := by ring

theorem curveWidth_of_lt (h : strength < 255) : curveWidth points strength =
    curvePoint points (strength / 17) +
      roundDiv ((curvePoint points (strength / 17 + 1) - curvePoint points (strength / 17)) *
        (strength - 17 * (strength / 17))) 17 :=
  if_neg (by omega)

@[simp] theorem curveWidth_255 : curveWidth points 255 = curvePoint points 15 := rfl

/-- A multiple of 17 gives its point exactly. -/
theorem curveWidth_of_exact (hs : strength ≤ 255) (hd : strength - 17 * (strength / 17) = 0) :
    curveWidth points strength = curvePoint points (strength / 17) := by
  rcases Nat.lt_or_eq_of_le hs with hlt | rfl
  · rw [curveWidth_of_lt hlt, hd, Nat.mul_zero, roundDiv_zero (by decide), Nat.add_zero]
  · exact curveWidth_255

theorem curvePoint_le_curveWidth (hs : strength ≤ 255) :
    curvePoint points (strength / 17) ≤ curveWidth points strength := by
  rcases Nat.lt_or_eq_of_le hs with hlt | rfl
  · rw [curveWidth_of_lt hlt]
    exact Nat.le_add_right _ _
  · exact curveWidth_255.ge

/-- The width stays at or below the next point, since the part read between two points is at most their difference. -/
theorem curveWidth_le_curvePoint_succ (h : monotonePoints points = true) (hs : strength ≤ 255) :
    curveWidth points strength ≤ curvePoint points (strength / 17 + 1) := by
  rcases Nat.lt_or_eq_of_le hs with hlt | rfl
  · have hstep : curvePoint points (strength / 17) ≤ curvePoint points (strength / 17 + 1) :=
      curvePoint_monotone h (Nat.le_succ _)
    have hpart := roundDiv_mul_le (a := curvePoint points (strength / 17 + 1) - curvePoint points (strength / 17))
      (d := strength - 17 * (strength / 17)) (b := 17) (by decide) (by omega)
    rw [curveWidth_of_lt hlt]
    omega
  · exact (curvePoint_of_ge (k := 255 / 17 + 1) (by decide)).ge

theorem curvePoint_zero_le_curveWidth (h : monotonePoints points = true) (hs : strength ≤ 255) :
    curvePoint points 0 ≤ curveWidth points strength :=
  (curvePoint_monotone h (Nat.zero_le _)).trans (curvePoint_le_curveWidth hs)

theorem curveWidth_le_curvePoint_fifteen (h : monotonePoints points = true) (hs : strength ≤ 255) :
    curveWidth points strength ≤ curvePoint points 15 := by
  refine (curveWidth_le_curvePoint_succ h hs).trans ?_
  rcases Nat.lt_or_ge (strength / 17 + 1) 15 with hk | hk
  · exact curvePoint_monotone h hk.le
  · exact (curvePoint_of_ge hk).le

end

/-! ## The supply correction (R86), the quantization and the clamp (R87) -/

section
variable {low high width : Nat}

theorem supplyWidth_some {nominal sample : Nat} (h : 0 < sample) :
    supplyWidth width nominal (some sample) = roundDiv (width * nominal) sample := by
  cases sample with
  | zero => exact absurd h (Nat.lt_irrefl 0)
  | succ n => rfl

@[simp] theorem quantize_mod : quantize width % 10 = 0 := Nat.mul_mod_left _ _

theorem lt_quantize_add : width < quantize width + 5 := by
  unfold quantize
  omega

theorem quantize_le_add : quantize width ≤ width + 5 := Nat.div_mul_le_self _ _

theorem clampPulse_of_lt (h : width < low) : clampPulse low high width = low := if_pos h

theorem clampPulse_of_gt (hlimits : low ≤ high) (h : high < width) : clampPulse low high width = high := by
  have hlow : ¬ width < low := by omega
  simp [clampPulse, hlow, h]

theorem clampPulse_of_within (hlow : low ≤ width) (hhigh : width ≤ high) : clampPulse low high width = width := by
  simp [clampPulse, Nat.not_lt.2 hlow, Nat.not_lt.2 hhigh]

/-- A clamp gives the lower limit, the upper one, or a width between the two as it is. -/
theorem clampPulse_cases (hlimits : low ≤ high) : clampPulse low high width = low ∨ clampPulse low high width = high ∨
    (clampPulse low high width = width ∧ low ≤ width ∧ width ≤ high) := by
  rcases Nat.lt_or_ge width low with hlow | hlow
  · exact .inl (clampPulse_of_lt hlow)
  rcases Nat.lt_or_ge high width with hhigh | hhigh
  · exact .inr (.inl (clampPulse_of_gt hlimits hhigh))
  · exact .inr (.inr ⟨clampPulse_of_within hlow hhigh, hlow, hhigh⟩)

theorem le_clampPulse (hlimits : low ≤ high) : low ≤ clampPulse low high width := by
  obtain h | h | ⟨h, hlow, hhigh⟩ := clampPulse_cases (width := width) hlimits <;> omega

theorem clampPulse_le (hlimits : low ≤ high) : clampPulse low high width ≤ high := by
  obtain h | h | ⟨h, hlow, hhigh⟩ := clampPulse_cases (width := width) hlimits <;> omega

theorem clampPulse_mod (hlimits : low ≤ high) (hlow : low % 10 = 0) (hhigh : high % 10 = 0) (hwidth : width % 10 = 0) :
    clampPulse low high width % 10 = 0 := by
  obtain h | h | ⟨h, -, -⟩ := clampPulse_cases (width := width) hlimits <;> rwa [h]

end

/-! ## What the shaper hands back (R83) -/

section
variable (strength : Nat) (k : Striker) (live : Bank Nat 16) (r : Rail)

@[simp] theorem shape_applied : (shape strength k live r).applied = derate strength k.heat k.soft k.hard := rfl

theorem shape_derated_iff :
    (shape strength k live r).derated = true ↔ derate strength k.heat k.soft k.hard < strength :=
  decide_eq_true_iff

theorem shape_pulse : (shape strength k live r).pulse =
    clampPulse k.minPulse k.maxPulse
      (quantize (supplyWidth (curveWidth live (derate strength k.heat k.soft k.hard)) r.nominal r.lastSample)) := rfl

end

/-- Settles O50, stage by stage: the heat derate, the curve, the supply correction with the quantization and the clamp, and then
the pulse as their composition. -/
theorem pulseStagesComputeTheWidth : Obligations.PulseStagesComputeTheWidth := by
  refine ⟨?derate, ?curve, ⟨?supply, ?clamp⟩, ?pulse⟩
  case derate =>
    intro strength heat soft hard hspan hcool hpos
    have hlimits : soft < hard := by omega
    have hhalf := lt_two_mul_derate hlimits hcool hpos
    refine ⟨derate_of_le, fun hwarm => ⟨derate_of_lt hwarm, derate_loss_lt_half hlimits hcool hpos⟩, derate_le, hhalf,
      by omega, ?_⟩
    rintro k live r rfl rfl rfl
    exact ⟨shape_applied .., shape_derated_iff ..⟩
  case curve =>
    intro points strength hmono hs
    have hlast := curveWidth_le_curvePoint_fifteen hmono hs
    refine ⟨fun h255 => h255 ▸ curveWidth_255, fun hlt => ⟨curveWidth_of_lt hlt, by omega⟩, curveWidth_of_exact hs,
      fun _ hfirst => ⟨curvePoint_zero_le_curveWidth hmono hs, ?_⟩, curvePoint_zero_le_curveWidth hmono hs, hlast,
      hlast.trans (monotonePoints_iff.1 hmono).2⟩
    have hindex : strength / 17 = 0 := by omega
    simpa [hindex] using curveWidth_le_curvePoint_succ hmono hs
  case supply => exact fun _ _ _ => supplyWidth_some
  case clamp =>
    intro width low high hlow hhigh hlimits
    exact ⟨quantize_mod, lt_quantize_add, quantize_le_add, clampPulse_mod hlimits hlow hhigh quantize_mod,
      le_clampPulse hlimits, clampPulse_le hlimits, clampPulse_of_within, clampPulse_of_lt, clampPulse_of_gt hlimits⟩
  case pulse =>
    intro strength k live r
    refine ⟨shape_pulse .., fun sample hpos hsample => ?_, fun hlow hhigh hleast hlimits hmost => ?_⟩
    · rw [shape_pulse, hsample, supplyWidth_some hpos]
      rfl
    · have hmin : k.minPulse ≤ (shape strength k live r).pulse := le_clampPulse hlimits
      have hmax : (shape strength k live r).pulse ≤ k.maxPulse := clampPulse_le hlimits
      exact ⟨clampPulse_mod hlimits hlow hhigh quantize_mod, hmin, hmax, hleast.trans hmin, hmax.trans hmost⟩

end Sys2Proof.Machine
end

section
/-! SUPPORT. SET_AREA (R110): what its checks say, and what it answers in each case. -/
namespace Sys2Proof.Machine

/-! ## A request that names a voice by its number (R177) -/

theorem fieldId_ofNat {n : Nat} (hn : n ≤ 256) (i : Fin n) : fieldId n (BitVec.ofNat 8 i.1) = some i := by
  have hbyte : i.1 % 256 = i.1 := Nat.mod_eq_of_lt (i.2.trans_le hn)
  simp [fieldId, numbered, hbyte]

theorem forVoice_ofNat (holds : State → VoiceId → Bool) (v : VoiceId) (body : VoiceId → State → Result) (s : State) :
    forVoice holds (BitVec.ofNat 8 v.1) body s = if holds s v then body v s else refuse .owner s := by
  have hnamed : fieldId 16 (BitVec.ofNat 8 v.1) = some v := fieldId_ofNat (by decide) v
  simp [forVoice, hnamed]

/-! ## The checks of a range (R110, checks 2 and 3) -/

theorem areaForm_iff {first last : Nat} : areaForm first last = true ↔
    first % 8 = 0 ∧ (last + 1) % 8 = 0 ∧ first ≤ last ∧ 4096 ≤ first ∧ last ≤ 32767 := by
  simp [areaForm, and_assoc]

/-- Two ranges share a byte where neither ends before the other begins. -/
theorem State.areaTaken_iff {s : State} {v : VoiceId} {first last : Nat} : s.areaTaken v first last = true ↔
    ∃ u a, u ≠ v ∧ (s.voice u).area = some a ∧ first ≤ a.last ∧ a.first ≤ last := by
  simp only [State.areaTaken, List.any_eq_true, List.mem_finRange, true_and, Bool.and_eq_true, decide_eq_true_eq]
  refine exists_congr fun u => ?_
  cases (s.voice u).area <;> simp

/-! ## What SET_AREA answers, check by check -/

theorem exec_setArea (w : When) (p : PortId) (voice : Byte) (first last : Half) (s : State) :
    exec (.setArea w p voice first last) s = .next (request w p 0x33#8 (setAreaResult p voice first last) s) := rfl

section
variable {p : PortId} {v : VoiceId} {first last : Half} {s : State}

theorem setAreaResult_unowned (hown : s.owns p v = false) :
    setAreaResult p (BitVec.ofNat 8 v.1) first last s = refuse .owner s := by
  simp [setAreaResult, forVoice_ofNat, hown]

/-- A range that is named is refused where its form is wrong or another voice's area shares a byte with it. -/
theorem setAreaResult_range (hown : s.owns p v = true) (hnamed : ¬ (first.toNat = 0 ∧ last.toNat = 0))
    (hwrong : areaForm first.toNat last.toNat = false ∨ s.areaTaken v first.toNat last.toNat = true) :
    setAreaResult p (BitVec.ofNat 8 v.1) first last s = refuse .range s := by
  simp [setAreaResult, forVoice_ofNat, hown, hnamed, hwrong]

/-- Past the checks of the range the player alone decides. -/
theorem setAreaResult_busy (hown : s.owns p v = true)
    (hpass : (first.toNat = 0 ∧ last.toNat = 0) ∨
      (areaForm first.toNat last.toNat = true ∧ s.areaTaken v first.toNat last.toNat = false))
    (hbusy : (s.player v).state ≠ .idle) :
    setAreaResult p (BitVec.ofNat 8 v.1) first last s = refuse .busy s := by
  obtain ⟨hfirst, hlast⟩ | ⟨hform, hfree⟩ := hpass
  · simp [setAreaResult, forVoice_ofNat, hown, hfirst, hlast, hbusy]
  · simp [setAreaResult, forVoice_ofNat, hown, hform, hfree, hbusy]

theorem setAreaResult_absent (hown : s.owns p v = true) (hfirst : first.toNat = 0) (hlast : last.toNat = 0)
    (hidle : (s.player v).state = .idle) :
    setAreaResult p (BitVec.ofNat 8 v.1) first last s =
      (s.modVoice v (fun d => { d with area := none }), .ok, [0#8, 0#8]) := by
  simp [setAreaResult, forVoice_ofNat, hown, hfirst, hlast, hidle, b2, halfBytes]

/-- A range of the right form is no absent one, since it begins at 4,096 or above. -/
theorem setAreaResult_bound (hown : s.owns p v = true) (hform : areaForm first.toNat last.toNat = true)
    (hfree : s.areaTaken v first.toNat last.toNat = false) (hidle : (s.player v).state = .idle) :
    setAreaResult p (BitVec.ofNat 8 v.1) first last s =
      (s.modVoice v (fun d => { d with area := some (Area.bound first.toNat last.toNat) }), .ok,
        b2 ((last.toNat + 1 - first.toNat) / 8)) := by
  obtain ⟨-, -, -, hlow, -⟩ := areaForm_iff.1 hform
  have hnamed : first.toNat ≠ 0 := by omega
  simp [setAreaResult, forVoice_ofNat, hown, hform, hfree, hidle, hnamed, Area.size, Area.bound]

end

/-! ## The two outcomes as a command's -/

section
variable {w : When} {p : PortId} {voice : Byte} {first last : Half} {s : State} {st : Status}

theorem exec_setArea_refused (hready : s.ready p = true)
    (h : setAreaResult p voice first last (s.taken w p) = refuse st (s.taken w p)) :
    exec (.setArea w p voice first last) s = .next (s.answering w p 0x33#8 st []) := by
  rw [exec_setArea, request_refused hready h]

theorem exec_setArea_taken {u : State} {results : List Byte} (hready : s.ready p = true)
    (h : setAreaResult p voice first last (s.taken w p) = (u.taken w p, .ok, results)) :
    exec (.setArea w p voice first last) s = .next (u.answering w p 0x33#8 .ok results) := by
  rw [exec_setArea, request_answers hready h]

end

/-- Settles O26, in the order of R110's checks: the owner, the range, the player, and then the two ways SET_AREA is taken. -/
theorem areasAreBound : Obligations.AreasAreBound := by
  intro w p s v first last hready n m absent formed taken answer bound
  have hform : areaForm n m = true ↔ formed := areaForm_iff
  have htaken : s.areaTaken v n m = true ↔ taken := State.areaTaken_iff
  refine ⟨fun hother => ?owner, fun hown hnamed hwrong => ?range, fun hown hpass hbusy => ?busy,
    fun hown habsent hidle => ?absent, fun hown hformed hfree hidle => ?bound⟩
  case owner => exact exec_setArea_refused hready (setAreaResult_unowned hother)
  case range =>
    rw [← hform, ← htaken, Bool.not_eq_true] at hwrong
    exact exec_setArea_refused hready (setAreaResult_range hown hnamed hwrong)
  case busy =>
    rw [← hform, ← htaken, Bool.not_eq_true] at hpass
    exact exec_setArea_refused hready (setAreaResult_busy hown hpass hbusy)
  case absent => exact exec_setArea_taken (u := bound none) hready (setAreaResult_absent hown habsent.1 habsent.2 hidle)
  case bound =>
    rw [← htaken, Bool.not_eq_true] at hfree
    exact exec_setArea_taken (u := bound (some (Area.bound n m))) hready
      (setAreaResult_bound hown (hform.2 hformed) hfree hidle)

end Sys2Proof.Machine
end

section
/-! SUPPORT. ECHO_READ and NOTICES (R144, R172): what each answers, the bytes of a record, and what a request's taking leaves of
the port's echo queue and notices. -/
namespace Sys2Proof.Machine

/-! ## What a request's taking leaves of its port -/

section
variable (w : When) (p : PortId) (s : State)

theorem State.taken_port : (s.taken w p).port p = (s.port p).hunt.restartSilence (max s.now w.time) := by
  simp only [State.taken, State.modPort_port, if_true]
  rfl

@[simp] theorem State.taken_echo : ((s.taken w p).port p).echo = (s.port p).echo := by
  rw [State.taken_port]
  rfl

@[simp] theorem State.taken_pendingNotices : ((s.taken w p).port p).pendingNotices = (s.port p).pendingNotices := by
  rw [State.taken_port]
  rfl

@[simp] theorem State.taken_enables : ((s.taken w p).port p).enables = (s.port p).enables := by
  rw [State.taken_port]
  rfl

/-- A change of the requesting port that does not touch the receiver or the silence timer may come before or after the taking. -/
theorem State.taken_modPort {f : Port → Port}
    (hf : ∀ now q, f (q.hunt.restartSilence now) = (f q).hunt.restartSilence now) :
    (s.taken w p).modPort p f = (s.modPort p f).taken w p := by
  simp [State.taken, State.modPort, State.port, State.reach, hf]

end

/-! ## The bytes of a record (R197) -/

theorem EchoFlags.byte_eq (f : EchoFlags) : f.byte = BitVec.ofNat 8
    ((if f.derated then 2 ^ 0 else 0) + (if f.damped then 2 ^ 1 else 0) + (if f.silent then 2 ^ 2 else 0) +
      (if f.noListen then 2 ^ 3 else 0) + (if f.lost then 2 ^ 4 else 0)) := by
  obtain ⟨derated, damped, silent, noListen, lost⟩ := f
  revert derated damped silent noListen lost
  decide

/-! ## ECHO_READ (R144) -/

theorem exec_echoRead (w : When) (p : PortId) (count : Byte) (s : State) :
    exec (.echoRead w p count) s = .next (request w p 0x50#8 (echoReadResult p count) s) := rfl

section
variable {p : PortId} {count : Byte} {s : State}

theorem echoReadResult_range (h : count = 0#8 ∨ 8 < count.toNat) : echoReadResult p count s = refuse .range s := by
  obtain rfl | hlarge := h
  · rfl
  · simp [echoReadResult, hlarge]

/-- Where the count names more records than the queue holds, all of them go. -/
theorem echoReadResult_ok {l : List EchoRecord} {n : Nat} (hqueue : (s.port p).echo = l) (hpos : count ≠ 0#8)
    (hmost : count.toNat ≤ 8) (hn : n = min count.toNat l.length) :
    echoReadResult p count s =
      (s.modPort p (fun q => { q with echo := l.drop n }), .ok,
        b1 n ++ b1 (l.length - n) ++ (l.take n).flatMap EchoRecord.bytes) := by
  have hzero : count.toNat ≠ 0 := fun h => hpos (BitVec.eq_of_toNat_eq h)
  have hform : ¬ (count.toNat < 1 ∨ 8 < count.toNat) := by omega
  have htake : l.take count.toNat = l.take n := hn ▸ List.take_eq_take_min
  have hdrop : l.drop count.toNat = l.drop n := hn ▸ List.drop_eq_drop_min
  have hlength : (l.take n).length = n := by
    rw [List.length_take]
    omega
  rw [echoReadResult, if_neg (by simpa using hform)]
  simp only [hqueue, htake, hdrop, hlength, List.length_drop]

end

/-! ## NOTICES (R172) -/

theorem exec_notices (w : When) (p : PortId) (s : State) :
    exec (.notices w p) s = .next (request w p 0x51#8 (noticesResult p) s) := rfl

/-- What the clear leaves pending: ECHO_LEVEL alone, where the queue stands at or above the watermark, and else nothing (R145). -/
theorem Port.clearNotices_eq (q : Port) :
    q.clearNotices = { q with pendingNotices := if q.watermark ≤ q.echo.length then 1#8 else 0#8 } := by
  simp only [Port.clearNotices, Port.levelCheck]
  split
  · simp [Port.raise, Notice.mask]
  · rfl

/-- The clear may come before or after the port has taken a request's frame. -/
theorem Port.clearNotices_restarted (now : Nat) (q : Port) :
    (q.hunt.restartSilence now).clearNotices = q.clearNotices.hunt.restartSilence now := by
  rw [Port.clearNotices_eq, Port.clearNotices_eq]
  rfl

theorem noticesResult_taken (w : When) (p : PortId) (s : State) :
    noticesResult p (s.taken w p) =
      ((s.modPort p Port.clearNotices).taken w p, .ok, [(s.port p).pendingNotices, (s.port p).enables]) := by
  rw [noticesResult, State.taken_pendingNotices, State.taken_enables, State.taken_modPort w p s Port.clearNotices_restarted]

/-! ## The two requests as commands -/

section
variable {w : When} {p : PortId} {count : Byte} {s : State}

theorem exec_echoRead_range (hready : s.ready p = true) (h : count = 0#8 ∨ 8 < count.toNat) :
    exec (.echoRead w p count) s = .next (s.answering w p 0x50#8 .range []) := by
  rw [exec_echoRead, request_refused hready (echoReadResult_range h)]

theorem exec_echoRead_ok {l : List EchoRecord} {n : Nat} (hready : s.ready p = true) (hqueue : (s.port p).echo = l)
    (hpos : count ≠ 0#8) (hmost : count.toNat ≤ 8) (hn : n = min count.toNat l.length) :
    exec (.echoRead w p count) s =
      .next ((s.modPort p (fun q => { q with echo := l.drop n })).answering w p 0x50#8 .ok
        (b1 n ++ b1 (l.length - n) ++ (l.take n).flatMap EchoRecord.bytes)) := by
  have hresult := echoReadResult_ok ((State.taken_echo w p s).trans hqueue) hpos hmost hn
  rw [State.taken_modPort _ _ _ (fun _ _ => rfl)] at hresult
  rw [exec_echoRead, request_answers hready hresult]

theorem exec_notices_ready (hready : s.ready p = true) :
    exec (.notices w p) s =
      .next ((s.modPort p Port.clearNotices).answering w p 0x51#8 .ok [(s.port p).pendingNotices, (s.port p).enables]) := by
  rw [exec_notices, request_answers hready (noticesResult_taken w p s)]

end

/-- Settles O36: the outcome codes; ECHO_READ by its count, with the bytes of a record by which of its parts are absent; and
NOTICES. -/
theorem echoRecordsAndNoticesAreRead : Obligations.EchoRecordsAndNoticesAreRead := by
  refine ⟨rfl, ?echoRead, ?notices⟩
  case echoRead =>
    intro w p s count hready n bit record
    have hrecord : EchoRecord.bytes = record := by
      funext r
      cases hfire : r.fire <;> cases hcounts : r.counts <;>
        simp [record, bit, EchoRecord.bytes, EchoFlags.byte_eq, hfire, hcounts, oId, o1, o2, b1, b2, halfBytes]
    refine ⟨exec_echoRead_range hready, fun hpos hmost => ?_⟩
    rw [← hrecord]
    exact exec_echoRead_ok hready rfl hpos hmost rfl
  case notices =>
    intro w p s hready left
    refine ⟨?_, rfl⟩
    rw [exec_notices_ready hready, State.modPort, Port.clearNotices_eq]

end Sys2Proof.Machine
end

section
/-! SUPPORT. SET_PORT (R173): what its check says, and how the settings that it replaces meet the silence timer that its own frame
restarts. -/
namespace Sys2Proof.Machine

/-! ## The check (R173, R195) -/

/-- A notice set that names nothing has bit 6 or bit 7 set (R195). -/
theorem namesNotices_iff (set : Byte) : namesNotices set = true ↔ set.toNat < 64 := by
  revert set
  decide

/-- What SET_PORT refuses: a watermark outside 1 to 128, or a silence timeout from 1 to 99 or above 10,000 (R173). -/
def PortSettingsOutside (watermark : Byte) (silence : Half) : Prop :=
  watermark.toNat < 1 ∨ 128 < watermark.toNat ∨ (1 ≤ silence.toNat ∧ silence.toNat ≤ 99) ∨ 10000 < silence.toNat

/-! ## The settings replaced (R173, R145, R174) -/

/-- The three settings replaced and the watermark applied, the silence timer as it was. -/
def Port.resettled (enables : Byte) (watermark silence : Nat) (q : Port) : Port :=
  { q with
    enables := enables
    watermark := watermark
    silenceMs := silence
    pendingNotices := if watermark ≤ q.echo.length then q.pendingNotices ||| 1#8 else q.pendingNotices }

/-- The watermark applied: ECHO_LEVEL is raised where the queue stands at or above it, and nothing else changes (R145). -/
theorem Port.levelCheck_eq (q : Port) : q.levelCheck =
    { q with pendingNotices := if q.watermark ≤ q.echo.length then q.pendingNotices ||| 1#8 else q.pendingNotices } := by
  unfold Port.levelCheck
  split <;> rfl

/-- The settings are replaced after the request's frame has restarted the silence timer, and restart it again: the old timeout leaves
no trace, as if the new one had stood when the frame came. -/
theorem Port.withSettings_restarted (now : Nat) (enables : Byte) (watermark silence : Nat) (q : Port) :
    (q.hunt.restartSilence now).withSettings now enables watermark silence =
      (q.resettled enables watermark silence).hunt.restartSilence now := by
  rw [Port.withSettings, Port.levelCheck_eq]
  rfl

/-- A change of the requesting port after the taking is the change `g` before it, where the two agree on that port at that moment. -/
theorem State.taken_modPort_of_eq {w : When} {p : PortId} {s : State} {f g : Port → Port}
    (h : f ((s.port p).hunt.restartSilence (max s.now w.time)) = (g (s.port p)).hunt.restartSilence (max s.now w.time)) :
    (s.taken w p).modPort p f = (s.modPort p g).taken w p := by
  simpa [State.taken, State.modPort, State.port, State.reach] using congrArg (s.ports.put p) h

/-! ## SET_PORT by its two outcomes -/

theorem exec_setPort (w : When) (p : PortId) (enables watermark : Byte) (silence : Half) (s : State) :
    exec (.setPort w p enables watermark silence) s =
      .next (request w p 0x0C#8 (setPortResult p enables watermark silence) s) := rfl

section
variable {p : PortId} {enables watermark : Byte} {silence : Half}

theorem setPortResult_range (s : State) (houtside : PortSettingsOutside watermark silence) :
    setPortResult p enables watermark silence s = refuse .range s := by
  refine if_pos ?_
  simp only [Bool.or_eq_true, Bool.and_eq_true, decide_eq_true_eq, or_assoc]
  exact .inr houtside

/-- The reply gives the settings as they now stand, which are the request's own fields. -/
theorem setPortResult_ok (s : State) (hset : enables.toNat < 64) (hinside : ¬ PortSettingsOutside watermark silence) :
    setPortResult p enables watermark silence s =
      (s.modPort p (Port.withSettings s.now enables watermark.toNat silence.toNat), .ok,
        [enables, watermark] ++ halfBytes silence) := by
  have hnames := (namesNotices_iff enables).2 hset
  rw [setPortResult, if_neg ?inside]
  case inside =>
    simp only [hnames, Bool.not_true, Bool.false_eq_true, Bool.or_eq_true, Bool.and_eq_true, decide_eq_true_eq, or_assoc, false_or]
    exact hinside
  simp [Port.withSettings, Port.levelCheck_eq, Port.restartSilence, b1, b2]

/-- An accepted SET_PORT leaves what the taking of its frame leaves on the port with its settings replaced. -/
theorem setPortResult_taken (w : When) (s : State) (hset : enables.toNat < 64)
    (hinside : ¬ PortSettingsOutside watermark silence) :
    setPortResult p enables watermark silence (s.taken w p) =
      ((s.modPort p (Port.resettled enables watermark.toNat silence.toNat)).taken w p, .ok,
        [enables, watermark] ++ halfBytes silence) := by
  rw [setPortResult_ok _ hset hinside]
  exact congrArg (·, _) (State.taken_modPort_of_eq (Port.withSettings_restarted ..))

end

/-- Settles O17, by the two outcomes: a value out of range leaves the state as it was, and otherwise the settings are replaced. -/
theorem portSettingsTakeEffect : Obligations.PortSettingsTakeEffect := by
  intro w p s enables watermark silence hready hset outside
  refine ⟨fun houtside => ?range, fun hinside => ?taken⟩
  case range => rw [exec_setPort, request_refused hready (setPortResult_range _ houtside)]
  case taken =>
    rw [exec_setPort, request_answers hready (setPortResult_taken w s hset hinside)]
    rfl

end Sys2Proof.Machine
end

section
/-! SUPPORT. What every operation of the part keeps: the invariants of the blocks, each read off the fields that it speaks of, and the
updates that keep them all. -/
namespace Sys2Proof.Machine

/-! ## The relation -/

/-- The invariants but the timeline's own that hold of `s` hold of `t`, which is no earlier and has the same queue. -/
structure KeepsRest (s t : State) : Prop where
  memory : s.MemorySound → t.MemorySound
  calendar : s.CalendarSound → t.CalendarSound
  ordered : s.CalendarOrdered → t.CalendarOrdered
  curves : s.CurvesSound → t.CurvesSound
  chime : s.ChimeSound → t.ChimeSound
  rails : s.RailsSound → t.RailsSound
  stage : s.StageSound → t.StageSound
  now : s.now ≤ t.now
  pending : t.pending = s.pending

/-- Every invariant that holds of `s` holds of `t`, which is no earlier and has the same queue. -/
structure Keeps (s t : State) : Prop extends KeepsRest s t where
  timeline : s.TimelineSound → t.TimelineSound
  leads : s.LeadsSound → t.LeadsSound

section
variable {s t u : State}

theorem KeepsRest.rfl' : KeepsRest s s := ⟨id, id, id, id, id, id, id, le_rfl, rfl⟩

theorem KeepsRest.trans (h : KeepsRest s t) (g : KeepsRest t u) : KeepsRest s u :=
  ⟨g.memory ∘ h.memory, g.calendar ∘ h.calendar, g.ordered ∘ h.ordered, g.curves ∘ h.curves, g.chime ∘ h.chime,
    g.rails ∘ h.rails, g.stage ∘ h.stage, h.now.trans g.now, g.pending.trans h.pending⟩

theorem KeepsRest.ite {c : Prop} [Decidable c] (h : c → KeepsRest s t) (g : ¬ c → KeepsRest s u) :
    KeepsRest s (if c then t else u) := by
  split
  · exact h ‹_›
  · exact g ‹_›

theorem Keeps.rfl' : Keeps s s := ⟨.rfl', id, id⟩

theorem Keeps.trans (h : Keeps s t) (g : Keeps t u) : Keeps s u :=
  ⟨h.toKeepsRest.trans g.toKeepsRest, g.timeline ∘ h.timeline, g.leads ∘ h.leads⟩

theorem Keeps.ite {c : Prop} [Decidable c] (h : c → Keeps s t) (g : ¬ c → Keeps s u) : Keeps s (if c then t else u) := by
  split
  · exact h ‹_›
  · exact g ‹_›

/-- The timeline's invariants are kept where the timeline is. -/
theorem KeepsRest.keeps (h : KeepsRest s t) (htimeline : t.timeline = s.timeline) : Keeps s t := by
  refine ⟨h, fun hs => ?_, fun hs => ?_⟩
  · unfold State.TimelineSound
    rwa [htimeline]
  · unfold State.LeadsSound
    rwa [htimeline]

end

/-! ## Updates of one block -/

section
variable (s : State)

theorem State.reach_keeps (t : Nat) : Keeps s (s.reach t) := ⟨⟨id, id, id, id, id, id, id, le_max_left _ _, rfl⟩, id, id⟩

theorem State.modPlayer_keeps (v : VoiceId) (f : Player → Player) : Keeps s (s.modPlayer v f) :=
  ⟨⟨id, id, id, id, id, id, id, le_rfl, rfl⟩, id, id⟩

theorem State.modSense_keeps (f : Sense → Sense) : Keeps s (s.modSense f) := ⟨⟨id, id, id, id, id, id, id, le_rfl, rfl⟩, id, id⟩

theorem State.modTimeline_rest (f : Timeline → Timeline) : KeepsRest s (s.modTimeline f) :=
  ⟨id, id, id, id, id, id, id, le_rfl, rfl⟩

theorem State.withTimeline_rest (t : Timeline) : KeepsRest s { s with timeline := t } := ⟨id, id, id, id, id, id, id, le_rfl, rfl⟩

theorem State.withDecisions_keeps (l : List RailId) : Keeps s { s with decisions := l } :=
  ⟨⟨id, id, id, id, id, id, id, le_rfl, rfl⟩, id, id⟩

theorem State.withChimePort_keeps (p : Option PortId) : Keeps s { s with chimePort := p } :=
  ⟨⟨id, id, id, id, id, id, id, le_rfl, rfl⟩, id, id⟩

theorem State.withPower_keeps (p : Power) : Keeps s { s with power := p } := ⟨⟨id, id, id, id, id, id, id, le_rfl, rfl⟩, id, id⟩

theorem State.wake_keeps (r : RailId) : Keeps s (s.wake r) := s.withDecisions_keeps _

theorem State.tell_keeps (f : VoiceId → Bool) : Keeps s (s.tell f) := ⟨⟨id, id, id, id, id, id, id, le_rfl, rfl⟩, id, id⟩

/-- Phrase memory replaced by cells in the canonical form. -/
theorem State.withMem_keeps {m : List Host.Cell} (h : s.MemorySound → memWf m = true) : Keeps s { s with mem := m } :=
  ⟨⟨h, id, id, id, id, id, id, le_rfl, rfl⟩, id, id⟩

/-- Ports changed so that no echo queue passes its 128 records. -/
theorem State.withPorts_keeps {b : Bank Port 4}
    (h : ∀ p, (s.port p).echo.length ≤ 128 → (b.look p).echo.length ≤ 128) : Keeps s { s with ports := b } := by
  refine ⟨⟨id, fun hcal => ?_, id, id, id, id, id, le_rfl, rfl⟩, id, id⟩
  obtain ⟨hsum, huse, hchime, hecho⟩ := hcal
  exact ⟨hsum, huse, hchime, fun p => h p (hecho p)⟩

theorem State.modPort_keeps (p : PortId) {f : Port → Port} (h : ∀ q, q.echo.length ≤ 128 → (f q).echo.length ≤ 128) :
    Keeps s (s.modPort p f) := by
  refine s.withPorts_keeps fun i hi => ?_
  rw [Bank.look_put]
  split
  · subst_vars
    exact h _ hi
  · exact hi

/-- A port changed outside its echo queue. -/
theorem State.modPort_keeps_of_echo (p : PortId) {f : Port → Port} (h : ∀ q, (f q).echo = q.echo) :
    Keeps s (s.modPort p f) := s.modPort_keeps p fun q hq => by rwa [h q]

theorem State.raise_keeps (n : Notice) (p : PortId) : Keeps s (s.raise n p) := s.modPort_keeps_of_echo p fun _ => rfl

theorem State.raiseAll_keeps (n : Notice) : Keeps s (s.raiseAll n) := by
  refine s.withPorts_keeps fun p hp => ?_
  rw [Bank.look_mapWith]
  exact hp

/-- A voice changed so that voice 15 keeps its fixed form. -/
theorem State.modVoice_keeps (v : VoiceId) {f : Voice → Voice} (h : v = chimeVoice → s.ChimeSound → (s.modVoice v f).ChimeSound) :
    Keeps s (s.modVoice v f) := by
  refine ⟨⟨id, id, id, id, fun hc => ?_, id, id, le_rfl, rfl⟩, id, id⟩
  by_cases hv : v = chimeVoice
  · exact h hv hc
  · have hsame : (s.modVoice v f).voice chimeVoice = s.voice chimeVoice :=
      Bank.look_put_ne _ (fun e => hv e.symm) _
    unfold State.ChimeSound at hc ⊢
    rwa [hsame]

theorem State.modVoice_keeps_of_ne {v : VoiceId} (hv : v ≠ chimeVoice) (f : Voice → Voice) : Keeps s (s.modVoice v f) :=
  s.modVoice_keeps v fun h => absurd h hv

/-- Strikers changed so that none begins to drive or to hold outside PLAYING. -/
theorem State.withStrikers_keeps {b : Bank Striker 96}
    (h : ∀ n, (b.look n).state = .drive ∨ (b.look n).state = .hold →
      ((s.striker n).state = .drive ∨ (s.striker n).state = .hold) ∨ s.stage.stage = .playing) :
    Keeps s { s with strikers := b } := by
  refine ⟨⟨id, id, id, id, id, id, fun hs => ?_, le_rfl, rfl⟩, id, id⟩
  obtain ⟨hdrive, hrest⟩ := hs
  exact ⟨fun n hn => (h n hn).elim (hdrive n) id, hrest⟩

theorem State.modStriker_keeps (n : StrikerId) {f : Striker → Striker}
    (h : (f (s.striker n)).state = .drive ∨ (f (s.striker n)).state = .hold →
      ((s.striker n).state = .drive ∨ (s.striker n).state = .hold) ∨ s.stage.stage = .playing) :
    Keeps s (s.modStriker n f) := by
  refine s.withStrikers_keeps fun m hm => ?_
  rw [Bank.look_put] at hm
  split at hm
  · subst_vars
    exact h hm
  · exact .inl hm

/-- A striker changed but for its state. -/
theorem State.modStriker_keeps_of_state (n : StrikerId) {f : Striker → Striker} (h : ∀ k, (f k).state = k.state) :
    Keeps s (s.modStriker n f) := s.modStriker_keeps n fun hn => by rw [h] at hn; exact .inl hn

/-- Rails changed so that each stays within its window count, which stays within 8. -/
theorem State.withRails_keeps {b : Bank Rail 6}
    (h : s.RailsSound → ∀ r, (b.look r).recent.length ≤ (b.look r).count ∧ (b.look r).count ≤ 8) :
    Keeps s { s with rails := b } :=
  ⟨⟨id, id, id, id, id, fun hr => ⟨h hr, hr.2⟩, id, le_rfl, rfl⟩, id, id⟩

theorem State.modRail_keeps (r : RailId) {f : Rail → Rail}
    (h : s.RailsSound → (f (s.rail r)).recent.length ≤ (f (s.rail r)).count ∧ (f (s.rail r)).count ≤ 8) :
    Keeps s (s.modRail r f) := by
  refine s.withRails_keeps fun hr i => ?_
  rw [Bank.look_put]
  split
  · exact h hr
  · exact hr.1 i

theorem State.modRail_keeps_of_fires (r : RailId) {f : Rail → Rail}
    (h : ∀ x, (f x).recent.length ≤ x.recent.length ∧ (f x).count = x.count) : Keeps s (s.modRail r f) := by
  refine s.modRail_keeps r fun hr => ?_
  obtain ⟨hrecent, hcount⟩ := h (s.rail r)
  have := hr.1 r
  omega

theorem State.fittedRails_keeps {f : Rail → Rail} (h : ∀ x, (f x).recent = x.recent ∧ (f x).count = x.count) :
    Keeps s (s.fittedRails f) := by
  refine s.withRails_keeps fun hr i => ?_
  rw [Bank.look_mapWith]
  split
  · rw [(h _).1, (h _).2]
    exact hr.1 i
  · exact hr.1 i

/-- Damper units changed so that a list stays within 16 holds, and empty outside PLAYING. -/
theorem State.withDampers_keeps {b : Bank Damper 4}
    (h : ∀ u, (s.damper u).holds.length ≤ 16 → (b.look u).holds.length ≤ 16 ∧
      (s.stage.stage ≠ .playing → (s.damper u).holds = [] → (b.look u).holds = [])) : Keeps s { s with dampers := b } := by
  refine ⟨⟨id, id, id, id, id, id, fun hs => ?_, le_rfl, rfl⟩, id, id⟩
  obtain ⟨hdrive, hholds, hrest⟩ := hs
  exact ⟨hdrive, fun u => ⟨(h u (hholds u).1).1, fun hp => (h u (hholds u).1).2 hp ((hholds u).2 hp)⟩, hrest⟩

/-- Damper units changed so that their lists only lose holds. -/
theorem State.withDampers_keeps_of_sublist {b : Bank Damper 4} (h : ∀ u, (b.look u).holds.Sublist (s.damper u).holds) :
    Keeps s { s with dampers := b } :=
  s.withDampers_keeps fun u hu => ⟨(h u).length_le.trans hu, fun _ he => List.sublist_nil.1 (he ▸ h u)⟩

theorem State.modDamper_keeps_of_sublist (u : UnitId) {f : Damper → Damper} (h : ∀ d, (f d).holds.Sublist d.holds) :
    Keeps s (s.modDamper u f) := by
  refine s.withDampers_keeps_of_sublist fun i => ?_
  rw [Bank.look_put]
  split
  · subst_vars
    exact h _
  · exact .refl _

theorem State.allDampers_keeps_of_sublist {f : Damper → Damper} (h : ∀ d, (f d).holds.Sublist d.holds) :
    Keeps s (s.allDampers f) := by
  refine s.withDampers_keeps_of_sublist fun i => ?_
  rw [Bank.look_mapWith]
  exact h _

/-- The shaper changed so that the curve tables keep their form. -/
theorem State.withShaper_keeps {x : Shaper} (h : s.CurvesSound → ({ s with shaper := x } : State).CurvesSound) :
    Keeps s { s with shaper := x } := ⟨⟨id, id, id, h, id, id, id, le_rfl, rfl⟩, id, id⟩

end

/-! ## A damper unit's list -/

section
variable (now : Nat) (d : Damper)

@[simp] theorem Damper.settleOpen_holds : (d.settleOpen now).holds = d.holds := by
  unfold Damper.settleOpen
  split <;> rfl

theorem Damper.drop_holds_sublist (gone : Hold → Bool) : (d.drop now gone).holds.Sublist d.holds := by
  unfold Damper.drop
  split
  · rw [Damper.settleOpen_holds]
    exact List.filter_sublist
  · exact .refl _

@[simp] theorem Damper.stopped_holds : (d.stopped now).holds = [] := Damper.settleOpen_holds _ _

@[simp] theorem Damper.springReturn_holds : (d.springReturn now).holds = [] := by
  unfold Damper.springReturn
  dsimp only
  split <;> rfl

@[simp] theorem Damper.lifted_holds : (d.lifted now).holds = d.holds := Damper.settleOpen_holds _ _

@[simp] theorem Damper.minExpired_holds : (d.minExpired now).holds = d.holds := Damper.settleOpen_holds _ _

@[simp] theorem Damper.clamped_holds : (d.clamped now).holds = d.holds := by
  unfold Damper.clamped
  dsimp only
  split <;> rfl

theorem length_insertHold (h : Hold) (l : List Hold) : (insertHold h l).length = l.length + 1 := by
  induction l with
  | nil => rfl
  | cons a rest ih =>
    unfold insertHold
    split
    · rfl
    · rw [List.length_cons, ih, List.length_cons]

/-- A hold that arrives leaves at most 16 on the list (R95). -/
theorem length_admitHold_le {l : List Hold} (h : Hold) (hl : l.length ≤ 16) : (admitHold h l).length ≤ 16 := by
  rw [admitHold, length_insertHold]
  split
  · rw [List.length_drop]
    omega
  · omega

@[simp] theorem Damper.arrive_holds (h : Hold) : (d.arrive now h).holds = admitHold h d.holds := by
  unfold Damper.arrive
  dsimp only
  split <;> rfl

end

/-! ## The calendar's list -/

/-- What calendar order, the quotas and the slots read of an entry. -/
def Entry.place (e : Entry) : SlotId × VoiceId × PortId × Nat × Nat := (e.slot, e.voice, e.port, e.due, e.seq)

section
variable {a b c : Entry}

theorem Entry.before_iff : a.before b = true ↔ a.due < b.due ∨ (a.due = b.due ∧ a.seq < b.seq) := by
  simp [Entry.before]

theorem Entry.before_trans (hab : a.before b = true) (hbc : b.before c = true) : a.before c = true := by
  rw [Entry.before_iff] at *
  omega

theorem Entry.before_of_not (h : ¬ a.before b = true) (hne : b.seq ≠ a.seq) : b.before a = true := by
  rw [Entry.before_iff] at *
  omega

theorem placeEntry_perm (e : Entry) (l : List Entry) : (placeEntry e l).Perm (e :: l) := by
  induction l with
  | nil => exact .refl _
  | cons d rest ih =>
    unfold placeEntry
    split
    · exact .refl _
    · exact (ih.cons d).trans (.swap e d rest)

/-- An entry placed in an ordered list, its arrival a new one, leaves the list ordered. -/
theorem placeEntry_pairwise {e : Entry} {l : List Entry} (h : l.Pairwise (fun a b => a.before b = true))
    (hnew : ∀ d ∈ l, d.seq ≠ e.seq) : (placeEntry e l).Pairwise (fun a b => a.before b = true) := by
  induction l with
  | nil => exact List.pairwise_singleton _ _
  | cons d rest ih =>
    obtain ⟨hd, hrest⟩ := List.pairwise_cons.1 h
    unfold placeEntry
    split
    case isTrue hbefore =>
      refine List.pairwise_cons.2 ⟨fun x hx => ?_, h⟩
      obtain rfl | hx := List.mem_cons.1 hx
      · exact hbefore
      · exact Entry.before_trans hbefore (hd x hx)
    case isFalse hbefore =>
      refine List.pairwise_cons.2 ⟨fun x hx => ?_, ih hrest fun x hx => hnew x (List.mem_cons_of_mem _ hx)⟩
      obtain rfl | hx := List.mem_cons.1 ((placeEntry_perm e rest).mem_iff.1 hx)
      · exact Entry.before_of_not hbefore (hnew d List.mem_cons_self)
      · exact hd x hx

end

section
variable (s : State)

/-- Entries changed but for what the calendar's order and counts read of them. -/
theorem State.withEntries_keeps_of_places {l : List Entry} (h : l.map Entry.place = s.entries.map Entry.place) :
    Keeps s { s with entries := l } := by
  have hcount : ∀ f : SlotId × VoiceId × PortId × Nat × Nat → Bool,
      l.countP (f ∘ Entry.place) = s.entries.countP (f ∘ Entry.place) := fun f => by
    rw [← List.countP_map, ← List.countP_map, h]
  have hmap : ∀ {γ : Type} (f : SlotId × VoiceId × PortId × Nat × Nat → γ),
      l.map (f ∘ Entry.place) = s.entries.map (f ∘ Entry.place) := fun f => by
    rw [← List.map_map, ← List.map_map, h]
  refine ⟨⟨id, ?calendar, ?ordered, id, id, id, id, le_rfl, rfl⟩, id, id⟩
  case calendar =>
    rintro ⟨hsum, huse, hchime, hecho⟩
    refine ⟨hsum, fun p => ?_, ?_, hecho⟩
    · exact (hcount fun k => k.2.1 ≠ chimeVoice && k.2.2.1 = p).trans_le (huse p)
    · exact (hcount fun k => k.2.1 = chimeVoice).trans_le hchime
  case ordered =>
    rintro ⟨horder, hslots, hseqs, hnext⟩
    have hbefore : (l.map Entry.place).Pairwise (fun a b => a.2.2.2.1 < b.2.2.2.1 ∨
        (a.2.2.2.1 = b.2.2.2.1 ∧ a.2.2.2.2 < b.2.2.2.2)) := by
      rw [h, List.pairwise_map]
      exact horder.imp fun hab => Entry.before_iff.1 hab
    refine ⟨(List.pairwise_map.1 hbefore).imp fun hab => Entry.before_iff.2 hab, ?_, ?_, fun e he => ?_⟩
    · exact (hmap fun k => k.1) ▸ hslots
    · exact (hmap fun k => k.2.2.2.2) ▸ hseqs
    · have hmem : e.place ∈ s.entries.map Entry.place := h ▸ List.mem_map_of_mem he
      obtain ⟨d, hd, heq⟩ := List.mem_map.1 hmem
      have hseq : d.seq = e.seq := congrArg (fun k => k.2.2.2.2) heq
      exact hseq ▸ hnext d hd

theorem State.mapEntries_keeps {f : Entry → Entry} (h : ∀ e, (f e).place = e.place) :
    Keeps s { s with entries := s.entries.map f } := by
  refine s.withEntries_keeps_of_places ?_
  rw [List.map_map]
  exact List.map_congr_left fun e _ => h e

theorem State.modEntry_keeps (k : SlotId) {f : Entry → Entry} (h : ∀ e, (f e).place = e.place) : Keeps s (s.modEntry k f) := by
  refine s.mapEntries_keeps fun e => ?_
  split
  · exact h e
  · rfl

theorem Entry.modRoll_place (f : RollPart → RollPart) (e : Entry) : (e.modRoll f).place = e.place := by
  unfold Entry.modRoll
  split <;> rfl

/-- Entries that are taken away leave the calendar as sound as it was. -/
theorem State.withEntries_keeps_of_sublist {l : List Entry} (h : l.Sublist s.entries) : Keeps s { s with entries := l } := by
  refine ⟨⟨id, ?calendar, ?ordered, id, id, id, id, le_rfl, rfl⟩, id, id⟩
  case calendar =>
    rintro ⟨hsum, huse, hchime, hecho⟩
    exact ⟨hsum, fun p => h.countP_le.trans (huse p), h.countP_le.trans hchime, hecho⟩
  case ordered =>
    rintro ⟨horder, hslots, hseqs, hnext⟩
    exact ⟨horder.sublist h, hslots.sublist (h.map _), hseqs.sublist (h.map _), fun e he => hnext e (h.mem he)⟩

/-- A new entry in a free slot, with the next arrival, within its quota or the chime reserve (R28, R30). -/
theorem State.placed_keeps {e : Entry} (hseq : e.seq = s.nextSeq) (hslot : ∀ d ∈ s.entries, d.slot ≠ e.slot)
    (huseful : e.voice ≠ chimeVoice → s.useCount e.port < s.quotas.look e.port)
    (hreserve : e.voice = chimeVoice → s.chimeCount < 32) :
    Keeps s { s with entries := placeEntry e s.entries, nextSeq := s.nextSeq + 1 } := by
  have hperm := placeEntry_perm e s.entries
  refine ⟨⟨id, ?calendar, ?ordered, id, id, id, id, le_rfl, rfl⟩, id, id⟩
  case calendar =>
    rintro ⟨hsum, huse, hchime, hecho⟩
    refine ⟨hsum, fun p => ?_, ?_, hecho⟩
    · refine (hperm.countP_eq _).trans_le ?_
      have hp := huse p
      rw [List.countP_cons]
      split
      case isTrue hcounts =>
        simp only [Bool.and_eq_true, decide_eq_true_eq] at hcounts
        obtain ⟨hvoice, rfl⟩ := hcounts
        exact huseful hvoice
      case isFalse => exact hp
    · refine (hperm.countP_eq _).trans_le ?_
      rw [List.countP_cons]
      split
      case isTrue hcounts => exact hreserve (of_decide_eq_true hcounts)
      case isFalse => exact hchime
  case ordered =>
    rintro ⟨horder, hslots, hseqs, hnext⟩
    have hnew : ∀ d ∈ s.entries, d.seq ≠ e.seq := fun d hd => by have := hnext d hd; omega
    refine ⟨placeEntry_pairwise horder hnew, ?_, ?_, fun d hd => ?_⟩
    · rw [(hperm.map _).nodup_iff, List.map_cons, List.nodup_cons, List.mem_map]
      exact ⟨fun ⟨d, hd, heq⟩ => hslot d hd heq, hslots⟩
    · rw [(hperm.map _).nodup_iff, List.map_cons, List.nodup_cons, List.mem_map]
      exact ⟨fun ⟨d, hd, heq⟩ => hnew d hd heq, hseqs⟩
    · obtain rfl | hd := List.mem_cons.1 (hperm.mem_iff.1 hd)
      · exact hseq ▸ Nat.lt_succ_self _
      · exact (hnext d hd).trans (Nat.lt_succ_self _)

/-- The entries of other slots, with one entry of a slot, are no more than all entries. -/
theorem cons_filter_subperm {e : Entry} {l : List Entry} (he : e ∈ l) : (e :: l.filter (fun d => d.slot ≠ e.slot)).Subperm l := by
  have hsplit : (l.filter (fun d => d.slot = e.slot) ++ l.filter (fun d => ¬ d.slot = e.slot)).Perm l := by
    simpa using List.filter_append_perm (fun d => decide (d.slot = e.slot)) l
  have hone : [e].Sublist (l.filter (fun d => d.slot = e.slot)) :=
    List.singleton_sublist.2 (List.mem_filter.2 ⟨he, decide_eq_true rfl⟩)
  exact (hone.append (.refl _)).subperm.trans hsplit.subperm

/-- An entry of the calendar moved to the place of a new due tick (R29, R43). -/
theorem State.moved_keeps {e e' : Entry} (he : e ∈ s.entries) (hslot : e'.slot = e.slot) (hvoice : e'.voice = e.voice)
    (hport : e'.port = e.port) (hseq : e'.seq = e.seq) :
    Keeps s { s with entries := placeEntry e' (s.entries.filter (fun d => d.slot ≠ e.slot)) } := by
  have hperm := placeEntry_perm e' (s.entries.filter (fun d => d.slot ≠ e.slot))
  have hsub : (s.entries.filter (fun d => d.slot ≠ e.slot)).Sublist s.entries := List.filter_sublist
  have hcons := cons_filter_subperm he
  refine ⟨⟨id, ?calendar, ?ordered, id, id, id, id, le_rfl, rfl⟩, id, id⟩
  case calendar =>
    rintro ⟨hsum, huse, hchime, hecho⟩
    have hcount : ∀ f : VoiceId → PortId → Bool,
        (placeEntry e' (s.entries.filter (fun d => d.slot ≠ e.slot))).countP (fun d => f d.voice d.port) ≤
          s.entries.countP (fun d => f d.voice d.port) := fun f => by
      have hle := hcons.countP_le (fun d => f d.voice d.port)
      rw [hperm.countP_eq, List.countP_cons, hvoice, hport]
      rwa [List.countP_cons] at hle
    exact ⟨hsum, fun p => (hcount fun v q => v ≠ chimeVoice && q = p).trans (huse p),
      (hcount fun v _ => v = chimeVoice).trans hchime, hecho⟩
  case ordered =>
    rintro ⟨horder, hslots, hseqs, hnext⟩
    have hnew : ∀ d ∈ s.entries.filter (fun d => d.slot ≠ e.slot), d.seq ≠ e'.seq := fun d hd heq => by
      obtain ⟨hd, hne⟩ := List.mem_filter.1 hd
      exact of_decide_eq_true hne (congrArg Entry.slot (List.inj_on_of_nodup_map hseqs hd he (heq.trans hseq)))
    refine ⟨placeEntry_pairwise (horder.sublist hsub) hnew, ?_, ?_, fun d hd => ?_⟩
    · rw [(hperm.map _).nodup_iff, List.map_cons, List.nodup_cons, List.mem_map]
      refine ⟨fun ⟨d, hd, heq⟩ => ?_, hslots.sublist (hsub.map _)⟩
      exact of_decide_eq_true (List.mem_filter.1 hd).2 (heq.trans hslot)
    · rw [(hperm.map _).nodup_iff, List.map_cons, List.nodup_cons, List.mem_map]
      exact ⟨fun ⟨d, hd, heq⟩ => hnew d hd heq, hseqs.sublist (hsub.map _)⟩
    · obtain rfl | hd := List.mem_cons.1 (hperm.mem_iff.1 hd)
      · exact hseq ▸ hnext e he
      · exact hnext d (hsub.mem hd)

end

theorem State.entryAt_mem {s : State} {k : SlotId} {e : Entry} (h : s.entryAt k = some e) : e ∈ s.entries :=
  List.mem_of_find?_eq_some h

theorem State.entryAt_slot {s : State} {k : SlotId} {e : Entry} (h : s.entryAt k = some e) : e.slot = k := by
  simpa using List.find?_some h

end Sys2Proof.Machine
end

section
/-! SUPPORT. The calendar's and the arbiters' operations keep the invariants; and what the calendar's leave of the strikers, the rails,
the voices and the sense unit. -/
namespace Sys2Proof.Machine

/-! ## What the calendar leaves of other blocks -/

/-- Beside what `Kept` says, `t` has the strikers, the rails, the voices and the sense unit of `s`. -/
structure CalendarKept (s t : State) : Prop extends Kept s t where
  strikers : t.strikers = s.strikers
  rails : t.rails = s.rails
  voices : t.voices = s.voices
  sense : t.sense = s.sense

namespace CalendarKept

variable {s t u : State}

theorem rfl' : CalendarKept s s := ⟨Kept.rfl', rfl, rfl, rfl, rfl⟩

theorem trans (h : CalendarKept s t) (g : CalendarKept t u) : CalendarKept s u :=
  ⟨h.toKept.trans g.toKept, g.strikers.trans h.strikers, g.rails.trans h.rails, g.voices.trans h.voices, g.sense.trans h.sense⟩

theorem striker (h : CalendarKept s t) (n : StrikerId) : t.striker n = s.striker n := congrArg (·.look n) h.strikers
theorem rail (h : CalendarKept s t) (r : RailId) : t.rail r = s.rail r := congrArg (·.look r) h.rails
theorem voice (h : CalendarKept s t) (v : VoiceId) : t.voice v = s.voice v := congrArg (·.look v) h.voices
theorem bar (h : CalendarKept s t) (b : BarId) : t.bar b = s.bar b := congrArg (·.look b) h.bars

end CalendarKept

section
variable (s : State)

theorem State.leave_calendarKept (k : SlotId) (o : EntryOutcome) : CalendarKept s (s.leave k o) := by
  rw [State.leave_frame]
  exact ⟨⟨rfl, rfl, rfl, rfl, rfl, rfl, rfl, rfl, rfl, rfl⟩, rfl, rfl, rfl, rfl⟩

theorem State.leaveAll_calendarKept (o : EntryOutcome) (l : List SlotId) : CalendarKept s (State.leaveAll o l s) := by
  rw [State.leaveAll_frame]
  exact ⟨⟨rfl, rfl, rfl, rfl, rfl, rfl, rfl, rfl, rfl, rfl⟩, rfl, rfl, rfl, rfl⟩

theorem State.withEntries_calendarKept (l : List Entry) : CalendarKept s { s with entries := l } :=
  ⟨s.withEntries_kept l, rfl, rfl, rfl, rfl⟩

theorem State.modEntry_calendarKept (k : SlotId) (f : Entry → Entry) : CalendarKept s (s.modEntry k f) :=
  s.withEntries_calendarKept _

theorem State.wake_calendarKept (r : RailId) : CalendarKept s (s.wake r) := ⟨s.wake_kept r, rfl, rfl, rfl, rfl⟩

theorem State.placeHold_calendarKept (b : BarId) (v : VoiceId) (t : Nat) : CalendarKept s (s.placeHold b v t) := by
  refine ⟨s.placeHold_kept b v t, ?_, ?_, ?_, ?_⟩ <;> unfold State.placeHold <;> split <;> try split
  all_goals rfl

end

/-! ## A join, in its parts -/

/-- The entry as RELEASED, with its times (R37). -/
def Entry.joined (now target deadline : Nat) (e : Entry) : Entry :=
  { e with state := .released, target := some target, deadline := some deadline, targetReached := target ≤ now }

/-- The hold that a sustain places at a release (R37, R96). -/
def State.placeSustain (e : Entry) (s : State) : State :=
  match e.sustain with
  | some n => s.placeHold e.bar e.voice (e.due + n)
  | none => s

theorem Entry.joined_place (now t d : Nat) (e : Entry) : (e.joined now t d).place = e.place := rfl

theorem State.join_none {s : State} {k : SlotId} (h : s.entryAt k = none) (t d : Nat) : s.join k t d = s := by
  simp [State.join, h]

theorem State.join_some {s : State} {k : SlotId} {e : Entry} (h : s.entryAt k = some e) (t d : Nat) :
    s.join k t d = ((s.modEntry k (Entry.joined s.now t d)).placeSustain e).wakeRailOf e.bar := by
  simp only [State.join, h, State.placeSustain, State.wakeRailOf]
  rfl

section
variable (s : State)

theorem State.placeSustain_calendarKept (e : Entry) : CalendarKept s (s.placeSustain e) := by
  unfold State.placeSustain
  split
  · exact s.placeHold_calendarKept _ _ _
  · exact .rfl'

theorem State.wakeRailOf_calendarKept (b : BarId) : CalendarKept s (s.wakeRailOf b) := by
  unfold State.wakeRailOf
  split
  · exact s.wake_calendarKept _
  · exact .rfl'

theorem State.join_calendarKept (k : SlotId) (t d : Nat) : CalendarKept s (s.join k t d) := by
  cases h : s.entryAt k with
  | none =>
    rw [State.join_none h]
    exact .rfl'
  | some e =>
    rw [State.join_some h]
    exact ((s.modEntry_calendarKept _ _).trans (State.placeSustain_calendarKept _ _)).trans
      (State.wakeRailOf_calendarKept _ _)

/-- A release lets the entry leave, lets it join, or lets another leave and the entry join, in PLAYING where it joins (R34). -/
theorem State.release_cases (k : SlotId) :
    s.release k = s ∨ (∃ o, s.release k = s.leave k o) ∨ (∃ t d, s.stage.stage = .playing ∧ s.release k = s.join k t d) ∨
      ∃ j t d, s.stage.stage = .playing ∧ s.release k = (s.leave j .merged).join k t d := by
  unfold State.release
  dsimp only
  cases s.entryAt k with
  | none => exact .inl rfl
  | some e =>
    dsimp only
    repeat' split
    all_goals first
      | exact .inr (.inl ⟨_, rfl⟩)
      | exact .inr (.inr (.inl ⟨_, _, not_not.1 ‹_›, rfl⟩))
      | exact .inr (.inr (.inr ⟨_, _, _, not_not.1 ‹_›, rfl⟩))

theorem State.release_calendarKept (k : SlotId) : CalendarKept s (s.release k) := by
  obtain h | ⟨o, h⟩ | ⟨t, d, -, h⟩ | ⟨j, t, d, -, h⟩ := s.release_cases k <;> rw [h]
  · exact .rfl'
  · exact s.leave_calendarKept _ _
  · exact s.join_calendarKept _ _ _
  · exact (s.leave_calendarKept _ _).trans (State.join_calendarKept _ _ _ _)

theorem State.returnRoll_calendarKept (e : Entry) (n : Nat) : CalendarKept s (s.returnRoll e n) := by
  unfold State.returnRoll
  dsimp only
  split
  · exact (s.withEntries_calendarKept _).trans (State.release_calendarKept _ _)
  · exact s.withEntries_calendarKept _

theorem State.strokeEnd_calendarKept (k : SlotId) : CalendarKept s (s.strokeEnd k) := by
  unfold State.strokeEnd
  repeat' split
  · exact .rfl'
  · exact s.leave_calendarKept _ _
  · exact s.leave_calendarKept _ _
  · exact s.returnRoll_calendarKept _ _
  · exact .rfl'

theorem State.playStroke_calendarKept (k : SlotId) : CalendarKept s (s.playStroke k) :=
  (s.modEntry_calendarKept _ _).trans (State.strokeEnd_calendarKept _ _)

theorem State.missStroke_calendarKept (k : SlotId) : CalendarKept s (s.missStroke k) :=
  (s.modEntry_calendarKept _ _).trans (State.strokeEnd_calendarKept _ _)

theorem State.removeMember_calendarKept (k : SlotId) (o : EntryOutcome) : CalendarKept s (s.removeMember k o) := by
  unfold State.removeMember
  repeat' split
  · exact .rfl'
  · exact s.missStroke_calendarKept _
  · exact s.leave_calendarKept _ _

theorem State.removeMembers_calendarKept (o : EntryOutcome) (l : List SlotId) :
    CalendarKept s (State.removeMembers o l s) := by
  induction l generalizing s with
  | nil => exact .rfl'
  | cons k rest ih => exact (s.removeMember_calendarKept k o).trans (ih _)

theorem State.flushVoice_calendarKept (v : VoiceId) : CalendarKept s (s.flushVoice v).1 :=
  (s.withEntries_calendarKept _).trans (State.leaveAll_calendarKept _ _ _)

theorem State.admitEntry_calendarKept (a : Ask) (p : PortId) : CalendarKept s (s.admitEntry a p).1 := by
  unfold State.admitEntry
  split
  · exact .rfl'
  · exact .rfl'
  · have h : CalendarKept s { s with
        entries := placeEntry (a.entry p ‹_› s.nextSeq) s.entries, nextSeq := s.nextSeq + 1 } :=
      ⟨s.withAdmitted_kept _ _, rfl, rfl, rfl, rfl⟩
    dsimp only
    split
    · exact h.trans (State.release_calendarKept _ _)
    · exact h

end

/-! ## The calendar keeps the invariants -/

/-- A record offered leaves at most 128 in the queue (R143). -/
theorem Port.length_offer_le (r : EchoRecord) {q : Port} (h : q.echo.length ≤ 128) : (q.offer r).echo.length ≤ 128 := by
  unfold Port.offer Port.levelCheck
  split
  · split <;> simp only [Port.raise, List.length_append, List.length_singleton] <;> omega
  · exact h

section
variable (s : State)

theorem State.leave_keeps (k : SlotId) (o : EntryOutcome) : Keeps s (s.leave k o) := by
  unfold State.leave
  split
  · exact .rfl'
  · have hgone := s.withEntries_keeps_of_sublist (l := s.entries.filter (fun d => d.slot ≠ k)) List.filter_sublist
    dsimp only
    split
    · exact (hgone.trans (State.modPort_keeps _ _ fun _ => Port.length_offer_le _)).trans (State.tell_keeps _ _)
    · exact hgone.trans (State.tell_keeps _ _)

theorem State.leaveAll_keeps (o : EntryOutcome) (l : List SlotId) : Keeps s (State.leaveAll o l s) := by
  induction l generalizing s with
  | nil => exact .rfl'
  | cons k rest ih => exact (s.leave_keeps k o).trans (ih _)

/-- A hold is placed on a damper list in PLAYING. -/
theorem State.placeHold_keeps (b : BarId) (v : VoiceId) (t : Nat) (hplaying : s.stage.stage = .playing) :
    Keeps s (s.placeHold b v t) := by
  unfold State.placeHold
  repeat' split
  · exact .rfl'
  · refine s.withDampers_keeps fun i hi => ?_
    rw [Bank.look_put]
    split
    · subst_vars
      rw [Damper.arrive_holds]
      exact ⟨length_admitHold_le _ hi, fun hstage => absurd hplaying hstage⟩
    · exact ⟨hi, fun _ => id⟩
  · exact .rfl'

theorem State.placeSustain_keeps (e : Entry) (hplaying : s.stage.stage = .playing) : Keeps s (s.placeSustain e) := by
  unfold State.placeSustain
  split
  · exact s.placeHold_keeps _ _ _ hplaying
  · exact .rfl'

theorem State.wakeRailOf_keeps (b : BarId) : Keeps s (s.wakeRailOf b) := by
  unfold State.wakeRailOf
  split
  · exact s.wake_keeps _
  · exact .rfl'

theorem State.join_keeps (k : SlotId) (t d : Nat) (hplaying : s.stage.stage = .playing) : Keeps s (s.join k t d) := by
  cases h : s.entryAt k with
  | none =>
    rw [State.join_none h]
    exact .rfl'
  | some e =>
    rw [State.join_some h]
    exact ((s.modEntry_keeps k (Entry.joined_place s.now t d)).trans (State.placeSustain_keeps _ e hplaying)).trans
      (State.wakeRailOf_keeps _ _)

theorem State.release_keeps (k : SlotId) : Keeps s (s.release k) := by
  obtain h | ⟨o, h⟩ | ⟨t, d, hplaying, h⟩ | ⟨j, t, d, hplaying, h⟩ := s.release_cases k <;> rw [h]
  · exact .rfl'
  · exact s.leave_keeps _ _
  · exact s.join_keeps _ _ _ hplaying
  · exact (s.leave_keeps _ _).trans
      (State.join_keeps _ _ _ _ ((congrArg _ (s.leave_calendarKept j .merged).stage).trans hplaying))

theorem State.returnRoll_keeps {e : Entry} (he : e ∈ s.entries) (n : Nat) : Keeps s (s.returnRoll e n) := by
  have h := s.moved_keeps (e' := { e with
    due := e.due + n, state := .waiting, target := none, deadline := none, targetReached := false }) he rfl rfl rfl rfl
  unfold State.returnRoll
  exact .ite (fun _ => h.trans (State.release_keeps _ _)) (fun _ => h)

theorem State.strokeEnd_keeps (k : SlotId) : Keeps s (s.strokeEnd k) := by
  unfold State.strokeEnd
  repeat' split
  · exact .rfl'
  · exact s.leave_keeps _ _
  · exact s.leave_keeps _ _
  · exact s.returnRoll_keeps (State.entryAt_mem ‹_›) _
  · exact .rfl'

theorem State.modRoll_keeps (k : SlotId) (f : RollPart → RollPart) : Keeps s (s.modEntry k (Entry.modRoll f)) :=
  s.modEntry_keeps k (Entry.modRoll_place f)

theorem State.playStroke_keeps (k : SlotId) : Keeps s (s.playStroke k) :=
  (s.modRoll_keeps _ _).trans (State.strokeEnd_keeps _ _)

theorem State.missStroke_keeps (k : SlotId) : Keeps s (s.missStroke k) :=
  (s.modRoll_keeps _ _).trans (State.strokeEnd_keeps _ _)

theorem State.removeMember_keeps (k : SlotId) (o : EntryOutcome) : Keeps s (s.removeMember k o) := by
  unfold State.removeMember
  repeat' split
  · exact .rfl'
  · exact s.missStroke_keeps _
  · exact s.leave_keeps _ _

theorem State.removeMembers_keeps (o : EntryOutcome) (l : List SlotId) : Keeps s (State.removeMembers o l s) := by
  induction l generalizing s with
  | nil => exact .rfl'
  | cons k rest ih => exact (s.removeMember_keeps k o).trans (ih _)

theorem State.flushVoice_keeps (v : VoiceId) : Keeps s (s.flushVoice v).1 := by
  refine (s.mapEntries_keeps fun e => ?_).trans (State.leaveAll_keeps _ _ _)
  split
  · exact Entry.modRoll_place _ _
  · rfl

theorem State.freeSlot_free {k : SlotId} (h : s.freeSlot = some k) : ∀ d ∈ s.entries, d.slot ≠ k := by
  have hk := List.find?_some h
  simpa using hk

/-- An ask that is not refused finds its quota, or the chime reserve, not used up (R30, R31 check 5). -/
theorem State.room_of_askRefusal {a : Ask} {p : PortId} (h : s.askRefusal a p = none) :
    (a.voice ≠ chimeVoice → s.useCount p < s.quotas.look p) ∧ (a.voice = chimeVoice → s.chimeCount < 32) := by
  have hfull : s.calendarFull a.voice p = false := by
    by_contra hc
    rw [Bool.not_eq_false] at hc
    unfold State.askRefusal at h
    simp only [hc, if_true] at h
    repeat' split at h
    all_goals cases h
  rw [State.calendarFull, Bool.or_eq_false_iff] at hfull
  obtain ⟨-, hcount⟩ := hfull
  constructor
  · intro hv
    simpa [hv] using hcount
  · intro hv
    simpa [hv] using hcount

theorem State.admitEntry_keeps (a : Ask) (p : PortId) : Keeps s (s.admitEntry a p).1 := by
  unfold State.admitEntry
  split
  · exact .rfl'
  · exact .rfl'
  · rename_i slot hask hfree
    obtain ⟨huse, hchime⟩ := s.room_of_askRefusal hask
    have h := s.placed_keeps (e := a.entry p slot s.nextSeq) rfl (s.freeSlot_free hfree) huse hchime
    exact .ite (fun _ => h.trans (State.release_keeps _ _)) (fun _ => h)

/-! ## The arbiters keep the invariants -/

theorem State.foldl_keeps {α : Type} {f : State → α → State} (hf : ∀ t a, Keeps t (f t a)) (l : List α) :
    Keeps s (l.foldl f s) := by
  induction l generalizing s with
  | nil => exact .rfl'
  | cons a rest ih => exact (hf s a).trans (ih _)

/-- The bar's other strikers with their fired-last marks cleared (R71). -/
def State.unmarkOthers (e : Entry) (n : StrikerId) (s : State) : State :=
  ((s.bar e.bar).strikers.filter (· ≠ n)).foldl (fun s m => s.modStriker m (fun k => { k with firedLast := false })) s

theorem State.unmarkOthers_keeps (e : Entry) (n : StrikerId) : Keeps s (s.unmarkOthers e n) :=
  s.foldl_keeps (fun t m => t.modStriker_keeps_of_state m (f := fun k => { k with firedLast := false }) fun _ => rfl) _

theorem State.unmarkOthers_frame (e : Entry) (n : StrikerId) :
    s.unmarkOthers e n = { s with strikers := (s.unmarkOthers e n).strikers } := by
  unfold State.unmarkOthers
  generalize (s.bar e.bar).strikers.filter (· ≠ n) = l
  induction l generalizing s with
  | nil => rfl
  | cons m rest ih =>
    rw [List.foldl_cons]
    exact ih (s.modStriker m _)

/-- The entry's shaped pulse at a grant (R71, R83). -/
def State.shaped (s : State) (e : Entry) (n : StrikerId) : Shaped :=
  shape e.strength (s.striker n) (s.table (s.striker n).table).live (s.rail (railOf n))

theorem State.grant_eq (e : Entry) (n : StrikerId) : s.grant e n =
    (((s.unmarkOthers e n).modStriker n (Striker.fire s.now (s.shaped e n).pulse e.slot)).modRail (railOf n)
      (Rail.fire s.now)).modEntry e.slot (Entry.fired s.now n (s.shaped e n) (s.damped (s.bar e.bar))) := by
  have h := s.unmarkOthers_frame e n
  have hnow : (s.unmarkOthers e n).now = s.now := by rw [h]
  unfold State.grant
  dsimp only
  change (((s.unmarkOthers e n).modStriker n (Striker.fire (s.unmarkOthers e n).now _ _)).modRail _
    (Rail.fire (s.unmarkOthers e n).now)).modEntry _ (Entry.fired (s.unmarkOthers e n).now _ _ _) = _
  rw [hnow]
  rfl

/-- A grant in PLAYING on a rail that has room for one more recent fire (R64, R65). -/
theorem State.grant_keeps (e : Entry) (n : StrikerId) (hplaying : s.stage.stage = .playing)
    (hroom : s.RailsSound → (s.rail (railOf n)).recent.length < (s.rail (railOf n)).count) : Keeps s (s.grant e n) := by
  have hframe := s.unmarkOthers_frame e n
  have hstage : (s.unmarkOthers e n).stage = s.stage := by rw [hframe]
  have hrails : (s.unmarkOthers e n).rails = s.rails := by rw [hframe]
  have hbars : (s.unmarkOthers e n).bars = s.bars := by rw [hframe]
  rw [State.grant_eq]
  refine (((s.unmarkOthers_keeps e n).trans (State.modStriker_keeps _ n fun _ => .inr (hstage ▸ hplaying))).trans
    (State.modRail_keeps _ (railOf n) fun h => ?_)).trans (State.modEntry_keeps _ _ fun _ => rfl)
  have hsound : s.RailsSound := by
    simpa only [State.RailsSound, State.modStriker_rail, State.modStriker_bar, State.rail, State.bar, State.modStriker_rails,
      State.modStriker_bars, hrails, hbars] using h
  have hrail : ((s.unmarkOthers e n).modStriker n (Striker.fire s.now (s.shaped e n).pulse e.slot)).rail (railOf n) =
      s.rail (railOf n) := congrArg (·.look (railOf n)) hrails
  rw [hrail]
  simp only [Rail.fire, List.length_append, List.length_singleton]
  exact ⟨hroom hsound, (hsound.1 _).2⟩

end

theorem State.firstStroke_mem {s : State} {l : List Entry} {e : Entry} (h : s.firstStroke l = some e) : e ∈ l := by
  induction l generalizing e with
  | nil => cases h
  | cons d rest ih =>
    unfold State.firstStroke at h
    split at h
    · cases h
      exact List.mem_cons_self
    · split at h <;> cases h
      · exact List.mem_cons_of_mem _ (ih ‹_›)
      · exact List.mem_cons_self

theorem State.chooseStriker_mem {s : State} {roll : Bool} {l : List StrikerId} {n : StrikerId}
    (h : s.chooseStriker roll l = some n) : n ∈ l := by
  induction l generalizing n with
  | nil => cases h
  | cons m rest ih =>
    unfold State.chooseStriker at h
    split at h
    · cases h
      exact List.mem_cons_self
    · split at h <;> cases h
      · exact List.mem_cons_of_mem _ (ih ‹_›)
      · exact List.mem_cons_self

theorem Rail.free_iff {r : Rail} :
    r.free = true ↔ r.spacingEnd = none ∧ r.recent.length < r.count ∧ r.state = .up := by
  simp [Rail.free, and_assoc]

theorem State.mem_readyStrikers {s : State} {b : Bar} {n : StrikerId} (h : n ∈ s.readyStrikers b) : n ∈ b.strikers :=
  (List.mem_filter.1 (List.mem_filter.1 h).1).1

theorem State.members_rail {s : State} {r : RailId} {e : Entry} (h : e ∈ s.members r) : (s.bar e.bar).rail = some r := by
  have hpicked := (List.mem_filter.1 h).2
  simp only [Bool.and_eq_true, decide_eq_true_eq] at hpicked
  exact hpicked.2

section
variable (s : State)

/-- A decision removes members; and where it grants a stroke, it does so in PLAYING, on its own free rail, to a striker of the
stroke's bar (R69). -/
theorem State.arbitrate_cases (r : RailId) : s.arbitrate r = s ∨
    ∃ l, (s.arbitrate r = State.removeMembers .droppedHot l s) ∨
      ∃ e n, s.stage.stage = .playing ∧ (s.rail r).free = true ∧ (s.bar e.bar).rail = some r ∧ n ∈ (s.bar e.bar).strikers ∧
        s.arbitrate r = ((State.removeMembers .droppedHot l s).grant e n).wake r := by
  unfold State.arbitrate
  split
  · exact .inl rfl
  · rename_i hgo
    simp only [Bool.or_eq_true, decide_eq_true_eq, Bool.not_eq_true', not_or, not_not, Bool.not_eq_false] at hgo
    obtain ⟨hplaying, hfree⟩ := hgo
    refine .inr ⟨(((s.members r).filter (Entry.eligible s.now)).filter s.allHot).map (·.slot), ?_⟩
    dsimp only
    split
    · exact .inl rfl
    · rename_i e hfirst
      split
      · exact .inl rfl
      · rename_i n hchosen
        have hmember : e ∈ s.members r := (List.mem_filter.1 (List.mem_filter.1 (State.firstStroke_mem hfirst)).1).1
        have hn := State.mem_readyStrikers (State.chooseStriker_mem hchosen)
        rw [(s.removeMembers_calendarKept _ _).bar] at hn
        exact .inr ⟨e, n, hplaying, hfree, State.members_rail hmember, hn, rfl⟩

theorem State.arbitrate_keeps (r : RailId) : Keeps s (s.arbitrate r) := by
  obtain h | ⟨l, h | ⟨e, n, hplaying, hfree, hrail, hn, h⟩⟩ := s.arbitrate_cases r <;> rw [h]
  · exact .rfl'
  · exact s.removeMembers_keeps _ _
  · have hkept := s.removeMembers_calendarKept .droppedHot l
    refine ((s.removeMembers_keeps _ _).trans (State.grant_keeps _ e n ?_ fun hsound => ?_)).trans (State.wake_keeps _ _)
    · rw [hkept.stage, hplaying]
    · have hown : some r = some (railOf n) := hrail.symm.trans (by
        have := hsound.2 e.bar n (by rwa [hkept.bar])
        rwa [hkept.bar] at this)
      cases hown
      rw [hkept.rail]
      exact (Rail.free_iff.1 hfree).2.1

theorem State.settleUpTo_keeps (n : Nat) : Keeps s (s.settleUpTo n) := by
  induction n generalizing s with
  | zero => exact .rfl'
  | succ n ih =>
    unfold State.settleUpTo
    split
    · exact .rfl'
    · exact ((s.withDecisions_keeps _).trans (State.arbitrate_keeps _ _)).trans (ih _)

theorem State.settle_keeps : Keeps s s.settle := (s.settleUpTo_keeps _).trans (State.withDecisions_keeps _ _)

theorem State.settleAtJoin_keeps (o : Interleaving) : Keeps s (s.settleAtJoin o) :=
  .ite (fun _ => s.settle_keeps) (fun _ => .rfl')

theorem State.settleAtBlock_keeps (o : Interleaving) : Keeps s (s.settleAtBlock o) :=
  .ite (fun _ => .rfl') (fun _ => s.settle_keeps)

/-! ## The strikers -/

theorem State.enterLocked_keeps (n : StrikerId) : Keeps s (s.enterLocked n) := by
  have h := (s.modStriker_keeps n (f := fun k => { k with state := .locked, lockPending := false, recoveryEnd := none })
    (by rintro (h | h) <;> cases h)).trans (State.raiseAll_keeps _ .strikerLocked)
  unfold State.enterLocked
  dsimp only
  repeat' split
  · exact h
  · exact h.trans (State.removeMembers_keeps _ _ _)
  · exact h

theorem State.recovered_keeps (n : StrikerId) : Keeps s (s.recovered n) :=
  .ite (fun _ => s.enterLocked_keeps n) fun _ =>
    (s.modStriker_keeps n (by rintro (h | h) <;> cases h)).trans (State.wake_keeps _ _)

theorem State.startRecover_keeps (n : StrikerId) : Keeps s (s.startRecover n) := by
  have h := s.modStriker_keeps n (f := fun k => { k with state := .recover, driveEnd := none, holdEnd := none, playing := none })
    (by rintro (h | h) <;> cases h)
  unfold State.startRecover
  dsimp only
  repeat' split
  · exact h
  · exact h.trans (State.recovered_keeps _ _)
  · exact h.trans (State.recovered_keeps _ _)

theorem State.verdict_keeps (n : StrikerId) (silent : Bool) : Keeps s (s.verdict n silent) := by
  have h := s.modStriker_keeps_of_state n (f := fun k => { k with silentCount := min 255 (k.silentCount + 1) }) fun _ => rfl
  unfold State.verdict
  dsimp only
  repeat' split
  · exact h.trans (State.enterLocked_keeps _ _)
  · exact h
  · exact h.trans (State.modStriker_keeps_of_state _ _ fun _ => rfl)
  · exact h
  · exact s.modStriker_keeps_of_state n fun _ => rfl

theorem State.flag_keeps (k : SlotId) (f : EchoFlags → EchoFlags) : Keeps s (s.flag k f) := s.modEntry_keeps k fun _ => rfl

theorem State.holdEnded_keeps (n : StrikerId) (early : Bool) : Keeps s (s.holdEnded n early) := by
  unfold State.holdEnded
  split
  · exact s.startRecover_keeps n
  · rename_i k _
    have h : Keeps s (if early then s.flag k (fun f => { f with derated := true }) else s) :=
      .ite (fun _ => s.flag_keeps _ _) (fun _ => .rfl')
    exact .ite (fun _ => h.trans (State.startRecover_keeps _ _))
      (fun _ => (h.trans (State.startRecover_keeps _ _)).trans (State.leave_keeps _ _ _))

theorem State.endHolds_keeps (l : List StrikerId) : Keeps s (State.endHolds l s) := by
  induction l generalizing s with
  | nil => exact .rfl'
  | cons n rest ih => exact (s.holdEnded_keeps n true).trans (ih _)

@[simp] theorem Striker.coolWith_state (d : Option Nat) (k : Striker) : (k.coolWith d).state = k.state := by
  unfold Striker.coolWith
  split <;> rfl

theorem State.coolAll_keeps : Keeps s s.coolAll := by
  refine (s.withStrikers_keeps fun n hn => ?_).trans (State.endHolds_keeps _ _)
  rw [Bank.look_mapWith, Striker.coolWith_state] at hn
  exact .inl hn

theorem State.cutEntry_keeps (k : SlotId) : Keeps s (s.cutEntry k) := by
  unfold State.cutEntry
  repeat' split
  · exact .rfl'
  · exact (s.modRoll_keeps _ _).trans (State.leave_keeps _ _ _)
  · exact s.modEntry_keeps _ fun _ => rfl
  · exact s.leave_keeps _ _

theorem State.dropOrCut_keeps (before : State) (l : List SlotId) : Keeps s (State.dropOrCut before l s) := by
  induction l generalizing s with
  | nil => exact .rfl'
  | cons k rest ih =>
    unfold State.dropOrCut
    refine .trans ?_ (ih _)
    repeat' split
    · exact s.leave_keeps _ _
    · exact s.cutEntry_keeps _
    · exact .rfl'
    · exact .rfl'
    · exact .rfl'

theorem Striker.cut_idle (now : Nat) (k : Striker) : (k.cut now).state ≠ .drive ∧ (k.cut now).state ≠ .hold := by
  unfold Striker.cut
  split
  · exact ⟨by simp, by simp⟩
  · simp_all

theorem State.leavePlaying_keeps : Keeps s s.leavePlaying := by
  refine ((s.withStrikers_keeps fun n hn => ?_).trans (State.dropOrCut_keeps _ _ _)).trans
    (State.allDampers_keeps_of_sublist _ fun d => by rw [Damper.springReturn_holds]; exact List.nil_sublist _)
  rw [Bank.look_mapWith] at hn
  obtain ⟨hdrive, hhold⟩ := Striker.cut_idle s.now (s.strikers.look n)
  exact absurd hn (not_or.2 ⟨hdrive, hhold⟩)

/-! ## The sense unit -/

theorem State.windowClosed_keeps (n : StrikerId) (k : SlotId) {f : Entry → Entry} (hf : ∀ e, (f e).place = e.place) :
    Keeps s (s.windowClosed n k f) := by
  have h := s.modEntry_keeps k hf
  unfold State.windowClosed
  dsimp only
  repeat' split
  · exact h
  · exact h.trans (State.leave_keeps _ _ _)
  · exact h
  · exact h.trans (State.leave_keeps _ _ _)

theorem State.judge_keeps (w : Window) : Keeps s (s.judge w) := by
  unfold State.judge
  repeat' split
  · exact .rfl'
  · exact s.windowClosed_keeps _ _ fun _ => rfl
  · exact (s.verdict_keeps _ _).trans (State.windowClosed_keeps _ _ _ fun _ => rfl)

theorem State.closeWindow_keeps (w : Window) : Keeps s (s.closeWindow w) :=
  (s.modSense_keeps _).trans (State.judge_keeps _ _)

theorem State.closeEarly_keeps (w : Window) : Keeps s (s.closeEarly w) :=
  .ite (fun _ => (s.modSense_keeps _).trans (State.modSense_keeps _ _))
    (fun _ => (s.modSense_keeps _).trans (State.judge_keeps _ _))

theorem State.openWindow_keeps (n : StrikerId) (k : SlotId) (t : Nat) : Keeps s (s.openWindow n k t).1 := by
  unfold State.openWindow
  split
  · exact .rfl'
  · rename_i pickup _
    cases s.sense.windowOn pickup with
    | none =>
      dsimp only
      split
      · exact .rfl'
      · dsimp only
        exact s.modSense_keeps _
    | some w =>
      dsimp only
      split
      · exact s.closeEarly_keeps w
      · dsimp only
        exact (s.closeEarly_keeps w).trans (State.modSense_keeps _ _)

theorem State.heard_keeps (k : SlotId) (opened : Bool) : Keeps s (s.modEntry k (Entry.heard opened)) :=
  s.modEntry_keeps k fun _ => rfl

/-- The drive end of a PRESS in PLAYING (R56). -/
theorem State.pressDriven_keeps (n : StrikerId) (k : SlotId) (q : PressPart) (t : Nat)
    (hdrive : (s.striker n).state = .drive) : Keeps s (s.pressDriven n k q t) := by
  have h := fun opened => ((s.modStriker_keeps n (f := fun x => { x with
      state := .hold, driveEnd := none, holdEnd := some (s.now + if (s.striker n).hot then 0 else q.holdMs * 1000) })
    fun _ => .inl (.inl hdrive)).trans (State.openWindow_keeps _ n k t)).trans (State.heard_keeps _ k opened)
  unfold State.pressDriven
  exact .ite (fun _ => (h _).trans (State.holdEnded_keeps _ _ _)) (fun _ => h _)

theorem State.singleDriven_keeps (n : StrikerId) (k : SlotId) (t : Nat) : Keeps s (s.singleDriven n k t) := by
  have h := fun opened => ((s.startRecover_keeps n).trans (State.openWindow_keeps _ n k t)).trans
    (State.heard_keeps _ k opened)
  unfold State.singleDriven
  exact .ite (fun _ => h _) (fun _ => (h _).trans (State.leave_keeps _ _ _))

theorem State.driveEnded_keeps (n : StrikerId) (hdrive : (s.striker n).state = .drive) : Keeps s (s.driveEnded n) := by
  unfold State.driveEnded
  dsimp only
  repeat' split
  · exact s.startRecover_keeps n
  · exact s.startRecover_keeps n
  · exact s.pressDriven_keeps _ _ _ _ hdrive
  · exact s.singleDriven_keeps _ _ _
  · exact (s.startRecover_keeps n).trans (State.playStroke_keeps _ _)

theorem State.deliverOpen_keeps (k : PickupId) (n : Nat) : Keeps s (s.deliverOpen k n) := by
  unfold State.deliverOpen
  repeat' split
  · exact .rfl'
  · exact s.closeWindow_keeps _
  · exact s.modSense_keeps _

theorem State.deliverPickup_keeps (k : PickupId) (n : Nat) : Keeps s (s.deliverPickup k n) := by
  unfold State.deliverPickup
  repeat' split
  · exact (s.modSense_keeps _).trans (State.judge_keeps _ _)
  · exact s.deliverOpen_keeps _ _
  · exact s.deliverOpen_keeps _ _

end

end Sys2Proof.Machine
end

section
/-! SUPPORT. The players, the timeline's operations, the stage controller, the ports and the power events keep the invariants. -/
namespace Sys2Proof.Machine

/-! ## The players -/

section
variable (s : State)

/-- A stream's read position moves within its area, whose addresses stay. -/
theorem State.modVoice_keeps_of_area (v : VoiceId) {f : Area → Area} (h : ∀ a, (f a).first = a.first ∧ (f a).last = a.last) :
    Keeps s (s.modVoice v (fun x => { x with area := x.area.map f })) := by
  refine s.modVoice_keeps v fun hv hchime => ?_
  subst hv
  obtain ⟨hstate, howner, hpriority, hlow, hhigh, harea⟩ := hchime
  have hvoice : (s.modVoice chimeVoice (fun x => { x with area := x.area.map f })).voice chimeVoice =
      { s.voice chimeVoice with area := (s.voice chimeVoice).area.map f } := Bank.look_put_same _ _ _
  unfold State.ChimeSound
  rw [hvoice]
  refine ⟨hstate, howner, hpriority, hlow, hhigh, ?_⟩
  rw [← harea, Option.map_map]
  exact congrFun (congrArg _ (funext fun a => Prod.ext (h a).1 (h a).2)) _

theorem State.stepTaken_keeps (v : VoiceId) (due : Nat) : Keeps s (s.stepTaken v due) := by
  unfold State.stepTaken
  dsimp only
  split
  · exact (s.modPlayer_keeps _ _).trans (State.modVoice_keeps_of_area _ v fun _ => ⟨rfl, rfl⟩)
  · exact s.modPlayer_keeps _ _

theorem State.endPhrase_keeps (v : VoiceId) (why : EndReason) : Keeps s (s.endPhrase v why) := by
  unfold State.endPhrase
  dsimp only
  split
  · exact (s.modPlayer_keeps _ _).trans (State.raise_keeps _ _ _)
  · exact s.modPlayer_keeps _ _

theorem State.loopEnd_keeps (v : VoiceId) (due : Nat) : Keeps s (s.loopEnd v due) := by
  have h := s.modPlayer_keeps v (fun q => { q with passes := min 255 (q.passes + 1) })
  unfold State.loopEnd
  exact .ite (fun _ => h.trans (State.endPhrase_keeps _ _ _)) fun _ =>
    .ite (fun _ => h.trans (State.endPhrase_keeps _ _ _)) fun _ => h.trans (State.modPlayer_keeps _ _ _)

theorem State.phraseEnd_keeps (v : VoiceId) (due : Nat) : Keeps s (s.phraseEnd v due) := by
  unfold State.phraseEnd
  split
  · exact s.loopEnd_keeps _ _
  · exact s.endPhrase_keeps _ _

theorem State.actOnStep_keeps (o : Interleaving) (v : VoiceId) (p : PortId) (due address : Nat) (x : StepBody) :
    Keeps s (s.actOnStep o v p due address x) := by
  unfold State.actOnStep
  split
  · exact (s.modPlayer_keeps _ _).trans (State.stepTaken_keeps _ _ _)
  · exact s.stepTaken_keeps _ _
  · exact (s.stepTaken_keeps _ _).trans (State.phraseEnd_keeps _ _ _)
  · exact (s.modPlayer_keeps _ _).trans (State.stepTaken_keeps _ _ _)
  · dsimp only
    split
    · exact s.modPlayer_keeps _ _
    · exact (s.modPlayer_keeps _ _).trans (State.stepTaken_keeps _ _ _)
    · exact ((s.admitEntry_keeps _ _).trans (State.settleAtJoin_keeps _ _)).trans (State.stepTaken_keeps _ _ _)

theorem State.takeStepsUpTo_keeps (o : Interleaving) (v : VoiceId) (p : PortId) (n : Nat) :
    Keeps s (State.takeStepsUpTo o v p n s) := by
  induction n generalizing s with
  | zero => exact .rfl'
  | succ n ih =>
    unfold State.takeStepsUpTo
    split
    · exact .rfl'
    · split
      · exact s.modPlayer_keeps _ _
      · exact .ite (fun _ => s.endPhrase_keeps _ _) fun _ => .ite (fun _ => s.modPlayer_keeps _ _) fun _ =>
          (s.actOnStep_keeps _ _ _ _ _ _).trans (ih _)

theorem State.takeSteps_keeps (o : Interleaving) (v : VoiceId) : Keeps s (s.takeSteps o v) := by
  unfold State.takeSteps
  repeat' split
  · exact .rfl'
  · exact .rfl'
  · exact s.takeStepsUpTo_keeps _ _ _ _

theorem State.armedTest_keeps (o : Interleaving) (v : VoiceId) : Keeps s (s.armedTest o v) :=
  .ite (fun _ => (s.modPlayer_keeps _ _).trans (State.takeSteps_keeps _ _ _)) (fun _ => .rfl')

theorem State.playerTick_keeps (o : Interleaving) (v : VoiceId) : Keeps s (s.playerTick o v) :=
  .ite (fun _ => s.takeSteps_keeps _ _) (fun _ => s.armedTest_keeps _ _)

theorem State.playersTick_keeps (o : Interleaving) (l : List VoiceId) : Keeps s (State.playersTick o l s) := by
  induction l generalizing s with
  | nil => exact .rfl'
  | cons v rest ih => exact (s.playerTick_keeps o v).trans (ih _)

theorem State.haltPlayer_keeps (v : VoiceId) : Keeps s (s.haltPlayer v) := s.modPlayer_keeps _ _

theorem State.startPlayer_keeps (o : Interleaving) (v : VoiceId) (m : PlayerMode) (a b c d : Nat) :
    Keeps s (s.startPlayer o v m a b c d) := (s.modPlayer_keeps _ _).trans (State.armedTest_keeps _ _ _)

theorem State.resumePlayer_keeps (o : Interleaving) (v : VoiceId) : Keeps s (s.resumePlayer o v) :=
  (s.modPlayer_keeps _ _).trans (State.takeSteps_keeps _ _ _)

theorem State.locatePlayers_keeps (l : List VoiceId) : Keeps s (State.locatePlayers l s) := by
  induction l generalizing s with
  | nil => exact .rfl'
  | cons v rest ih =>
    unfold State.locatePlayers
    exact .trans (.ite (fun _ => .rfl') fun _ => s.endPhrase_keeps _ _) (ih _)

/-! ## A tick expiry -/

theorem CurveTable.transfer_sound {c : CurveTable} (h : monotonePoints c.live = true ∧ monotonePoints c.staging = true) :
    monotonePoints c.transfer.live = true ∧ monotonePoints c.transfer.staging = true ∧ c.transfer.live = c.transfer.staging :=
  ⟨h.2, h.2, rfl⟩

/-- Tables changed one by one, each so that it keeps its form in the mode that the shaper then has. -/
theorem State.mapTables_keeps (m : UpdateMode) (f : TableId → CurveTable → CurveTable)
    (h : ∀ t (c : CurveTable), monotonePoints c.live = true → monotonePoints c.staging = true →
      (s.shaper.mode = .direct → c.live = c.staging) →
      monotonePoints (f t c).live = true ∧ monotonePoints (f t c).staging = true ∧
        (m = .direct → (f t c).live = (f t c).staging)) :
    Keeps s { s with shaper := { s.shaper with mode := m, tables := s.shaper.tables.mapWith f } } := by
  refine s.withShaper_keeps fun hs t => ?_
  obtain ⟨hlive, hstaging, hsame⟩ := hs t
  simp only [State.table, Bank.look_mapWith]
  exact h t _ hlive hstaging hsame

theorem State.transferCurves_keeps : Keeps s s.transferCurves := by
  refine s.mapTables_keeps s.shaper.mode _ fun t c hlive hstaging hsame => ?_
  split
  · exact ⟨hstaging, hstaging, fun _ => rfl⟩
  · exact ⟨hlive, hstaging, hsame⟩

theorem State.releaseAll_keeps (o : Interleaving) (l : List SlotId) : Keeps s (State.releaseAll o l s) := by
  induction l generalizing s with
  | nil => exact .rfl'
  | cons k rest ih =>
    unfold State.releaseAll
    refine .trans ?_ (ih _)
    split
    · exact .ite (fun _ => (s.release_keeps _).trans (State.settleAtJoin_keeps _ _)) fun _ => .rfl'
    · exact .rfl'

theorem State.holdEnds_keeps : Keeps s s.holdEnds :=
  s.allDampers_keeps_of_sublist fun d => d.drop_holds_sublist _ _

theorem State.neighbourTick_keeps (o : Interleaving) (kind : TickKind) (x : Neighbour) :
    Keeps s (s.neighbourTick o kind x) := by
  cases x with
  | shaper => exact .ite (fun _ => s.transferCurves_keeps) fun _ => .rfl'
  | calendar => exact s.releaseAll_keeps _ _
  | players => exact s.playersTick_keeps _ _
  | dampers => exact s.holdEnds_keeps

theorem State.neighboursTick_keeps (o : Interleaving) (kind : TickKind) (l : List Neighbour) :
    Keeps s (State.neighboursTick o kind l s) := by
  induction l generalizing s with
  | nil => exact .rfl'
  | cons x rest ih => exact ((s.neighbourTick_keeps o kind x).trans (State.settleAtBlock_keeps _ _)).trans (ih _)

theorem State.stopTimeline_rest (why : StopReason) : KeepsRest s (s.stopTimeline why) :=
  (s.modTimeline_rest _).trans
    (State.allDampers_keeps_of_sublist _ fun d => by rw [Damper.stopped_holds]; exact List.nil_sublist _).toKeepsRest

/-- What a tick expiry does before its end-of-range stop (R5, R9). -/
def State.expire (o : Interleaving) (measured : Option Nat) (s : State) : State :=
  (State.neighboursTick o (s.timeline.tick s.now measured).2 (arrange o.blocks [.shaper, .calendar, .players, .dampers])
    (if (s.timeline.tick s.now measured).2.barLine then
      ({ s with timeline := (s.timeline.tick s.now measured).1 } : State).raiseAll .barLine
    else { s with timeline := (s.timeline.tick s.now measured).1 })).settle

theorem State.tick_eq (o : Interleaving) (measured : Option Nat) : s.tick o measured =
    if maxTick ≤ (s.expire o measured).timeline.position then (s.expire o measured).stopTimeline .rangeEnd
    else s.expire o measured := rfl

theorem State.expire_rest (o : Interleaving) (measured : Option Nat) : KeepsRest s (s.expire o measured) :=
  (((s.withTimeline_rest _).trans (.ite (fun _ => (State.raiseAll_keeps _ _).toKeepsRest) fun _ => .rfl')).trans
    (State.neighboursTick_keeps _ _ _ _).toKeepsRest).trans (State.settle_keeps _).toKeepsRest

theorem State.tick_rest (o : Interleaving) (measured : Option Nat) : KeepsRest s (s.tick o measured) :=
  .ite (fun _ => (s.expire_rest o measured).trans (State.stopTimeline_rest _ _)) fun _ => s.expire_rest o measured

theorem State.catchUp_rest (o : Interleaving) (measured : Option Nat) (n : Nat) :
    KeepsRest s (State.catchUp o measured n s) := by
  induction n generalizing s with
  | zero => exact .rfl'
  | succ n ih =>
    unfold State.catchUp
    exact .ite (fun _ => .rfl') fun _ => (s.tick_rest _ _).trans (ih _)

/-- The tick expiries of a crossing, before the counter starts again (R17, R19). -/
def State.crossed (o : Interleaving) (measured : Option Nat) (s : State) : State :=
  State.catchUp o measured (if s.timeline.state = .held then 1 else 240 - s.timeline.tickInBeat)
    (s.modTimeline (fun t => { t with state := .running, tickDue := none, lossDue := none }))

theorem State.crossBeat_eq (o : Interleaving) (measured : Option Nat) : s.crossBeat o measured =
    if (s.crossed o measured).timeline.state = .running then (s.crossed o measured).startCounter else s.crossed o measured := rfl

theorem State.crossBeat_rest (o : Interleaving) (measured : Option Nat) : KeepsRest s (s.crossBeat o measured) := by
  have h : KeepsRest s (s.crossed o measured) := (s.modTimeline_rest _).trans (State.catchUp_rest _ _ _ _)
  exact .ite (fun _ => h.trans (State.modTimeline_rest _ _)) fun _ => h

theorem State.toInternal_rest (o : Interleaving) : KeepsRest s (s.toInternal o) :=
  .ite (fun _ => (s.modTimeline_rest _).trans (State.crossBeat_rest _ _ _)) fun _ => s.modTimeline_rest _

theorem State.counterTick_rest (o : Interleaving) (due : Nat) : KeepsRest s (s.counterTick o due) :=
  .ite (fun _ => (s.tick_rest _ _).trans (State.modTimeline_rest _ _)) fun _ => s.tick_rest _ _

/-! ## The stage controller -/

/-- What a stage change asks of the state, where it leaves PLAYING or enters a stage: drives, holds and damper lists only in the stage
PLAYING, and the guard and the timers as the stage entered has them. -/
theorem State.withStage_keeps {x : StageControl}
    (hplaying : s.StageSound → s.stage.stage = .playing → x.stage ≠ .playing →
      (∀ n, (s.striker n).state ≠ .drive ∧ (s.striker n).state ≠ .hold) ∧ ∀ u, (s.damper u).holds = [])
    (hguard : s.StageSound → (x.stage = .playing ∨ x.stage = .standby → x.guardClosed = true) ∧
      (x.stage = .guarded → x.guardClosed = false))
    (htimers : s.StageSound → (x.chargeDue.isSome = true → x.stage = .charging) ∧
      (x.dischargeDue.isSome = true → x.stage = .discharging)) : Keeps s { s with stage := x } := by
  refine ⟨⟨id, id, id, id, id, id, fun hs => ?_, le_rfl, rfl⟩, id, id⟩
  have hs' := hs
  obtain ⟨hdrive, hholds, -⟩ := hs'
  refine ⟨fun n hn => ?_, fun u => ⟨(hholds u).1, fun hx => ?_⟩, (hguard hs).1, (hguard hs).2, (htimers hs).1, (htimers hs).2⟩
  · by_contra hx
    obtain ⟨hstill, -⟩ := hplaying hs (hdrive n hn) hx
    exact hn.elim (hstill n).1 (hstill n).2
  · by_cases hp : s.stage.stage = .playing
    · exact (hplaying hs hp hx).2 u
    · exact (hholds u).2 hp

/-- Nothing drives or holds, and no damper is held: what the stage leaving PLAYING leaves (R155). -/
def State.Still (s : State) : Prop :=
  (∀ n, (s.striker n).state ≠ .drive ∧ (s.striker n).state ≠ .hold) ∧ ∀ u, (s.damper u).holds = []

theorem State.cutEntry_calendarKept (k : SlotId) : CalendarKept s (s.cutEntry k) := by
  unfold State.cutEntry
  repeat' split
  · exact .rfl'
  · exact (s.modEntry_calendarKept _ _).trans (State.leave_calendarKept _ _ _)
  · exact s.modEntry_calendarKept _ _
  · exact s.leave_calendarKept _ _

theorem State.dropOrCut_calendarKept (before : State) (l : List SlotId) : CalendarKept s (State.dropOrCut before l s) := by
  induction l generalizing s with
  | nil => exact .rfl'
  | cons k rest ih =>
    unfold State.dropOrCut
    refine .trans ?_ (ih _)
    repeat' split
    · exact s.leave_calendarKept _ _
    · exact s.cutEntry_calendarKept _
    · exact .rfl'
    · exact .rfl'
    · exact .rfl'

theorem State.leavePlaying_still : s.leavePlaying.Still := by
  refine ⟨fun n => ?_, fun u => ?_⟩
  · have hn : s.leavePlaying.striker n = (s.striker n).cut s.now := by
      refine ((State.dropOrCut_calendarKept _ s _).striker n).trans ?_
      exact Bank.look_mapWith _ _ _
    rw [hn]
    exact Striker.cut_idle _ _
  · have hu : s.leavePlaying.damper u = (Damper.springReturn s.now) ((State.dropOrCut s (s.entries.map (·.slot))
        { s with strikers := s.strikers.mapWith (fun _ k => k.cut s.now) }).damper u) := Bank.look_mapWith _ _ _
    rw [hu, Damper.springReturn_holds]

/-- Outside PLAYING a sound state is still. -/
theorem State.still_of_not_playing {s : State} (hs : s.StageSound) (h : s.stage.stage ≠ .playing) : s.Still := by
  obtain ⟨hdrive, hholds, -⟩ := hs
  exact ⟨fun n => ⟨fun hn => h (hdrive n (.inl hn)), fun hn => h (hdrive n (.inr hn))⟩, fun u => (hholds u).2 h⟩

end

end Sys2Proof.Machine
end

section
/-! SUPPORT. The stage controller, the ports and the power events keep the invariants, and so does every request's body. -/
namespace Sys2Proof.Machine

/-! ## The stage controller -/

/-- The invariants of the blocks but the stage controller, as `Keeps` has them, and the timeline as it was. -/
structure KeepsBlocks (s t : State) : Prop where
  memory : s.MemorySound → t.MemorySound
  calendar : s.CalendarSound → t.CalendarSound
  ordered : s.CalendarOrdered → t.CalendarOrdered
  curves : s.CurvesSound → t.CurvesSound
  chime : s.ChimeSound → t.ChimeSound
  rails : s.RailsSound → t.RailsSound
  now : s.now ≤ t.now
  pending : t.pending = s.pending
  timeline : t.timeline = s.timeline

theorem Keeps.blocks {s t : State} (h : Keeps s t) (htimeline : t.timeline = s.timeline) : KeepsBlocks s t :=
  ⟨h.memory, h.calendar, h.ordered, h.curves, h.chime, h.rails, h.now, h.pending, htimeline⟩

theorem KeepsBlocks.keeps {s t : State} (h : KeepsBlocks s t) (hstage : s.StageSound → t.StageSound) : Keeps s t :=
  KeepsRest.keeps ⟨h.memory, h.calendar, h.ordered, h.curves, h.chime, h.rails, hstage, h.now, h.pending⟩ h.timeline

theorem KeepsBlocks.trans {s t u : State} (h : KeepsBlocks s t) (g : KeepsBlocks t u) : KeepsBlocks s u :=
  ⟨g.memory ∘ h.memory, g.calendar ∘ h.calendar, g.ordered ∘ h.ordered, g.curves ∘ h.curves, g.chime ∘ h.chime,
    g.rails ∘ h.rails, h.now.trans g.now, g.pending.trans h.pending, g.timeline.trans h.timeline⟩

theorem State.modStage_blocks (s : State) (f : StageControl → StageControl) : KeepsBlocks s (s.modStage f) :=
  ⟨id, id, id, id, id, id, le_rfl, rfl, rfl⟩

section
variable {s : State}

theorem State.StageSound.chargeDue_none (hs : s.StageSound) (h : s.stage.stage ≠ .charging) : s.stage.chargeDue = none := by
  obtain ⟨-, -, -, -, hcharge, -⟩ := hs
  rw [← Option.not_isSome_iff_eq_none]
  exact fun hdue => h (hcharge hdue)

theorem State.StageSound.dischargeDue_none (hs : s.StageSound) (h : s.stage.stage ≠ .discharging) :
    s.stage.dischargeDue = none := by
  obtain ⟨-, -, -, -, -, hdischarge⟩ := hs
  rw [← Option.not_isSome_iff_eq_none]
  exact fun hdue => h (hdischarge hdue)

theorem State.StageSound.guard_closed (hs : s.StageSound) (h : s.stage.stage = .playing ∨ s.stage.stage = .standby) :
    s.stage.guardClosed = true := by
  obtain ⟨-, -, hclosed, -⟩ := hs
  exact hclosed h

theorem State.StageSound.guard_open (hs : s.StageSound) (h : s.stage.stage = .guarded) : s.stage.guardClosed = false := by
  obtain ⟨-, -, -, hopen, -⟩ := hs
  exact hopen h

end

section
variable (s : State)

/-- What the entry into a stage asks of the state: nothing drives or is held, no timer of the stage controller runs, and the guard
state is the one that the stage has. -/
structure State.Enters (g : Stage) (s : State) : Prop where
  still : s.Still
  charge : s.stage.chargeDue = none
  discharge : s.stage.dischargeDue = none
  closed : g = .playing ∨ g = .standby → s.stage.guardClosed = true
  opened : g = .guarded → s.stage.guardClosed = false

theorem State.Enters.sound {s : State} {g : Stage} (h : s.Enters g) : (s.enterStage g).StageSound := by
  obtain ⟨hstrikers, hholds⟩ := h.still
  refine ⟨fun n hn => absurd hn (not_or.2 (hstrikers n)), fun u => ?_, h.closed, h.opened, fun hdue => ?_, fun hdue => ?_⟩
  · change (s.damper u).holds.length ≤ 16 ∧ (g ≠ .playing → (s.damper u).holds = [])
    rw [hholds u]
    exact ⟨by simp, fun _ => rfl⟩
  · change s.stage.chargeDue.isSome = true at hdue
    simp [h.charge] at hdue
  · change s.stage.dischargeDue.isSome = true at hdue
    simp [h.discharge] at hdue

/-- The invariants but for the stage's own are kept by any change of the stage controller. -/
theorem State.enterStage_keeps {r : State} (g : Stage) (h : KeepsBlocks r s) (henters : r.StageSound → s.Enters g) :
    Keeps r (s.enterStage g) :=
  (h.trans ((s.modStage_blocks _).trans ((State.raiseAll_keeps _ _).blocks rfl))).keeps fun hr => (henters hr).sound

/-- The stage controller changed but for its stage and its guard state, its timers only cleared. -/
theorem State.modStage_keeps {f : StageControl → StageControl} (hstage : (f s.stage).stage = s.stage.stage)
    (hguard : (f s.stage).guardClosed = s.stage.guardClosed)
    (hcharge : (f s.stage).chargeDue.isSome = true → s.stage.chargeDue.isSome = true)
    (hdischarge : (f s.stage).dischargeDue.isSome = true → s.stage.dischargeDue.isSome = true) : Keeps s (s.modStage f) := by
  refine s.withStage_keeps (x := f s.stage) (fun _ hp hx => absurd (hstage.trans hp) hx) (fun hs => ?_) (fun hs => ?_)
  all_goals obtain ⟨-, -, hclosed, hopen, hc, hd⟩ := hs; rw [hstage]
  · rw [hguard]
    exact ⟨hclosed, hopen⟩
  · exact ⟨fun h => hc (hcharge h), fun h => hd (hdischarge h)⟩

/-- A charge is begun from DORMANT (R150). -/
theorem State.startCharge_keeps (target : ChainTarget) (hdormant : s.stage.stage = .dormant) : Keeps s (s.startCharge target) := by
  have hrails := s.fittedRails_keeps (f := fun r => { r with state := .charging, settleSince := none }) fun _ => ⟨rfl, rfl⟩
  refine hrails.trans (State.withStage_keeps _ (x := { s.stage with
    stage := .charging, target := some target, chargeDue := some (s.now + s.stage.timeoutMs * 1000) })
    (fun _ hp => ?_) (fun _ => ⟨by simp, by simp⟩) fun hs => ⟨by simp, fun hdue => ?_⟩)
  · exact absurd (hdormant.symm.trans hp) (by simp)
  · have hnone := hs.dischargeDue_none (by simp [State.fittedRails, hdormant])
    rw [show s.stage.dischargeDue = none from hnone] at hdue
    cases hdue

/-- A charge completes in CHARGING (R151, R152). -/
theorem State.chargeComplete_keeps (hcharging : s.stage.stage = .charging) : Keeps s s.chargeComplete := by
  have hrails := s.fittedRails_keeps (f := fun r => { r with state := .up, settleSince := none }) fun _ => ⟨rfl, rfl⟩
  have hclear := hrails.trans (State.modStage_keeps _ (f := fun c => { c with target := none, chargeDue := none }) rfl rfl
    (by simp) id)
  refine State.enterStage_keeps _ _ (hclear.blocks rfl) fun hs => ?_
  have hs' := hclear.stage hs
  refine ⟨State.still_of_not_playing hs' ?_, rfl, hs'.dischargeDue_none ?_, fun hg => ?_, fun hg => ?_⟩
  · exact fun hp => absurd (hcharging.symm.trans hp) (by simp)
  · exact fun hp => absurd (hcharging.symm.trans hp) (by simp)
  · by_contra hguard
    have hopen : s.stage.guardClosed = false := Bool.eq_false_iff.2 hguard
    simp [hopen] at hg
  · by_contra hguard
    have hclosed : s.stage.guardClosed = true := by simpa using hguard
    rw [hclosed] at hg
    cases htarget : s.stage.target with
    | none => simp [htarget] at hg
    | some g => cases g <;> simp [htarget] at hg

/-- The state from which a stage other than PLAYING is entered: PLAYING has been left (R155). -/
def State.left (s : State) : State := if s.stage.stage = .playing then s.leavePlaying else s

theorem State.left_keeps : Keeps s s.left := .ite (fun _ => s.leavePlaying_keeps) fun _ => .rfl'

theorem State.left_kept : Kept s s.left := .ite s.leavePlaying_kept .rfl'

theorem State.left_still (hs : s.StageSound) : s.left.Still := by
  unfold State.left
  split
  · exact s.leavePlaying_still
  · exact State.still_of_not_playing hs ‹_›

/-- The state in which FAULT is entered: PLAYING left, the rails off, the chain ended (R159). -/
def State.faulted (cause : FaultCause) (s : State) : State :=
  (s.left.fittedRails (fun r => { r with state := if r.state = .fault then .fault else .off })).modStage
    (fun c => { c with target := none, chargeDue := none, cause := cause })

theorem State.enterFault_eq (cause : FaultCause) : s.enterFault cause = (s.faulted cause).enterStage .fault := rfl

theorem State.faulted_keeps (cause : FaultCause) : Keeps s (s.faulted cause) :=
  (s.left_keeps.trans (State.fittedRails_keeps _ (f := fun r => { r with state := if r.state = .fault then .fault else .off })
    fun _ => ⟨rfl, rfl⟩)).trans
    (State.modStage_keeps _ (f := fun c => { c with target := none, chargeDue := none, cause := cause }) rfl rfl (by simp) id)

/-- FAULT is entered from another stage than DISCHARGING (R159). -/
theorem State.enterFault_keeps (cause : FaultCause) (hstage : s.StageSound → s.stage.stage ≠ .discharging) :
    Keeps s (s.enterFault cause) := by
  rw [State.enterFault_eq]
  refine State.enterStage_keeps _ _ ((s.faulted_keeps cause).blocks s.left_kept.timeline) fun hs => ⟨s.left_still hs, rfl, ?_, by simp, by simp⟩
  exact (congrArg StageControl.dischargeDue s.left_kept.stage).trans (hs.dischargeDue_none (hstage hs))

theorem State.startDischarge_eq : s.startDischarge =
    (s.left.fittedRails (fun r => { r with state := .off, settleSince := none, bled := false })).modStage (fun c => { c with
      stage := .discharging, target := none, chargeDue := none, dischargeDue := some (s.left.now + 5000000) }) := rfl

/-- DISCHARGING is entered (R156). -/
theorem State.startDischarge_keeps : Keeps s s.startDischarge := by
  have hrails := s.left_keeps.trans
    (State.fittedRails_keeps _ (f := fun r => { r with state := .off, settleSince := none, bled := false }) fun _ => ⟨rfl, rfl⟩)
  rw [State.startDischarge_eq]
  refine ((hrails.blocks s.left_kept.timeline).trans (State.modStage_blocks _ _)).keeps fun hs => ?_
  obtain ⟨hstrikers, hholds⟩ := s.left_still hs
  refine ⟨fun n hn => absurd hn (not_or.2 (hstrikers n)), fun u => ?_, by simp [State.modStage], by simp [State.modStage],
    by simp [State.modStage], fun _ => rfl⟩
  change (s.left.damper u).holds.length ≤ 16 ∧ (_ → (s.left.damper u).holds = [])
  rw [hholds u]
  exact ⟨by simp, fun _ => rfl⟩

theorem State.dischargeComplete_keeps (hstage : s.StageSound → s.stage.stage = .discharging) : Keeps s s.dischargeComplete := by
  refine State.enterStage_keeps _ _ (s.modStage_blocks _) fun hs => ?_
  have hstill : s.Still := State.still_of_not_playing hs (by simp [hstage hs])
  exact ⟨hstill, hs.chargeDue_none (by simp [hstage hs]), rfl, by simp, by simp⟩

theorem State.chargeFailed_keeps (hstage : s.StageSound → s.stage.stage = .charging) : Keeps s s.chargeFailed := by
  have hrails := s.fittedRails_keeps
    (f := fun r => if r.settled s.now s.stage.settleMs then r else { r with state := .fault }) fun x => by split <;> exact ⟨rfl, rfl⟩
  refine hrails.trans (State.enterFault_keeps _ _ fun hs hd => ?_)
  exact absurd ((hstage hs).symm.trans hd) (by simp)

end

end Sys2Proof.Machine
end

section
/-! SUPPORT. The timeline's invariants: what a tick's own update leaves of the timeline, a tick expiry's whole effect on it, and the
operations that keep its consistency and the lead ticks. -/
namespace Sys2Proof.Machine

/-! ## The timeline's invariants, of a timeline alone -/

/-- The ranges of the meter and the beat, and that a ramp runs only in INTERNAL mode (R5, R8, R15). -/
structure Timeline.Ranges (t : Timeline) : Prop where
  meter_pos : 1 ≤ t.beatsPerBar
  meter_le : t.beatsPerBar ≤ 16
  beat_lt : t.beatInBar < t.beatsPerBar
  pendingMeter : ∀ m, t.pendingMeter = some m → 1 ≤ m ∧ m ≤ 16
  ramp : t.source = .sync → t.ramp = none

/-- The timeline's consistency, of a timeline alone. -/
structure Timeline.Sound (t : Timeline) : Prop extends Timeline.Ranges t where
  position_le : t.position ≤ maxTick
  position_lt : t.state ≠ .stopped → t.position < maxTick
  held : t.state = .held → t.source = .sync ∧ t.position % 240 = 239
  running_iff : t.state = .running ↔ t.tickDue.isSome = true
  held_iff : t.state = .held ↔ t.lossDue.isSome = true
  stopped : t.state = .stopped → t.pendingPeriod = none

theorem State.timelineSound_iff {s : State} : s.TimelineSound ↔ s.timeline.Sound := by
  constructor
  · rintro ⟨hle, hlt, hpos, hmeter, hbeat, hpending, hramp, hheld, hrunning, hloss, hstopped⟩
    exact ⟨⟨hpos, hmeter, hbeat, hpending, hramp⟩, hle, hlt, hheld, hrunning, hloss, hstopped⟩
  · rintro ⟨⟨hpos, hmeter, hbeat, hpending, hramp⟩, hle, hlt, hheld, hrunning, hloss, hstopped⟩
    exact ⟨hle, hlt, hpos, hmeter, hbeat, hpending, hramp, hheld, hrunning, hloss, hstopped⟩

/-- The lead ticks are those of the period in force, of a timeline alone (R23). -/
def Timeline.Leads (t : Timeline) : Prop := ∀ c, (t.times c).leadTicks = leadTicksOf (t.times c).lead t.period

theorem State.leadsSound_iff {s : State} : s.LeadsSound ↔ s.timeline.Leads := Iff.rfl

/-- A period adopted recomputes the lead ticks (R23). -/
theorem Timeline.adopt_leads (p : Nat) (t : Timeline) : (t.adopt p).Leads := by
  intro c
  cases c <;> rfl

/-- The lead ticks follow the period and the classes' times alone. -/
theorem Timeline.Leads.of_eq {t u : Timeline} (h : t.Leads) (hperiod : u.period = t.period) (hmarimba : u.marimba = t.marimba)
    (hvibes : u.vibes = t.vibes) (hperc : u.perc = t.perc) : u.Leads := by
  intro c
  rw [hperiod]
  cases c
  · simpa only [Timeline.times, hmarimba] using h .marimba
  · simpa only [Timeline.times, hvibes] using h .vibes
  · simpa only [Timeline.times, hperc] using h .perc

/-! ## A pending period and a ramp's step -/

section
variable (t : Timeline)

/-- A pending period adopted changes the period with the lead ticks, and nothing else (R4). -/
theorem Timeline.adoptPending_frame : t.adoptPending = { t with
    period := t.adoptPending.period, marimba := t.adoptPending.marimba, vibes := t.adoptPending.vibes
    perc := t.adoptPending.perc, pendingPeriod := none } := by
  unfold Timeline.adoptPending
  split
  · rfl
  · rename_i hnone
    rw [← hnone]

theorem Timeline.adoptPending_leads (h : t.Leads) : t.adoptPending.Leads := by
  unfold Timeline.adoptPending
  split
  · exact (t.adopt_leads _).of_eq rfl rfl rfl rfl
  · exact h

@[simp] theorem Timeline.adoptPending_state : t.adoptPending.state = t.state := by rw [adoptPending_frame]
@[simp] theorem Timeline.adoptPending_position : t.adoptPending.position = t.position := by rw [adoptPending_frame]
@[simp] theorem Timeline.adoptPending_beatInBar : t.adoptPending.beatInBar = t.beatInBar := by rw [adoptPending_frame]
@[simp] theorem Timeline.adoptPending_beatsPerBar : t.adoptPending.beatsPerBar = t.beatsPerBar := by rw [adoptPending_frame]
@[simp] theorem Timeline.adoptPending_pendingMeter : t.adoptPending.pendingMeter = t.pendingMeter := by rw [adoptPending_frame]
@[simp] theorem Timeline.adoptPending_source : t.adoptPending.source = t.source := by rw [adoptPending_frame]
@[simp] theorem Timeline.adoptPending_ramp : t.adoptPending.ramp = t.ramp := by rw [adoptPending_frame]
@[simp] theorem Timeline.adoptPending_tickDue : t.adoptPending.tickDue = t.tickDue := by rw [adoptPending_frame]
@[simp] theorem Timeline.adoptPending_lossDue : t.adoptPending.lossDue = t.lossDue := by rw [adoptPending_frame]
@[simp] theorem Timeline.adoptPending_pendingPeriod : t.adoptPending.pendingPeriod = none := by rw [adoptPending_frame]

/-- A ramp's step changes the tempo, the period with the lead ticks, and the ramp, and nothing else (R11). -/
theorem Timeline.rampStep_frame : t.rampStep = { t with
    tempo := t.rampStep.tempo, period := t.rampStep.period, marimba := t.rampStep.marimba, vibes := t.rampStep.vibes
    perc := t.rampStep.perc, ramp := t.rampStep.ramp } := by
  unfold Timeline.rampStep
  split <;> rfl

theorem Timeline.rampStep_leads (h : t.Leads) : t.rampStep.Leads := by
  unfold Timeline.rampStep
  split
  · exact h
  · exact (t.adopt_leads _).of_eq rfl rfl rfl rfl

theorem Timeline.rampStep_ramp_none (h : t.ramp = none) : t.rampStep.ramp = none := by simp [Timeline.rampStep, h]

/-! ## The timeline's own part of a tick expiry -/

/-- A tick's own update that is no beat boundary: a pending period is adopted and the position advances. -/
def Timeline.advanced (t : Timeline) : Timeline := { t.adoptPending with position := t.position + 1 }

/-- The beat boundary of a tick's own update: the ramp's step, the SYNC_OUT pulse and a measured period (R11, R17, R20). -/
def Timeline.onBeat (now : Nat) (measured : Option Nat) (t : Timeline) : Timeline :=
  let t := { t.rampStep with syncOutEnd := some (now + 1000) }
  match measured with
  | some p => t.adopt p
  | none => t

theorem Timeline.tick_eq (now : Nat) (measured : Option Nat) : t.tick now measured =
    if t.advanced.tickInBeat ≠ 0 then (t.advanced, { beat := false, barLine := false })
    else if (t.advanced.onBeat now measured).beatInBar + 1 < (t.advanced.onBeat now measured).beatsPerBar then
      ({ t.advanced.onBeat now measured with beatInBar := (t.advanced.onBeat now measured).beatInBar + 1 },
        { beat := true, barLine := false })
    else ((t.advanced.onBeat now measured).barLine, { beat := true, barLine := true }) := by
  simp only [Timeline.tick, Timeline.advanced, Timeline.onBeat, Timeline.adoptPending_position]
  rfl

/-- A beat boundary changes the tempo, the period with the lead ticks, the ramp and the pulse's end, and nothing else. -/
theorem Timeline.onBeat_frame (now : Nat) (measured : Option Nat) : t.onBeat now measured = { t with
    tempo := (t.onBeat now measured).tempo, period := (t.onBeat now measured).period
    marimba := (t.onBeat now measured).marimba, vibes := (t.onBeat now measured).vibes
    perc := (t.onBeat now measured).perc, ramp := (t.onBeat now measured).ramp
    syncOutEnd := (t.onBeat now measured).syncOutEnd } := by
  unfold Timeline.onBeat
  rw [Timeline.rampStep_frame]
  cases measured <;> rfl

theorem Timeline.onBeat_leads (now : Nat) (measured : Option Nat) (h : t.Leads) : (t.onBeat now measured).Leads := by
  unfold Timeline.onBeat
  cases measured with
  | none => exact (t.rampStep_leads h).of_eq rfl rfl rfl rfl
  | some p => exact Timeline.adopt_leads _ _

theorem Timeline.onBeat_ramp_none (now : Nat) (measured : Option Nat) (h : t.ramp = none) :
    (t.onBeat now measured).ramp = none := by
  unfold Timeline.onBeat
  cases measured <;> exact t.rampStep_ramp_none h

/-- What a tick's own update leaves of the timeline (R5): the position advances; the meter and the beat change at a beat boundary. -/
theorem Timeline.tick_frame (now : Nat) (measured : Option Nat) :
    (t.tick now measured).1.state = t.state ∧ (t.tick now measured).1.position = t.position + 1 ∧
    (t.tick now measured).1.source = t.source ∧ (t.tick now measured).1.tickDue = t.tickDue ∧
    (t.tick now measured).1.lossDue = t.lossDue ∧ (t.tick now measured).1.pendingPeriod = none := by
  rw [Timeline.tick_eq]
  split
  · simp [Timeline.advanced]
  · split
    · rw [Timeline.onBeat_frame]
      simp [Timeline.advanced]
    · rw [Timeline.onBeat_frame]
      simp [Timeline.advanced, Timeline.barLine]

theorem Timeline.advanced_ranges (h : t.Ranges) : t.advanced.Ranges := by
  obtain ⟨hpos, hmeter, hbeat, hpending, hramp⟩ := h
  refine ⟨?_, ?_, ?_, ?_, ?_⟩ <;> simp only [Timeline.advanced, Timeline.adoptPending_beatsPerBar,
    Timeline.adoptPending_beatInBar, Timeline.adoptPending_pendingMeter, Timeline.adoptPending_source,
    Timeline.adoptPending_ramp]
  all_goals assumption

theorem Timeline.onBeat_ranges (now : Nat) (measured : Option Nat) (h : t.Ranges) : (t.onBeat now measured).Ranges := by
  have hnone := t.onBeat_ramp_none now measured
  rw [Timeline.onBeat_frame]
  obtain ⟨hpos, hmeter, hbeat, hpending, hramp⟩ := h
  exact ⟨hpos, hmeter, hbeat, hpending, fun hsync => hnone (hramp hsync)⟩

theorem Timeline.barLine_ranges (h : t.Ranges) : t.barLine.Ranges := by
  obtain ⟨hpos, hmeter, hbeat, hpending, hramp⟩ := h
  have hnew : 1 ≤ t.pendingMeter.getD t.beatsPerBar ∧ t.pendingMeter.getD t.beatsPerBar ≤ 16 := by
    cases hp : t.pendingMeter with
    | none => exact ⟨hpos, hmeter⟩
    | some m => exact hpending m hp
  exact ⟨hnew.1, hnew.2, hnew.1, by simp [Timeline.barLine], hramp⟩

theorem Timeline.tick_ranges (now : Nat) (measured : Option Nat) (h : t.Ranges) : (t.tick now measured).1.Ranges := by
  have hbeat := t.advanced.onBeat_ranges now measured (t.advanced_ranges h)
  rw [Timeline.tick_eq]
  split
  · exact t.advanced_ranges h
  · split
    · exact ⟨hbeat.meter_pos, hbeat.meter_le, ‹_›, hbeat.pendingMeter, hbeat.ramp⟩
    · exact Timeline.barLine_ranges _ hbeat

theorem Timeline.tick_leads (now : Nat) (measured : Option Nat) (h : t.Leads) : (t.tick now measured).1.Leads := by
  have hadvanced : t.advanced.Leads := (t.adoptPending_leads h).of_eq rfl rfl rfl rfl
  have hbeat := t.advanced.onBeat_leads now measured hadvanced
  rw [Timeline.tick_eq]
  split
  · exact hadvanced
  · split
    · exact hbeat.of_eq rfl rfl rfl rfl
    · exact hbeat.of_eq rfl rfl rfl rfl

/-! ## The stop -/

/-- A timeline stopped (R13). -/
def Timeline.stop (why : StopReason) (t : Timeline) : Timeline :=
  { t.adoptPending with state := .stopped, stopReason := why, tickDue := none, lossDue := none, lastPulse := none }

theorem Timeline.stop_sound (why : StopReason) (h : t.Ranges) (hle : t.position ≤ maxTick) : (t.stop why).Sound := by
  obtain ⟨hpos, hmeter, hbeat, hpending, hramp⟩ := h
  refine ⟨⟨?_, ?_, ?_, ?_, ?_⟩, ?_, ?_, ?_, ?_, ?_, ?_⟩ <;> simp [Timeline.stop] <;> assumption

theorem Timeline.stop_leads (why : StopReason) (h : t.Leads) : (t.stop why).Leads :=
  (t.adoptPending_leads h).of_eq rfl rfl rfl rfl

/-- A timeline after a tick expiry: its own update, and the stop at the end of the range (R5, R13). -/
def Timeline.expired (now : Nat) (measured : Option Nat) (t : Timeline) : Timeline :=
  if maxTick ≤ (t.tick now measured).1.position then (t.tick now measured).1.stop .rangeEnd else (t.tick now measured).1

theorem Timeline.expired_leads (now : Nat) (measured : Option Nat) (h : t.Leads) : (t.expired now measured).Leads := by
  unfold Timeline.expired
  split
  · exact Timeline.stop_leads _ _ (t.tick_leads now measured h)
  · exact t.tick_leads now measured h

end

/-! ## A tick expiry, as the timeline has it -/

section
variable (s : State)

theorem State.neighbourTick_timeline (o : Interleaving) (kind : TickKind) (x : Neighbour) :
    (s.neighbourTick o kind x).timeline = s.timeline := by
  cases x with
  | shaper =>
    unfold State.neighbourTick
    dsimp only
    split <;> rfl
  | calendar => exact (s.releaseAll_kept _ _).timeline
  | players => exact (s.playersTick_kept _ _).timeline
  | dampers => rfl

theorem State.neighboursTick_timeline (o : Interleaving) (kind : TickKind) (l : List Neighbour) :
    (State.neighboursTick o kind l s).timeline = s.timeline := by
  induction l generalizing s with
  | nil => rfl
  | cons x rest ih =>
    exact (ih _).trans ((State.settleAtBlock_kept _ o).timeline.trans (s.neighbourTick_timeline o kind x))

theorem State.expire_timeline (o : Interleaving) (measured : Option Nat) :
    (s.expire o measured).timeline = (s.timeline.tick s.now measured).1 := by
  unfold State.expire
  rw [(State.settle_kept _).timeline, State.neighboursTick_timeline]
  split <;> rfl

theorem State.tick_timeline (o : Interleaving) (measured : Option Nat) :
    (s.tick o measured).timeline = s.timeline.expired s.now measured := by
  rw [State.tick_eq, State.expire_timeline, Timeline.expired]
  split
  · rw [← State.expire_timeline s o measured]
    rfl
  · exact s.expire_timeline o measured

/-! ## Crossing a beat boundary -/

/-- A timeline that runs with no timer, between two ticks taken at one instant, or that the end of the range has stopped. -/
def Timeline.Crossing (t : Timeline) : Prop :=
  (t.state = .running ∧ t.tickDue = none ∧ t.lossDue = none ∧ t.position < maxTick ∧ t.Ranges) ∨
    (t.state = .stopped ∧ t.Sound)

theorem Timeline.Crossing.expired {t : Timeline} (now : Nat) (measured : Option Nat) (h : t.Crossing)
    (hrunning : t.state ≠ .stopped) : (t.expired now measured).Crossing := by
  obtain ⟨hstate, htick, hloss, hlt, hranges⟩ | ⟨hstopped, -⟩ := h
  · obtain ⟨fstate, fposition, -, ftick, floss, -⟩ := t.tick_frame now measured
    unfold Timeline.expired
    split
    · exact .inr ⟨rfl, Timeline.stop_sound _ _ (t.tick_ranges now measured hranges) (by omega)⟩
    · exact .inl ⟨fstate.trans hstate, ftick.trans htick, floss.trans hloss, by omega, t.tick_ranges now measured hranges⟩
  · exact absurd hstopped hrunning

theorem State.catchUp_crossing (o : Interleaving) (measured : Option Nat) (n : Nat) (h : s.timeline.Crossing) :
    (State.catchUp o measured n s).timeline.Crossing := by
  induction n generalizing s with
  | zero => exact h
  | succ n ih =>
    unfold State.catchUp
    split
    · exact h
    · refine ih _ ?_
      rw [State.tick_timeline]
      exact h.expired _ _ ‹_›

theorem State.catchUp_leads (o : Interleaving) (measured : Option Nat) (n : Nat) (h : s.timeline.Leads) :
    (State.catchUp o measured n s).timeline.Leads := by
  induction n generalizing s with
  | zero => exact h
  | succ n ih =>
    unfold State.catchUp
    split
    · exact h
    · refine ih _ ?_
      rw [State.tick_timeline]
      exact Timeline.expired_leads _ _ _ h

/-- A timeline within its ranges and below the end, as a crossing sets it running. -/
theorem Timeline.Ranges.crossing {t : Timeline} (h : t.Ranges) (hlt : t.position < maxTick) :
    ({ t with state := .running, tickDue := none, lossDue := none } : Timeline).Crossing :=
  .inl ⟨rfl, rfl, rfl, hlt, ⟨h.meter_pos, h.meter_le, h.beat_lt, h.pendingMeter, h.ramp⟩⟩

/-- After its last tick a crossing that was not stopped starts the counter with a full period (R2, R17). -/
theorem Timeline.Crossing.started {s : State} (h : s.timeline.Crossing) (hrunning : s.timeline.state = .running) :
    s.startCounter.timeline.Sound := by
  obtain ⟨-, -, hloss, hlt, hr⟩ | ⟨hstopped, -⟩ := h
  · exact ⟨⟨hr.meter_pos, hr.meter_le, hr.beat_lt, hr.pendingMeter, hr.ramp⟩, hlt.le, fun _ => hlt,
      by simp [State.startCounter, State.modTimeline, hrunning], by simp [State.startCounter, State.modTimeline, hrunning],
      by simp [State.startCounter, State.modTimeline, hrunning, hloss],
      by simp [State.startCounter, State.modTimeline, hrunning]⟩
  · exact absurd (hrunning.symm.trans hstopped) (by simp)

/-- A crossing from a timeline within its ranges and below the end leaves it consistent (R15, R17, R19). -/
theorem State.crossBeat_sound (o : Interleaving) (measured : Option Nat) (hranges : s.timeline.Ranges)
    (hlt : s.timeline.position < maxTick) : (s.crossBeat o measured).timeline.Sound := by
  have hcross : (s.crossed o measured).timeline.Crossing := State.catchUp_crossing _ o measured _ (hranges.crossing hlt)
  rw [State.crossBeat_eq]
  split
  · exact hcross.started ‹_›
  · obtain ⟨hrunning, -⟩ | ⟨-, hsound⟩ := hcross
    · exact absurd hrunning ‹_›
    · exact hsound

theorem State.crossBeat_leads (o : Interleaving) (measured : Option Nat) (h : s.timeline.Leads) :
    (s.crossBeat o measured).timeline.Leads := by
  have hcaught : (s.crossed o measured).timeline.Leads :=
    State.catchUp_leads (s.modTimeline _) o measured _ (h.of_eq rfl rfl rfl rfl)
  rw [State.crossBeat_eq]
  split
  · exact hcaught.of_eq rfl rfl rfl rfl
  · exact hcaught

/-! ## The operations that keep the timeline's invariants -/

/-- A change of the timeline alone that keeps its invariants. -/
theorem State.modTimeline_keeps {f : Timeline → Timeline} (hsound : s.timeline.Sound → (f s.timeline).Sound)
    (hleads : s.timeline.Leads → (f s.timeline).Leads) : Keeps s (s.modTimeline f) :=
  ⟨s.modTimeline_rest f, fun hs => State.timelineSound_iff.2 (hsound (State.timelineSound_iff.1 hs)), hleads⟩

theorem State.stopTimeline_keeps (why : StopReason) : Keeps s (s.stopTimeline why) :=
  ⟨s.stopTimeline_rest why,
    fun hs => State.timelineSound_iff.2 (Timeline.stop_sound _ why (State.timelineSound_iff.1 hs).toRanges
      (State.timelineSound_iff.1 hs).position_le),
    fun hs => Timeline.stop_leads _ why hs⟩

/-- The loss of sync, and SOURCE INTERNAL, in a consistent timeline (R15, R19). -/
theorem Timeline.toInternal_ranges {t : Timeline} (h : t.Ranges) : t.toInternal.Ranges :=
  ⟨h.meter_pos, h.meter_le, h.beat_lt, h.pendingMeter, by simp [Timeline.toInternal]⟩

theorem State.toInternal_keeps (o : Interleaving) : Keeps s (s.toInternal o) := by
  refine ⟨s.toInternal_rest o, fun hs => ?_, fun hs => ?_⟩
  · have hsound := State.timelineSound_iff.1 hs
    rw [State.timelineSound_iff]
    unfold State.toInternal
    dsimp only
    split
    case isTrue hheld =>
      exact State.crossBeat_sound _ o none (Timeline.toInternal_ranges hsound.toRanges)
        (hsound.position_lt fun hstopped => absurd ((show s.timeline.state = .held from hheld).symm.trans hstopped) (by simp))
    case isFalse hheld =>
      obtain ⟨hranges, hle, hlt, -, hrunning, hloss, hstopped⟩ := hsound
      exact ⟨Timeline.toInternal_ranges hranges, hle, hlt, fun h => absurd h hheld, hrunning, hloss, hstopped⟩
  · have hleads : s.timeline.toInternal.Leads := Timeline.Leads.of_eq (t := s.timeline) hs rfl rfl rfl rfl
    unfold State.toInternal
    dsimp only
    split
    · exact State.crossBeat_leads _ o none hleads
    · exact hleads

/-- A pulse noted on a timeline that is not STOPPED makes it cross (R17). -/
theorem State.crossNoted_keeps (o : Interleaving) (measured : Option Nat) {f : Timeline → Timeline}
    (hranges : s.timeline.Ranges → (f s.timeline).Ranges) (hposition : (f s.timeline).position = s.timeline.position)
    (hleads : s.timeline.Leads → (f s.timeline).Leads) (hrunning : s.timeline.state ≠ .stopped) :
    Keeps s ((s.modTimeline f).crossBeat o measured) := by
  refine ⟨(s.modTimeline_rest f).trans (State.crossBeat_rest _ _ _), fun hs => ?_, fun hs => ?_⟩
  · have hsound := State.timelineSound_iff.1 hs
    exact State.timelineSound_iff.2 (State.crossBeat_sound _ o measured (hranges hsound.toRanges)
      (hposition.trans_lt (hsound.position_lt hrunning)))
  · exact State.crossBeat_leads _ o measured (hleads hs)

theorem State.syncPulse_keeps (o : Interleaving) : Keeps s (s.syncPulse o) := by
  unfold State.syncPulse
  split
  · exact .rfl'
  · rename_i hgo
    simp only [Bool.or_eq_true, decide_eq_true_eq, not_or] at hgo
    split
    · exact s.crossNoted_keeps o _ (fun h => ⟨h.meter_pos, h.meter_le, h.beat_lt, h.pendingMeter, h.ramp⟩) rfl
        (fun h => h.of_eq rfl rfl rfl rfl) hgo.2
    · exact .ite (fun _ => .rfl') fun _ =>
        s.crossNoted_keeps o _ (fun h => ⟨h.meter_pos, h.meter_le, h.beat_lt, h.pendingMeter, h.ramp⟩) rfl
          (fun h => h.of_eq rfl rfl rfl rfl) hgo.2

/-- The counter's expiry of a RUNNING timeline (R2, R5). -/
theorem State.counterTick_keeps (o : Interleaving) (due : Nat) (hdue : s.timeline.tickDue.isSome = true) :
    Keeps s (s.counterTick o due) := by
  refine ⟨s.counterTick_rest o due, fun hs => ?_, fun hs => ?_⟩
  · obtain ⟨hranges, -, hlt, -, hrunning, hloss, -⟩ := State.timelineSound_iff.1 hs
    have hstate := hrunning.2 hdue
    have hbelow : s.timeline.position < maxTick := hlt (by simp [hstate])
    have hnoloss : s.timeline.lossDue = none := by
      rw [← Option.not_isSome_iff_eq_none, ← hloss]
      simp [hstate]
    have hticked := s.timeline.tick_ranges s.now none hranges
    obtain ⟨fstate, fposition, -, ftick, floss, -⟩ := s.timeline.tick_frame s.now none
    rw [State.timelineSound_iff]
    unfold State.counterTick
    dsimp only
    split
    case isTrue hruns =>
      simp only [State.modTimeline_timeline]
      rw [State.tick_timeline] at hruns ⊢
      unfold Timeline.expired at hruns ⊢
      split at hruns
      · simp [Timeline.stop] at hruns
      · rw [if_neg ‹_›]
        refine ⟨⟨hticked.meter_pos, hticked.meter_le, hticked.beat_lt, hticked.pendingMeter, hticked.ramp⟩, ?_, fun _ => ?_,
          by simp [hruns], by simp [hruns], by simp [hruns, floss, hnoloss], by simp [hruns]⟩
        · show (s.timeline.tick s.now none).1.position ≤ maxTick
          omega
        · show (s.timeline.tick s.now none).1.position < maxTick
          omega
    case isFalse hstops =>
      rw [State.tick_timeline] at hstops ⊢
      unfold Timeline.expired at hstops ⊢
      split at hstops
      · rw [if_pos ‹_›]
        exact Timeline.stop_sound _ _ hticked (by omega)
      · exact absurd (fstate.trans hstate) hstops
  · have hticked := s.timeline.expired_leads s.now none hs
    rw [State.leadsSound_iff]
    unfold State.counterTick
    dsimp only
    split
    · simp only [State.modTimeline_timeline]
      rw [State.tick_timeline]
      exact hticked.of_eq rfl rfl rfl rfl
    · rwa [State.tick_timeline]

/-- HELD is entered from RUNNING in SYNC mode at the last tick of a beat (R18). -/
theorem State.enterHeld_keeps (hsync : s.timeline.source = .sync) (hlast : s.timeline.tickInBeat = 239)
    (hdue : s.timeline.tickDue.isSome = true) : Keeps s s.enterHeld := by
  refine s.modTimeline_keeps (fun h => ?_) fun h => h.of_eq rfl rfl rfl rfl
  obtain ⟨hranges, hle, hlt, -, hrunning, -, -⟩ := h
  have hbelow : s.timeline.position < maxTick := hlt (by simp [hrunning.2 hdue])
  exact ⟨⟨hranges.meter_pos, hranges.meter_le, hranges.beat_lt, hranges.pendingMeter, hranges.ramp⟩, hle, fun _ => hbelow,
    fun _ => ⟨hsync, hlast⟩, by simp, by simp, by simp⟩

theorem State.counterExpires_keeps (o : Interleaving) : Keeps s (s.counterExpires o) := by
  unfold State.counterExpires
  split
  · exact .rfl'
  · rename_i due hdue
    refine .ite (fun hheld => ?_) fun _ => s.counterTick_keeps o due (by simp [hdue])
    simp only [Bool.and_eq_true, decide_eq_true_eq] at hheld
    exact s.enterHeld_keeps hheld.1 hheld.2 (by simp [hdue])

theorem State.syncLost_keeps (o : Interleaving) : Keeps s (s.syncLost o) :=
  (s.toInternal_keeps o).trans (State.raiseAll_keeps _ _)

/-! ## The conductor's requests -/

/-- A change of the timeline that leaves all that its invariants read. -/
theorem State.setConductor_keeps (c : Option PortId) : Keeps s (s.setConductor c) :=
  s.modTimeline_keeps (fun h => ⟨⟨h.meter_pos, h.meter_le, h.beat_lt, h.pendingMeter, h.ramp⟩, h.position_le, h.position_lt,
    h.held, h.running_iff, h.held_iff, h.stopped⟩) fun h => h.of_eq rfl rfl rfl rfl

theorem State.setTempo_keeps (c : Nat) : Keeps s (s.modTimeline (Timeline.setTempo c)) := by
  refine s.modTimeline_keeps (fun h => ?_) fun h => ?_
  · obtain ⟨hranges, hle, hlt, hheld, hrunning, hloss, hstopped⟩ := h
    unfold Timeline.setTempo
    dsimp only
    split
    · exact ⟨⟨hranges.meter_pos, hranges.meter_le, hranges.beat_lt, hranges.pendingMeter, fun _ => rfl⟩, hle, hlt, hheld,
        hrunning, hloss, hstopped⟩
    · exact ⟨⟨hranges.meter_pos, hranges.meter_le, hranges.beat_lt, hranges.pendingMeter, fun _ => rfl⟩, hle, hlt, hheld,
        hrunning, hloss, fun h => absurd h ‹_›⟩
  · unfold Timeline.setTempo
    dsimp only
    split
    · exact Timeline.adopt_leads _ _
    · exact h.of_eq rfl rfl rfl rfl

theorem State.startRamp_keeps (target beats : Nat) (hinternal : s.timeline.source ≠ .sync) :
    Keeps s (s.modTimeline (Timeline.startRamp target beats)) :=
  s.modTimeline_keeps (fun h => ⟨⟨h.meter_pos, h.meter_le, h.beat_lt, h.pendingMeter, fun hsync => absurd hsync hinternal⟩,
    h.position_le, h.position_lt, h.held, h.running_iff, h.held_iff, h.stopped⟩) fun h => h.of_eq rfl rfl rfl rfl

theorem State.setMeter_keeps {beats : Nat} (hpos : 1 ≤ beats) (hle : beats ≤ 16) :
    Keeps s (s.modTimeline (fun t => { t with pendingMeter := some beats })) :=
  s.modTimeline_keeps (fun h => ⟨⟨h.meter_pos, h.meter_le, h.beat_lt, fun _ hm => Option.some.inj hm ▸ ⟨hpos, hle⟩, h.ramp⟩,
    h.position_le, h.position_lt, h.held, h.running_iff, h.held_iff, h.stopped⟩) fun h => h.of_eq rfl rfl rfl rfl

theorem State.runTimeline_keeps (hlt : s.timeline.position < maxTick) : Keeps s s.runTimeline := by
  unfold State.runTimeline
  refine .ite (fun hstopped => ?_) fun _ => .rfl'
  refine ⟨(s.modTimeline_rest _).trans (State.modTimeline_rest _ _), fun hs => ?_,
    fun hs => Timeline.Leads.of_eq (t := s.timeline) hs rfl rfl rfl rfl⟩
  obtain ⟨hranges, hle, -, -, -, hloss, -⟩ := State.timelineSound_iff.1 hs
  have hnoloss : s.timeline.lossDue = none := by
    rw [← Option.not_isSome_iff_eq_none, ← hloss]
    simp [hstopped]
  rw [State.timelineSound_iff]
  exact ⟨⟨hranges.meter_pos, hranges.meter_le, hranges.beat_lt, hranges.pendingMeter, hranges.ramp⟩, hle, fun _ => hlt,
    by simp [State.startCounter, State.modTimeline], by simp [State.startCounter, State.modTimeline],
    by simp [State.startCounter, State.modTimeline, hnoloss], by simp [State.startCounter, State.modTimeline]⟩

theorem State.stopRequest_keeps : Keeps s s.stopRequest := .ite (fun _ => .rfl') fun _ => s.stopTimeline_keeps _

theorem State.locateTo_keeps {p : Nat} (hp : p ≤ maxTick) (hstopped : s.timeline.state = .stopped) : Keeps s (s.locateTo p) := by
  refine ((s.modTimeline_keeps (f := Timeline.locate p) (fun h => ?_) fun h => h.of_eq rfl rfl rfl rfl).trans
    (State.leaveAll_keeps _ _ _)).trans (State.locatePlayers_keeps _ _)
  obtain ⟨hpos, hmeter⟩ : 1 ≤ s.timeline.pendingMeter.getD s.timeline.beatsPerBar ∧
      s.timeline.pendingMeter.getD s.timeline.beatsPerBar ≤ 16 := by
    cases hm : s.timeline.pendingMeter with
    | none => exact ⟨h.meter_pos, h.meter_le⟩
    | some m => exact h.pendingMeter m hm
  refine ⟨⟨hpos, hmeter, ?_, by simp [Timeline.locate], h.ramp⟩, hp, fun hne => absurd hstopped hne,
    fun hheld => absurd (hstopped.symm.trans hheld) (by simp), h.running_iff, h.held_iff, h.stopped⟩
  have hbar : 0 < s.timeline.pendingMeter.getD s.timeline.beatsPerBar * 240 := by omega
  have hmod := Nat.mod_lt p hbar
  simp only [Timeline.locate]
  omega

theorem State.toSync_keeps (hinternal : s.timeline.source = .internal) : Keeps s (s.modTimeline Timeline.toSync) := by
  refine s.modTimeline_keeps (fun h => ?_) fun h => h.of_eq rfl rfl rfl rfl
  exact ⟨⟨h.meter_pos, h.meter_le, h.beat_lt, h.pendingMeter, fun _ => rfl⟩, h.position_le, h.position_lt,
    fun hheld => absurd ((h.held hheld).1.symm.trans hinternal) (by simp), h.running_iff, h.held_iff, h.stopped⟩

theorem State.setSource_keeps (o : Interleaving) (m : Option SourceMode) : Keeps s (s.setSource o m) := by
  unfold State.setSource
  split
  · exact s.toSync_keeps ‹_›
  · exact s.toInternal_keeps _
  · exact .rfl'

/-- SET_CLASS's times, with the lead ticks at the period in force (R23). -/
theorem State.setTimes_keeps (c : InstrumentClass) (lead slip : Nat) :
    Keeps s (s.modTimeline (fun t => t.modTimes c (fun _ => { lead := lead, slip := slip, leadTicks := leadTicksOf lead t.period }))) := by
  refine s.modTimeline_keeps (fun h => ?_) fun h => ?_
  · cases c <;> exact ⟨⟨h.meter_pos, h.meter_le, h.beat_lt, h.pendingMeter, h.ramp⟩, h.position_le, h.position_lt,
      h.held, h.running_iff, h.held_iff, h.stopped⟩
  · intro d
    cases c <;> cases d <;> first | exact h .marimba | exact h .vibes | exact h .perc | rfl

theorem State.endPulse_keeps : Keeps s (s.modTimeline (fun t => { t with syncOutEnd := none })) :=
  s.modTimeline_keeps (fun h => ⟨⟨h.meter_pos, h.meter_le, h.beat_lt, h.pendingMeter, h.ramp⟩, h.position_le, h.position_lt,
    h.held, h.running_iff, h.held_iff, h.stopped⟩) fun h => h.of_eq rfl rfl rfl rfl

end

end Sys2Proof.Machine
end

section
/-! SUPPORT. What the stage's events, the ports' resets and every request's body keep. -/
namespace Sys2Proof.Machine

/-! ## Rail samples and the guard -/

section
variable (s : State)

theorem Rail.sampled_fires (sample : Nat) (r : Rail) :
    (r.sampled sample).recent = r.recent ∧ (r.sampled sample).count = r.count := by
  unfold Rail.sampled
  dsimp only
  repeat' split
  all_goals exact ⟨rfl, rfl⟩

theorem Rail.settle_fires (now sample : Nat) (r : Rail) :
    (r.settle now sample).recent = r.recent ∧ (r.settle now sample).count = r.count := by
  unfold Rail.settle
  split <;> exact ⟨rfl, rfl⟩

theorem State.modRail_keeps_of_same (r : RailId) {f : Rail → Rail} (h : ∀ x, (f x).recent = x.recent ∧ (f x).count = x.count) :
    Keeps s (s.modRail r f) := s.modRail_keeps_of_fires r fun x => ⟨(congrArg _ (h x).1).le, (h x).2⟩

theorem State.sampleInStage_keeps (r : RailId) (sample : Nat) : Keeps s (s.sampleInStage r sample) := by
  unfold State.sampleInStage
  split
  · exact .rfl'
  · split
    case h_1 hcharging =>
      have h := s.modRail_keeps_of_same r (Rail.settle_fires s.now sample)
      exact .ite (fun _ => h.trans (State.chargeComplete_keeps _ hcharging)) fun _ => h
    case h_2 hdischarging =>
      have h := s.modRail_keeps_of_same r (f := fun x => { x with bled := sample < 200 }) fun _ => ⟨rfl, rfl⟩
      exact .ite (fun _ => h.trans (State.dischargeComplete_keeps _ fun _ => hdischarging)) fun _ => h
    case h_3 => exact .rfl'

/-- A rail's FAULT in the stages that it takes to FAULT (R159). -/
def State.railFaults (r : RailId) (s : State) : State :=
  match s.stage.stage with
  | .standby | .playing | .guarded => s.enterFault (.railFault r)
  | _ => s

theorem State.railFaults_keeps (r : RailId) : Keeps s (s.railFaults r) := by
  unfold State.railFaults
  split
  case h_4 => exact .rfl'
  all_goals exact s.enterFault_keeps _ fun _ hd => by simp_all

theorem State.railSample_keeps (r : RailId) (sample : Nat) : Keeps s (s.railSample r sample) := by
  have hsampled := s.modRail_keeps_of_same r (Rail.sampled_fires sample)
  have hwoken : ∀ c : Prop, [Decidable c] → Keeps s (if c then (s.modRail r (Rail.sampled sample)).wake r
      else s.modRail r (Rail.sampled sample)) := fun c _ =>
    .ite (fun _ => hsampled.trans (State.wake_keeps _ _)) fun _ => hsampled
  unfold State.railSample
  refine .trans ?_ (State.sampleInStage_keeps _ _ _)
  exact .ite (fun _ => (hwoken _).trans (State.railFaults_keeps _ r)) fun _ => hwoken _

/-- PLAYING is left by a guard that opens (R158). -/
theorem State.guardOpened_keeps (hplaying : s.stage.stage = .playing) :
    Keeps s ((s.modStage (fun c => { c with guardClosed := false })).leavePlaying.enterStage .guarded) := by
  have hleft := (s.modStage (fun c => { c with guardClosed := false })).leavePlaying_keeps
  have hkept := (s.modStage (fun c => { c with guardClosed := false })).leavePlaying_kept
  refine State.enterStage_keeps _ _ ((s.modStage_blocks _).trans (hleft.blocks hkept.timeline)) fun hs => ?_
  refine ⟨State.leavePlaying_still _, ?_, ?_, by simp, fun _ => ?_⟩
  · exact (congrArg StageControl.chargeDue hkept.stage).trans (hs.chargeDue_none (by simp [hplaying]))
  · exact (congrArg StageControl.dischargeDue hkept.stage).trans (hs.dischargeDue_none (by simp [hplaying]))
  · exact congrArg StageControl.guardClosed hkept.stage

theorem State.guardMoved_keeps (closed : Bool) : Keeps s (s.guardMoved closed) := by
  unfold State.guardMoved
  dsimp only
  split
  case h_1 hstandby =>
    refine State.enterStage_keeps _ _ (s.modStage_blocks _) fun hs => ?_
    have hstage : s.stage.stage = .standby := hstandby
    have hstill : s.Still := State.still_of_not_playing hs (by simp [hstage])
    exact ⟨hstill, hs.chargeDue_none (by simp [hstage]), hs.dischargeDue_none (by simp [hstage]), by simp, fun _ => rfl⟩
  case h_2 hplaying => exact s.guardOpened_keeps hplaying
  case h_3 hguarded =>
    refine State.enterStage_keeps _ _ (s.modStage_blocks _) fun hs => ?_
    have hstage : s.stage.stage = .guarded := hguarded
    have hstill : s.Still := State.still_of_not_playing hs (by simp [hstage])
    exact ⟨hstill, hs.chargeDue_none (by simp [hstage]), hs.dischargeDue_none (by simp [hstage]), fun _ => rfl, by simp⟩
  case h_4 _ _ hstandby hplaying hguarded =>
    refine s.withStage_keeps (fun _ hp hx => absurd hp hx) (fun hs => ⟨fun hg => ?_, fun hg => ?_⟩) fun hs => ?_
    · exact Bool.eq_true_of_not_eq_false fun hopened => hg.elim (hplaying · hopened) (hstandby · hopened)
    · exact Bool.eq_false_iff.2 fun hclosed => hguarded hg hclosed
    · obtain ⟨-, -, -, -, hcharge, hdischarge⟩ := hs
      exact ⟨hcharge, hdischarge⟩

/-! ## The stage requests -/

theorem State.stageUp_keeps : Keeps s s.stageUp := .ite (fun h => s.startCharge_keeps _ h) fun _ => .rfl'

/-- PLAY in STANDBY with the guard closed (R154). -/
theorem State.enterPlaying_keeps (hstandby : s.stage.stage = .standby) : Keeps s (s.enterStage .playing) :=
  State.enterStage_keeps _ _ (Keeps.rfl'.blocks rfl) fun hs =>
    ⟨State.still_of_not_playing hs (by simp [hstandby]), hs.chargeDue_none (by simp [hstandby]),
      hs.dischargeDue_none (by simp [hstandby]), fun _ => hs.guard_closed (.inr hstandby), by simp⟩

theorem State.stagePlay_keeps : Keeps s s.stagePlay := by
  unfold State.stagePlay
  split
  · exact s.startCharge_keeps _ ‹_›
  · exact s.modStage_keeps (f := fun c => { c with target := some .playing }) rfl rfl id id
  · exact s.enterPlaying_keeps ‹_›
  · exact .rfl'

/-- REST in PLAYING (R154). -/
theorem State.restFromPlaying_keeps (hplaying : s.stage.stage = .playing) : Keeps s (s.leavePlaying.enterStage .standby) := by
  have hkept := s.leavePlaying_kept.stage
  refine State.enterStage_keeps _ _ (s.leavePlaying_keeps.blocks s.leavePlaying_kept.timeline) fun hs => ?_
  refine ⟨s.leavePlaying_still, ?_, ?_, fun _ => ?_, by simp⟩ <;> rw [hkept]
  · exact hs.chargeDue_none (by simp [hplaying])
  · exact hs.dischargeDue_none (by simp [hplaying])
  · exact hs.guard_closed (.inl hplaying)

theorem State.stageRest_keeps : Keeps s s.stageRest := by
  unfold State.stageRest
  split
  · exact s.modStage_keeps (f := fun c => { c with target := some .standby }) rfl rfl id id
  · exact s.restFromPlaying_keeps ‹_›
  · exact .rfl'

theorem State.stageDown_keeps : Keeps s s.stageDown := by
  unfold State.stageDown
  split
  · exact .rfl'
  · exact .rfl'
  · exact s.startDischarge_keeps

theorem stageResult_keeps (refusal : Option Status) {f : State → State} (h : Keeps s (f s)) :
    Keeps s (stageResult refusal f s).1 := by
  unfold stageResult
  split
  · exact .rfl'
  · exact h

end

/-! ## A body's answer, by its checks -/

section
variable {s : State}

theorem refuse_keeps (st : Status) : Keeps s (refuse st s).1 := .rfl'

theorem Keeps.answer {α : Type} {t : State} {a : α} (h : Keeps s t) : Keeps s (t, a).1 := h

/-- Both ways of a choice between answers. -/
theorem Keeps.ite_fst {α : Type} {c : Prop} [Decidable c] {x y : State × α} (h : c → Keeps s x.1) (g : ¬ c → Keeps s y.1) :
    Keeps s (if c then x else y).1 := by
  split
  · exact h ‹_›
  · exact g ‹_›

theorem setupResult_keeps {f : State → State} {results : State → List Byte} (h : Keeps s (f s)) :
    Keeps s (setupResult s f results).1 := .ite_fst (fun _ => h) fun _ => .rfl'

theorem conducted_keeps {p : PortId} {a b : Bool} {f : State → State} (h : ¬ a = true → ¬ b = true → Keeps s (f s)) :
    Keeps s (conducted p a b f s).1 :=
  .ite_fst (fun _ => .rfl') fun _ => .ite_fst (fun _ => .rfl') fun ha => .ite_fst (fun _ => .rfl') fun hb => h ha hb

theorem forVoice_keeps {holds : State → VoiceId → Bool} {voice : Byte} {body : VoiceId → State → Result}
    (h : ∀ v, holds s v = true → Keeps s (body v s).1) : Keeps s (forVoice holds voice body s).1 := by
  unfold forVoice
  split
  · exact .rfl'
  · exact .ite_fst (fun hv => h _ hv) fun _ => .rfl'

theorem statusOf_keeps {n : Nat} {member : Byte} {contents : Fin n → State → List Byte} :
    Keeps s (statusOf n member contents s).1 := by
  unfold statusOf
  split <;> exact .rfl'

theorem State.owns_ne {p : PortId} {v : VoiceId} (h : s.owns p v = true) : v ≠ chimeVoice := by
  simp only [State.owns, Bool.and_eq_true, decide_eq_true_eq] at h
  exact h.1.1

end

/-! ## Setup -/

section
variable (s : State)

theorem State.withSettings_keeps (r : RailId) {x : RailSettings} (hx : x.inRange = true) :
    Keeps s (s.modRail r (Rail.withSettings s.now x)) := by
  refine s.modRail_keeps r fun _ => ⟨?_, ?_⟩
  · refine (List.length_filter_le _ _).trans ?_
    rw [List.length_drop]
    simp only [Rail.withSettings]
    omega
  · simp only [RailSettings.inRange, Bool.and_eq_true, decide_eq_true_eq] at hx
    exact hx.1.1.1.1.2

theorem setRailResult_keeps (a b : Byte) (c : Half) (d : Quad) (e : Byte) (f : Half) (g : Byte) :
    Keeps s (setRailResult a b c d e f g s).1 := by
  unfold setRailResult
  split
  · refine .ite_fst (fun _ => .rfl') fun hrange => .ite_fst (fun _ => .rfl') fun _ => setupResult_keeps ?_
    refine s.withSettings_keeps _ ?_
    by_contra hx
    simp [hx] at hrange
  · exact .rfl'

theorem setStrikerResult_keeps (a : Byte) (b : Quad) (c : Byte) (d : Half) (e : Byte) (f g : Half) (h : Byte) :
    Keeps s (setStrikerResult a b c d e f g h s).1 := by
  unfold setStrikerResult
  split
  · exact .ite_fst (fun _ => .rfl') fun _ => setupResult_keeps (s.modStriker_keeps_of_state _ fun _ => rfl)
  · exact .rfl'

/-- The strikers of a record that is not refused all lie on its rail (R51, check 2; R52). -/
theorem Bar.rail_of_pair {b : Bar} (h : b.pairRefused = false) : ∀ n ∈ b.strikers, b.rail = some (railOf n) := by
  intro n hn
  unfold Bar.pairRefused at h
  cases hfirst : b.first with
  | none =>
    cases hsecond : b.second with
    | none => simp [Bar.strikers, hfirst, hsecond] at hn
    | some m =>
      obtain rfl : n = m := by simpa [Bar.strikers, hfirst, hsecond] using hn
      simp [Bar.rail, Bar.strikers, hfirst, hsecond]
  | some m =>
    cases hsecond : b.second with
    | none =>
      obtain rfl : n = m := by simpa [Bar.strikers, hfirst, hsecond] using hn
      simp [Bar.rail, Bar.strikers, hfirst, hsecond]
    | some k =>
      simp only [hfirst, hsecond, Bool.or_eq_false_iff, decide_eq_false_iff_not, not_not] at h
      have hn' : n = m ∨ n = k := by simpa [Bar.strikers, hfirst, hsecond] using hn
      obtain rfl | rfl := hn'
      · simp [Bar.rail, Bar.strikers, hfirst]
      · simp [Bar.rail, Bar.strikers, hfirst, h.2]

theorem Striker.rebar_state (n : StrikerId) (b : BarId) (old new : Bar) (k : Striker) : (k.rebar n b old new).state = k.state := by
  unfold Striker.rebar
  repeat' split
  all_goals rfl

theorem State.replaceBar_keeps (b : BarId) {new : Bar} (hpair : new.pairRefused = false) : Keeps s (s.replaceBar b new) := by
  have hbars : Keeps s { s with bars := s.bars.put b new } := by
    refine ⟨⟨id, id, id, id, id, fun hr => ⟨hr.1, fun i n hn => ?_⟩, id, le_rfl, rfl⟩, id, id⟩
    simp only [State.bar, Bank.look_put] at hn ⊢
    split at hn
    · rw [if_pos ‹_›]
      exact Bar.rail_of_pair hpair n hn
    · rw [if_neg ‹_›]
      exact hr.2 i n hn
  refine hbars.trans (State.withStrikers_keeps _ fun n hn => ?_)
  rw [Bank.look_mapWith, Striker.rebar_state] at hn
  exact .inl hn

theorem setBarResult_keeps (a b c d e f : Byte) (g : Half) : Keeps s (setBarResult a b c d e f g s).1 := by
  unfold setBarResult
  split
  · exact .ite_fst (fun _ => .rfl') fun _ => .ite_fst (fun _ => .rfl') fun hpair => .ite_fst (fun _ => .rfl') fun _ =>
      .ite_fst (fun _ => .rfl') fun _ => setupResult_keeps (s.replaceBar_keeps _ (Bool.eq_false_iff.2 hpair))
  · exact .rfl'

theorem setClassResult_keeps (a : Byte) (b c : Half) : Keeps s (setClassResult a b c s).1 := by
  unfold setClassResult
  split
  · exact .ite_fst (fun _ => .rfl') fun _ => setupResult_keeps (s.setTimes_keeps _ _ _)
  · exact .rfl'

theorem setDamperResult_keeps (a : Byte) (b c : Half) (d : Quad) : Keeps s (setDamperResult a b c d s).1 := by
  unfold setDamperResult
  split
  · exact .ite_fst (fun _ => .rfl') fun _ => setupResult_keeps (s.modDamper_keeps_of_sublist _ fun _ => .refl _)
  · exact .rfl'

theorem setChargeResult_keeps (a b : Half) : Keeps s (setChargeResult a b s).1 :=
  .ite_fst (fun _ => .rfl') fun _ => setupResult_keeps
    (s.modStage_keeps (f := fun c => { c with settleMs := a.toNat, timeoutMs := b.toNat }) rfl rfl id id)

theorem State.setQuotaOf_keeps (q : PortId) (n : Nat) (huse : s.useCount q ≤ n) (hsum : quotaSum (s.quotas.put q n) ≤ 224) :
    Keeps s (s.setQuotaOf q n) := by
  have h : Keeps s { s with quotas := s.quotas.put q n } := by
    refine ⟨⟨id, fun ⟨_, huses, hchime, hecho⟩ => ⟨hsum, fun p => ?_, hchime, hecho⟩, id, id, id, id, id, le_rfl, rfl⟩, id, id⟩
    rw [Bank.look_put]
    split
    · subst_vars
      exact huse
    · exact huses p
  exact .ite (fun _ => h.trans (State.tell_keeps _ _)) fun _ => h

theorem setQuotaResult_keeps (a : Byte) (b : Half) : Keeps s (setQuotaResult a b s).1 := by
  unfold setQuotaResult
  split
  · refine .ite_fst (fun _ => .rfl') fun _ => .ite_fst (fun _ => .rfl') fun hroom => setupResult_keeps ?_
    simp only [Bool.or_eq_true, decide_eq_true_eq, not_or, Nat.not_lt] at hroom
    exact s.setQuotaOf_keeps _ _ hroom.1 hroom.2
  · exact .rfl'

/-- A copy written by the update mode keeps its table's form, where the mode is the shaper's (R75, R77, R78). -/
theorem CurveTable.write_sound {m : UpdateMode} {first : Nat} {points : List Half} {c c' : CurveTable}
    (h : c.write m first points = some c') (hlive : monotonePoints c.live = true) (hsame : m = .direct → c.live = c.staging) :
    monotonePoints c'.live = true ∧ monotonePoints c'.staging = true ∧ (m = .direct → c'.live = c'.staging) := by
  cases m <;> simp only [CurveTable.write, Option.ite_none_right_eq_some, Option.some.injEq] at h <;> obtain ⟨hmono, rfl⟩ := h
  · have hequal := hsame rfl
    exact ⟨hmono, hequal ▸ hmono, fun _ => congrArg (writePoints · first points) hequal⟩
  · exact ⟨hlive, hmono, by simp⟩

theorem setCurveResult_keeps (a b : Byte) (c : List Half) : Keeps s (setCurveResult a b c s).1 := by
  unfold setCurveResult
  refine .ite_fst (fun _ => .rfl') fun _ => ?_
  split
  · refine .ite_fst (fun _ => .rfl') fun _ => ?_
    split
    · refine s.withShaper_keeps fun hs i => ?_
      simp only [State.table, Bank.look_put]
      split
      · subst_vars
        obtain ⟨hlive, -, hsame⟩ := hs _
        exact CurveTable.write_sound ‹_› hlive hsame
      · exact hs i
    · exact .rfl'
  · exact .rfl'

theorem curveModeResult_keeps (a : Byte) : Keeps s (curveModeResult a s).1 := by
  unfold curveModeResult
  split
  · exact .rfl'
  · refine .ite_fst (fun _ => .rfl') fun _ => ?_
    split
    · exact s.withShaper_keeps fun hs t => ⟨(hs t).1, (hs t).2.1, by simp⟩
    · exact .ite_fst (fun _ => .rfl') fun _ =>
        s.mapTables_keeps .direct _ fun _ _ hlive _ _ => ⟨hlive, hlive, fun _ => rfl⟩

theorem State.commitTables_keeps (named : TableId → Bool) : Keeps s (s.commitTables named) := by
  unfold State.commitTables
  split
  · exact .rfl'
  · refine s.mapTables_keeps s.shaper.mode _ fun t c hlive hstaging hsame => ?_
    repeat' split
    · exact ⟨hstaging, hstaging, fun _ => rfl⟩
    · exact ⟨hlive, hstaging, hsame⟩
    · exact ⟨hlive, hstaging, hsame⟩

theorem commitResult_keeps (a : Byte) : Keeps s (commitResult a s).1 := by
  unfold commitResult
  split
  · exact .rfl'
  · exact s.commitTables_keeps _

theorem setScanResult_keeps (a b : Byte) (c : Quad) : Keeps s (setScanResult a b c s).1 := by
  unfold setScanResult
  split
  · exact .ite_fst (fun _ => .rfl') fun _ => .answer (s.modSense_keeps _)
  · exact .rfl'

theorem setPortResult_keeps (p : PortId) (a b : Byte) (c : Half) : Keeps s (setPortResult p a b c s).1 := by
  refine .ite_fst (fun _ => .rfl') fun _ => s.modPort_keeps_of_echo p fun q => ?_
  rw [Port.withSettings, Port.levelCheck_eq]
  rfl

/-! ## Conductor, voices and strokes -/

theorem conductResult_keeps (p : PortId) (a : Byte) : Keeps s (conductResult p a s).1 := by
  unfold conductResult
  split
  · exact .rfl'
  · exact s.setConductor_keeps _
  · exact .ite_fst (fun _ => .rfl') fun _ => .rfl'
  · exact .ite_fst (fun _ => s.setConductor_keeps _) fun _ => .rfl'
  · exact .rfl'

theorem tempoResult_keeps (p : PortId) (a : Half) : Keeps s (tempoResult p a s).1 :=
  conducted_keeps fun _ _ => s.setTempo_keeps _

theorem rampResult_keeps (p : PortId) (a : Half) (b : Byte) : Keeps s (rampResult p a b s).1 :=
  conducted_keeps fun hsource _ => s.startRamp_keeps _ _ fun hsync => hsource (decide_eq_true hsync)

theorem meterResult_keeps (p : PortId) (a : Byte) : Keeps s (meterResult p a s).1 := by
  refine conducted_keeps fun _ hrange => ?_
  simp only [Bool.or_eq_true, decide_eq_true_eq, not_or, Nat.not_lt] at hrange
  exact s.setMeter_keeps hrange.1 hrange.2

theorem runResult_keeps (p : PortId) : Keeps s (runResult p s).1 := by
  refine conducted_keeps fun _ hrange => ?_
  simp only [decide_eq_true_eq, Nat.not_le] at hrange
  exact s.runTimeline_keeps hrange

theorem stopResult_keeps (p : PortId) : Keeps s (stopResult p s).1 := conducted_keeps fun _ _ => s.stopRequest_keeps

theorem locateResult_keeps (p : PortId) (a : Quad) : Keeps s (locateResult p a s).1 := by
  refine conducted_keeps fun hstate _ => s.locateTo_keeps (Nat.le_of_lt_succ a.isLt) ?_
  simpa using hstate

theorem sourceResult_keeps (o : Interleaving) (p : PortId) (a : Byte) : Keeps s (sourceResult o p a s).1 :=
  conducted_keeps fun _ _ => s.setSource_keeps _ _

theorem mem_portVoices {v : VoiceId} : v ∈ portVoices ↔ v ≠ chimeVoice := by simp [portVoices]

/-- A voice that OPEN takes is one of 0 to 14 (R25). -/
theorem State.voiceToOpen_ne {named : Option (Fin 15)} {v : VoiceId}
    (h : s.voiceToOpen (named.map (Fin.castLE (by omega))) = .ok v) : v ≠ chimeVoice := by
  cases named with
  | none =>
    simp only [State.voiceToOpen, Option.map_none] at h
    split at h <;> cases h
    exact mem_portVoices.1 (List.mem_of_find?_eq_some ‹_›)
  | some k =>
    simp only [State.voiceToOpen, Option.map_some] at h
    split at h <;> cases h
    exact fun he => absurd (congrArg Fin.val he) (Nat.ne_of_lt k.2)

theorem State.openVoice_keeps (p : PortId) {v : VoiceId} (hv : v ≠ chimeVoice) (a b c : Nat) : Keeps s (s.openVoice p v a b c) :=
  (s.modVoice_keeps_of_ne hv _).trans (State.haltPlayer_keeps _ _)

theorem openResult_keeps (p : PortId) (a b c d : Byte) : Keeps s (openResult p a b c d s).1 := by
  unfold openResult
  split
  · exact .rfl'
  · refine .ite_fst (fun _ => .rfl') fun _ => ?_
    split
    · exact .rfl'
    · exact s.openVoice_keeps p (s.voiceToOpen_ne ‹_›) _ _ _

theorem State.dropPedals_keeps (v : VoiceId) : Keeps s (s.dropPedals v) :=
  s.allDampers_keeps_of_sublist fun d => d.drop_holds_sublist _ _

theorem State.closeVoice_keeps {v : VoiceId} (hv : v ≠ chimeVoice) : Keeps s (s.closeVoice v).1 :=
  (((s.flushVoice_keeps v).trans (State.haltPlayer_keeps _ v)).trans (State.dropPedals_keeps _ v)).trans
    (State.modVoice_keeps_of_ne _ hv (fun d => { d with state := .closed, owner := none, area := none }))

theorem closeResult_keeps (p : PortId) (a : Byte) : Keeps s (closeResult p a s).1 :=
  forVoice_keeps fun _ hv => s.closeVoice_keeps (State.owns_ne hv)

theorem State.admitted_keeps {a : Ask} {p : PortId} {t : State} {x : Admission} (h : s.admitEntry a p = (t, x)) : Keeps s t := by
  have hkeeps := s.admitEntry_keeps a p
  rwa [h] at hkeeps

theorem strokeResult_keeps (p : PortId) (a b c : Byte) (d : Quad) (e f : Byte) (g : Half) (part : StrokePart) :
    Keeps s (strokeResult p a b c d e f g part s).1 := by
  unfold strokeResult
  split
  · refine forVoice_keeps fun v _ => ?_
    dsimp only
    split
    · exact s.admitted_keeps ‹_›
    · exact (s.admitted_keeps ‹_›).trans (State.settle_keeps _)
  · exact .rfl'

theorem State.chop_keeps (v : VoiceId) (tag : Byte) : Keeps s (s.chop v tag) := by
  refine s.mapEntries_keeps fun e => ?_
  split
  · exact Entry.modRoll_place _ _
  · rfl

theorem chopResult_keeps (p : PortId) (a b : Byte) : Keeps s (chopResult p a b s).1 :=
  forVoice_keeps fun _ _ => s.chop_keeps _ _

theorem cancelResult_keeps (p : PortId) (a b : Byte) : Keeps s (cancelResult p a b s).1 :=
  forVoice_keeps fun _ _ => s.leaveAll_keeps _ _

theorem flushResult_keeps (p : PortId) (a : Byte) : Keeps s (flushResult p a s).1 :=
  forVoice_keeps fun _ _ => s.flushVoice_keeps _

theorem State.unlock_keeps (n : StrikerId) : Keeps s (s.unlock n) :=
  .ite (fun _ => (s.modStriker_keeps n (by rintro (h | h) <;> cases h)).trans (State.wake_keeps _ _))
    fun _ => s.modStriker_keeps_of_state n fun _ => rfl

theorem unlockResult_keeps (a : Byte) : Keeps s (unlockResult a s).1 := by
  unfold unlockResult
  split
  · exact .rfl'
  · exact (s.unlock_keeps _).trans (State.settle_keeps _)

/-! ## Phrase memory and players -/

theorem seekResult_keeps (p : PortId) (a : Half) : Keeps s (seekResult p a s).1 :=
  .ite_fst (fun _ => .rfl') fun _ => .answer (s.modPort_keeps_of_echo p fun _ => rfl)

theorem State.loadBytes_keeps (p : PortId) (data : List Byte) : Keeps s (s.loadBytes p data) :=
  (s.withMem_keeps fun h => memWf_memWriteAll _ data h).trans (State.modPort_keeps_of_echo _ p (f := fun q => { q with
    loadPointer := if 32767 < (s.port p).loadPointer + data.length then 0 else (s.port p).loadPointer + data.length }) fun _ => rfl)

theorem loadResult_keeps (p : PortId) (data : List Byte) : Keeps s (loadResult p data s).1 := by
  unfold loadResult
  refine .ite_fst (fun _ => .rfl') fun _ => ?_
  dsimp only
  split
  · exact .rfl'
  · exact .ite_fst (fun _ => .rfl') fun _ => s.loadBytes_keeps p data

theorem peekResult_keeps (a : Half) (b : Byte) : Keeps s (peekResult a b s).1 := .ite_fst (fun _ => .rfl') fun _ => .rfl'

theorem setAreaResult_keeps (p : PortId) (a : Byte) (b c : Half) : Keeps s (setAreaResult p a b c s).1 :=
  forVoice_keeps fun _ hv => .ite_fst (fun _ => .rfl') fun _ => .ite_fst (fun _ => .rfl') fun _ =>
    .answer (s.modVoice_keeps_of_ne (State.owns_ne hv) _)

theorem cueResult_keeps (o : Interleaving) (p : PortId) (a b c d : Byte) (e : Quad) (f : Half) :
    Keeps s (cueResult o p a b c d e f s).1 := by
  unfold cueResult
  split
  · refine forVoice_keeps fun v _ => ?_
    split
    · exact .rfl'
    · exact .ite_fst (fun _ => .rfl') fun _ => .ite_fst (fun _ => .rfl') fun _ =>
        (s.startPlayer_keeps _ _ _ _ _ _ _).trans (State.settle_keeps _)
  · exact .rfl'

theorem chimeResult_keeps (o : Interleaving) (p : PortId) (a : Half) (b c : Byte) (d : Quad) (e : Half) :
    Keeps s (chimeResult o p a b c d e s).1 := by
  unfold chimeResult
  split
  · exact .rfl'
  · exact .ite_fst (fun _ => .rfl') fun _ => .ite_fst (fun _ => .rfl') fun _ =>
      ((s.withChimePort_keeps _).trans (State.startPlayer_keeps _ _ _ _ _ _ _ _)).trans (State.settle_keeps _)

theorem haltResult_keeps (p : PortId) (a b : Byte) : Keeps s (haltResult p a b s).1 := by
  unfold haltResult
  split
  · exact .rfl'
  · exact forVoice_keeps fun v _ => .ite_fst (fun _ => (s.haltPlayer_keeps v).trans (State.flushVoice_keeps _ v))
      fun _ => s.haltPlayer_keeps v

theorem State.pushed_keeps (o : Interleaving) {v : VoiceId} (hv : v ≠ chimeVoice) (a : Area) (steps : List Byte) :
    Keeps s (s.pushed o v a steps) := by
  have h := (s.withMem_keeps fun h => memWf_pushSteps a steps h).trans
    (State.modVoice_keeps_of_ne _ hv (fun d => { d with area := some (pushSteps s.mem a steps).2 }))
  exact .ite (fun _ => (h.trans (State.resumePlayer_keeps _ _ _)).trans (State.settle_keeps _)) fun _ => h

theorem pushResult_keeps (o : Interleaving) (p : PortId) (a : Byte) (steps : List Byte) :
    Keeps s (pushResult o p a steps s).1 := by
  unfold pushResult
  refine .ite_fst (fun _ => .rfl') fun _ => forVoice_keeps fun v hv => ?_
  split
  · exact .rfl'
  · exact .ite_fst (fun _ => .rfl') fun _ => .ite_fst (fun _ => .rfl') fun _ => s.pushed_keeps o (State.owns_ne hv) _ steps

theorem clearResult_keeps (p : PortId) (a : Byte) : Keeps s (clearResult p a s).1 := by
  refine forVoice_keeps fun v hv => ?_
  split
  · exact .rfl'
  · exact .ite_fst (fun _ => .rfl') fun _ =>
      (s.modVoice_keeps_of_ne (State.owns_ne hv) _).trans (State.modPlayer_keeps _ _ _)

/-! ## Dampers, echo records and notices -/

theorem State.pedalDown_keeps (v : VoiceId) (named : Option UnitId) (hplaying : s.stage.stage = .playing) :
    Keeps s (s.pedalDown v named).1 := by
  refine s.withDampers_keeps fun u hu => ⟨?_, fun hstage => absurd hplaying hstage⟩
  rw [Bank.look_mapWith]
  split
  · rw [Damper.arrive_holds]
    exact length_admitHold_le _ hu
  · exact hu

theorem State.pedalUp_keeps (v : VoiceId) (named : Option UnitId) : Keeps s (s.pedalUp v named).1 := by
  refine s.withDampers_keeps_of_sublist fun u => ?_
  rw [Bank.look_mapWith]
  split
  · exact Damper.drop_holds_sublist _ _ _
  · exact .refl _

theorem pedalResult_keeps (p : PortId) (a b c : Byte) : Keeps s (pedalResult p a b c s).1 := by
  unfold pedalResult
  split
  · exact forVoice_keeps fun v _ => .ite_fst (fun _ => s.pedalUp_keeps _ _) fun _ => .ite_fst (fun _ => .rfl') fun hp =>
      s.pedalDown_keeps _ _ (not_not.1 hp)
  · exact .rfl'

theorem echoReadResult_keeps (p : PortId) (a : Byte) : Keeps s (echoReadResult p a s).1 := by
  refine .ite_fst (fun _ => .rfl') fun _ => s.withPorts_keeps fun i hi => ?_
  rw [Bank.look_put]
  split
  · subst_vars
    exact (List.drop_sublist _ _).length_le.trans hi
  · exact hi

theorem noticesResult_keeps (p : PortId) : Keeps s (noticesResult p s).1 :=
  s.modPort_keeps_of_echo p fun q => by rw [Port.clearNotices_eq]

theorem senseStatusResult_keeps (a : Byte) : Keeps s (senseStatusResult a s).1 := by
  unfold senseStatusResult
  split <;> exact .rfl'

end

end Sys2Proof.Machine
end

section
/-! SUPPORT. Every command keeps every invariant: a request by its body, an event by its own meaning. -/
namespace Sys2Proof.Machine

/-! ## A request's command and its body -/

/-- A request's command runs its body; one whose payload no frame carries only moves the clock (R167). -/
theorem exec_request {c : Instr} {w : When} {p : PortId} {kind : Byte} {body : State → Result} (s : State)
    (hport : requestPort c = some (w, p)) (hkind : kindCode c = some kind) (hbody : resultOf c = some body) :
    ((requestPayload c).length ≤ 60 → exec c s = .next (request w p kind body s)) ∧
      (60 < (requestPayload c).length → exec c s = .next (s.reach w.time)) := by
  cases c <;> cases hport <;> cases hkind <;> cases hbody
  case setCurve table first points =>
    have hlength : (requestPayload (.setCurve w p table first points)).length = 2 + 2 * points.length := by
      simp only [requestPayload, List.length_cons, Laws.FitsFrame.length_bytesOfHalves]
      omega
    rw [hlength]
    exact ⟨fun h => if_neg (by simpa [oversize] using h), fun h => if_pos (by simpa [oversize] using h)⟩
  case load data =>
    exact ⟨fun h => if_neg (by simpa [oversize, requestPayload] using h),
      fun h => if_pos (by simpa [oversize, requestPayload] using h)⟩
  case push voice steps =>
    have hlength : (requestPayload (.push w p voice steps)).length = 1 + steps.length := by
      simp only [requestPayload, List.length_cons]
      omega
    rw [hlength]
    exact ⟨fun h => if_neg (by simpa [oversize] using h), fun h => if_pos (by simpa [oversize] using h)⟩
  all_goals exact ⟨fun _ => rfl, fun h => absurd h (by simp [requestPayload, halfBytes, quadBytes])⟩

/-- The commands with a body are those that come on a port with a kind code. -/
theorem resultOf_isSome (c : Instr) : (resultOf c).isSome = (requestPort c).isSome ∧
    (kindCode c).isSome = (requestPort c).isSome := by
  cases c <;> exact ⟨rfl, rfl⟩

section
variable (s : State)

theorem State.modPort_answer_keeps (p : PortId) (kind : Byte) (st : Status) (results : List Byte) :
    Keeps s (s.modPort p (Port.answer kind st results)) := s.modPort_keeps_of_echo p fun _ => rfl

theorem State.loseFrame_keeps (p : PortId) : Keeps s (s.loseFrame p) := by
  obtain h | h := s.loseFrame_cases p <;> rw [h]
  · exact .rfl'
  · exact s.modPort_keeps_of_echo p fun _ => rfl

theorem State.taken_keeps (w : When) (p : PortId) : Keeps s (s.taken w p) :=
  (s.reach_keeps _).trans (State.modPort_keeps_of_echo _ p fun _ => rfl)

theorem request_keeps (w : When) (p : PortId) (kind : Byte) {body : State → Result} (h : ∀ t, Keeps t (body t).1) :
    Keeps s (request w p kind body s) := by
  cases hready : s.ready p with
  | true =>
    rw [request_ready hready]
    exact ((s.taken_keeps w p).trans (h _)).trans (State.modPort_answer_keeps _ _ _ _ _)
  | false =>
    rw [request_lost hready]
    exact (s.reach_keeps _).trans (State.loseFrame_keeps _ p)

/-- What a request does keeps the invariants. -/
theorem resultOf_keeps {c : Instr} {body : State → Result} (hbody : resultOf c = some body) : Keeps s (body s).1 := by
  cases c <;> cases hbody
  case setRail => exact setRailResult_keeps ..
  case setStriker => exact setStrikerResult_keeps ..
  case setBar => exact setBarResult_keeps ..
  case setClass => exact setClassResult_keeps ..
  case setDamper => exact setDamperResult_keeps ..
  case setCharge => exact setChargeResult_keeps ..
  case setQuota => exact setQuotaResult_keeps ..
  case setCurve => exact setCurveResult_keeps ..
  case curveMode => exact curveModeResult_keeps ..
  case commit => exact commitResult_keeps ..
  case setScan => exact setScanResult_keeps ..
  case setPort => exact setPortResult_keeps ..
  case conduct => exact conductResult_keeps ..
  case tempo => exact tempoResult_keeps ..
  case ramp => exact rampResult_keeps ..
  case meter => exact meterResult_keeps ..
  case run => exact runResult_keeps ..
  case stop => exact stopResult_keeps ..
  case locate => exact locateResult_keeps ..
  case source => exact sourceResult_keeps ..
  case openVoice => exact openResult_keeps ..
  case closeVoice => exact closeResult_keeps ..
  case strike => exact strokeResult_keeps ..
  case roll => exact strokeResult_keeps ..
  case press => exact strokeResult_keeps ..
  case chop => exact chopResult_keeps ..
  case cancel => exact cancelResult_keeps ..
  case flush => exact flushResult_keeps ..
  case unlock => exact unlockResult_keeps ..
  case seek => exact seekResult_keeps ..
  case load => exact loadResult_keeps ..
  case peek => exact peekResult_keeps ..
  case setArea => exact setAreaResult_keeps ..
  case cue => exact cueResult_keeps ..
  case chime => exact chimeResult_keeps ..
  case halt => exact haltResult_keeps ..
  case push => exact pushResult_keeps ..
  case clear => exact clearResult_keeps ..
  case pedal => exact pedalResult_keeps ..
  case up => exact stageResult_keeps _ _ s.stageUp_keeps
  case play => exact stageResult_keeps _ _ s.stagePlay_keeps
  case rest => exact stageResult_keeps _ _ s.stageRest_keeps
  case down => exact stageResult_keeps _ _ s.stageDown_keeps
  case echoRead => exact echoReadResult_keeps ..
  case notices => exact noticesResult_keeps ..
  case senseStatus => exact senseStatusResult_keeps ..
  case timeStatus => exact .rfl'
  case calendarStatus => exact .rfl'
  case stageStatus => exact .rfl'
  all_goals exact statusOf_keeps

/-! ## The ports -/

theorem State.clearMarks_keeps (p : PortId) : Keeps s (s.clearMarks p) :=
  s.mapEntries_keeps fun e => by split <;> rfl

theorem State.closeVoices_keeps {l : List VoiceId} (hl : ∀ v ∈ l, v ≠ chimeVoice) : Keeps s (State.closeVoices l s) := by
  induction l generalizing s with
  | nil => exact .rfl'
  | cons v rest ih =>
    exact (s.closeVoice_keeps (hl v List.mem_cons_self)).trans (ih _ fun u hu => hl u (List.mem_cons_of_mem _ hu))

theorem State.clearChimeMarks_keeps : Keeps s s.clearChimeMarks := s.mapEntries_keeps fun e => by split <;> rfl

theorem State.dropChime_keeps (p : PortId) : Keeps s (s.dropChime p) :=
  .ite (fun _ => (((s.haltPlayer_keeps _).trans (State.clearChimeMarks_keeps _)).trans
    (State.flushVoice_keeps _ _)).trans (State.withChimePort_keeps _ _)) fun _ => .rfl'

theorem State.dropConductor_keeps (p : PortId) : Keeps s (s.dropConductor p) :=
  .ite (fun _ => s.setConductor_keeps _) fun _ => .rfl'

theorem State.portReset_keeps (p : PortId) : Keeps s (s.portReset p) := by
  have hvoices : ∀ v ∈ portVoices.filter (fun v => (s.clearMarks p).owns p v), v ≠ chimeVoice := fun v hv =>
    mem_portVoices.1 (List.mem_filter.1 hv).1
  exact ((((s.clearMarks_keeps p).trans (State.closeVoices_keeps _ hvoices)).trans (State.dropChime_keeps _ p)).trans
    (State.dropConductor_keeps _ p)).trans (State.modPort_keeps _ p fun _ _ => Nat.zero_le _)

theorem State.frameMismatch_keeps (p : PortId) : Keeps s (s.frameMismatch p) :=
  .ite (fun _ => s.modPort_keeps_of_echo p fun _ => rfl) fun _ => s.loseFrame_keeps p

theorem State.frameUnknown_keeps (p : PortId) : Keeps s (s.frameUnknown p) :=
  .ite (fun _ => s.modPort_keeps_of_echo p fun _ => rfl) fun _ => s.loseFrame_keeps p

theorem State.wholeFrame_keeps (w : When) (p : PortId) (check : Byte) : Keeps s (s.wholeFrame w p check) := by
  unfold State.wholeFrame
  refine .ite (fun _ => s.frameMismatch_keeps p) fun _ => ?_
  split
  · exact s.frameUnknown_keeps p
  · exact request_keeps s w p _ fun _ => refuse_keeps _
  · split
    · exact request_keeps s w p _ fun t => resultOf_keeps t ‹_›
    · exact s.frameUnknown_keeps p

theorem Port.accept_echo (now : Nat) (value : Byte) (q : Port) : (q.accept now value).echo = q.echo := by
  unfold Port.accept
  repeat' split
  all_goals rfl

theorem State.takeByte_keeps (w : When) (p : PortId) (value : Byte) : Keeps s (s.takeByte w p value) := by
  have h : Keeps s (if (s.port p).lateByte s.now then s.modPort p Port.hunt else s) :=
    .ite (fun _ => s.modPort_keeps_of_echo p fun _ => rfl) fun _ => .rfl'
  unfold State.takeByte
  exact .ite (fun _ => h.trans (State.wholeFrame_keeps _ _ _ _)) fun _ =>
    h.trans (State.modPort_keeps_of_echo _ p fun _ => Port.accept_echo _ _ _)

theorem State.byteArrives_keeps (w : When) (p : PortId) (value : Byte) : Keeps s (s.byteArrives w p value) :=
  .ite (fun _ => .rfl') fun _ => .ite (fun _ => s.takeByte_keeps _ _ _) fun _ => .ite (fun _ => s.loseFrame_keeps p) fun _ => .rfl'

theorem State.lineBreak_keeps (p : PortId) : Keeps s
    (if s.held || (s.port p).lineLow then s else (s.portReset p).modPort p (fun q => { q with lineLow := true })) :=
  .ite (fun _ => .rfl') fun _ => (s.portReset_keeps p).trans (State.modPort_keeps_of_echo _ p fun _ => rfl)

/-! ## Power -/

theorem Timeline.initial_sound : Timeline.initial.Sound :=
  ⟨⟨by decide, by decide, by decide, by simp [Timeline.initial], fun _ => rfl⟩, by decide, fun h => absurd rfl h,
    by simp [Timeline.initial], by simp [Timeline.initial], by simp [Timeline.initial], fun _ => rfl⟩

theorem Timeline.initial_leads : Timeline.initial.Leads := by
  intro c
  cases c <;> decide

theorem defaultPoints_monotone : monotonePoints defaultPoints = true := by decide

/-- The values of power-on and of the release of RESET meet every invariant, with phrase memory in its canonical form. -/
theorem State.initial_sound (t : Nat) (guardHigh : Bool) {mem : List Host.Cell} (fill : Fill) (queue : List Instr) :
    (State.initial t guardHigh mem fill queue).CalendarSound ∧ (State.initial t guardHigh mem fill queue).CalendarOrdered ∧
    (State.initial t guardHigh mem fill queue).CurvesSound ∧ (State.initial t guardHigh mem fill queue).ChimeSound ∧
    (State.initial t guardHigh mem fill queue).RailsSound ∧ (State.initial t guardHigh mem fill queue).StageSound := by
  refine ⟨⟨?_, fun p => ?_, ?_, fun p => ?_⟩, ⟨.nil, .nil, .nil, ?_⟩, fun c => ?_, ?_, ⟨fun r => ?_, fun b n hn => ?_⟩,
    fun n hn => ?_, fun u => ?_, ?_, ?_, ?_, ?_⟩
  · simp [State.initial, quotaSum]
  · simp [State.initial, State.useCount]
  · simp [State.initial, State.chimeCount]
  · simp [State.initial, State.port, Port.initial]
  · simp [State.initial]
  · simp [State.initial, State.table, Shaper.initial, CurveTable.initial, defaultPoints_monotone]
  · simp [State.ChimeSound, State.initial, State.voice, Voice.chime]
  · simp [State.initial, State.rail, Rail.initial]
  · simp [State.initial, State.bar, Bar.initial, Bar.strikers] at hn
  · simp [State.initial, State.striker, Striker.initial] at hn
  · simp [State.initial, State.damper, Damper.initial]
  all_goals simp [State.initial, StageControl.initial]

/-- Power-on and the release of RESET leave every invariant, memory and the queue kept. -/
theorem State.initial_keeps (guardHigh : Bool) (fill : Fill) : Keeps s (State.initial s.now guardHigh s.mem fill s.pending) := by
  obtain ⟨hcalendar, hordered, hcurves, hchime, hrails, hstage⟩ :=
    State.initial_sound s.now guardHigh (mem := s.mem) fill s.pending
  exact ⟨⟨id, fun _ => hcalendar, fun _ => hordered, fun _ => hcurves, fun _ => hchime, fun _ => hrails, fun _ => hstage,
    le_rfl, rfl⟩, fun _ => State.timelineSound_iff.2 Timeline.initial_sound, fun _ => Timeline.initial_leads⟩

theorem State.assertReset_keeps : Keeps s s.assertReset := by
  refine (s.withPower_keeps { s.power with inReset := true, fill := s.power.fill.interrupt }).trans
    (State.withPorts_keeps { s with power := _ } fun p hp => ?_)
  rw [Bank.look_mapWith]
  exact hp

theorem State.releaseReset_keeps : Keeps s s.releaseReset := .ite (fun _ => s.initial_keeps _ _) fun _ => .rfl'

/-! ## Events -/

theorem event_keeps (t : Nat) {f : State → State} (h : ∀ u, Keeps u (f u)) : Keeps s (event t f s) :=
  .ite (fun _ => s.reach_keeps _) fun _ => (s.reach_keeps _).trans (h _)

/-- A timer's event, from a state in which its timer runs. -/
theorem timerEvent_keeps (w : When) {due : Option Nat} {f : State → State}
    (h : ∀ t, due.isSome = true → Keeps (s.reach t) (f (s.reach t))) : Keeps s (timerEvent w due f s) := by
  cases due with
  | none => exact s.reach_keeps _
  | some d => exact .ite (fun _ => s.reach_keeps _) fun _ => (s.reach_keeps _).trans (h _ rfl)

theorem State.pacerFires_keeps : Keeps s s.pacerFires := by
  unfold State.pacerFires
  dsimp only
  split
  · exact s.modSense_keeps _
  · exact (s.modSense_keeps _).trans (State.modSense_keeps _ _)

theorem State.railConverted_keeps (mv : Nat) : Keeps s (s.railConverted mv) := by
  unfold State.railConverted
  repeat' split
  · exact ((s.modSense_keeps _).trans (State.railSample_keeps _ _ _)).trans (State.settle_keeps _)
  · exact .rfl'
  · exact .rfl'

theorem State.pickupConverted_keeps (input : Int) : Keeps s (s.pickupConverted input) := by
  unfold State.pickupConverted
  repeat' split
  · exact ((s.modSense_keeps _).trans (State.deliverPickup_keeps _ _ _)).trans (State.settle_keeps _)
  · exact .rfl'
  · exact .rfl'

theorem State.targetReached_keeps (k : SlotId) : Keeps s (s.targetReached k) := by
  unfold State.targetReached
  split
  · exact ((s.modEntry_keeps k (f := fun e => { e with targetReached := true }) fun _ => rfl).trans
      (State.wakeRailOf_keeps _ _)).trans (State.settle_keeps _)
  · exact .rfl'

theorem State.deadlinePassed_keeps (k : SlotId) : Keeps s (s.deadlinePassed k) := by
  unfold State.deadlinePassed
  split
  · exact (s.removeMember_keeps _ _).trans (State.settle_keeps _)
  · exact .rfl'

theorem State.nextCooling_keeps : Keeps s s.nextCooling := s.withShaper_keeps id

theorem State.guardLevel_keeps (high : Bool) : Keeps s (s.guardLevel high) := s.withPower_keeps _

theorem Striker.drive_of_driveDue {k : Striker} (h : k.driveDue.isSome = true) : k.state = .drive := by
  unfold Striker.driveDue at h
  split at h
  · assumption
  · cases h

/-- A power event, an event of the line or a timer's event keeps the invariants. -/
theorem exec_event_keeps {c : Instr} (hc : resultOf c = none) : ∃ t, exec c s = .next t ∧ Keeps s t := by
  cases c <;> try cases hc
  case powerOn w => exact ⟨_, rfl, (s.reach_keeps _).trans (State.initial_keeps _ _ _)⟩
  case phraseMemoryFillEnd w =>
    exact ⟨_, rfl, timerEvent_keeps s w fun t _ =>
      (State.withMem_keeps _ (m := []) fun _ => rfl).trans (State.withPower_keeps _ _)⟩
  case resetAssert w => exact ⟨_, rfl, (s.reach_keeps _).trans (State.assertReset_keeps _)⟩
  case resetRelease w => exact ⟨_, rfl, (s.reach_keeps _).trans (State.releaseReset_keeps _)⟩
  case framingError w p =>
    exact ⟨_, rfl, event_keeps s _ fun u => .ite (fun _ => .rfl') fun _ => u.modPort_keeps_of_echo p fun _ => rfl⟩
  case lineBreak w p => exact ⟨_, rfl, event_keeps s _ fun u => u.lineBreak_keeps p⟩
  case breakEnd w p => exact ⟨_, rfl, event_keeps s _ fun u => u.modPort_keeps_of_echo p fun _ => rfl⟩
  case frameGapTimeout w p =>
    exact ⟨_, rfl, timerEvent_keeps s w fun t _ => State.modPort_keeps_of_echo _ p fun _ => rfl⟩
  case frameLengthAbandon w p length =>
    exact ⟨_, rfl, event_keeps s _ fun u => .ite (fun _ => u.modPort_keeps_of_echo p fun _ => rfl) fun _ => .rfl'⟩
  case startByteOverflow w p =>
    exact ⟨_, rfl, event_keeps s _ fun u => .ite (fun _ => .rfl') fun _ => u.loseFrame_keeps p⟩
  case checkByteMismatch w p => exact ⟨_, rfl, event_keeps s _ fun u => u.frameMismatch_keeps p⟩
  case unknownKind w p => exact ⟨_, rfl, event_keeps s _ fun u => u.frameUnknown_keeps p⟩
  case replySent w p => exact ⟨_, rfl, event_keeps s _ fun u => u.modPort_keeps_of_echo p fun _ => rfl⟩
  case silenceExpiry w p => exact ⟨_, rfl, timerEvent_keeps s w fun t _ => State.portReset_keeps _ p⟩
  case tickExpiry w => exact ⟨_, rfl, timerEvent_keeps s w fun t _ => State.counterExpires_keeps _ _⟩
  case syncOutPulseEnd w => exact ⟨_, rfl, timerEvent_keeps s w fun t _ => State.endPulse_keeps _⟩
  case syncInPulse w => exact ⟨_, rfl, event_keeps s _ fun u => u.syncPulse_keeps _⟩
  case lossTimerExpiry w => exact ⟨_, rfl, timerEvent_keeps s w fun t _ => State.syncLost_keeps _ _⟩
  case targetFireTimeReached w k => exact ⟨_, rfl, timerEvent_keeps s w fun t _ => State.targetReached_keeps _ k⟩
  case deadlineExpiry w k => exact ⟨_, rfl, timerEvent_keeps s w fun t _ => State.deadlinePassed_keeps _ k⟩
  case spacingEnd w r =>
    exact ⟨_, rfl, timerEvent_keeps s w fun t _ => ((State.modRail_keeps_of_same _ r
      (f := fun x => { x with spacingEnd := none }) fun _ => ⟨rfl, rfl⟩).trans
      (State.wake_keeps _ r)).trans (State.settle_keeps _)⟩
  case windowSlotFreeing w r =>
    exact ⟨_, rfl, timerEvent_keeps s w fun t _ => ((State.modRail_keeps_of_fires _ r
      (f := fun x => { x with recent := x.recent.tail }) fun _ => ⟨(List.tail_sublist _).length_le, rfl⟩).trans (State.wake_keeps _ r)).trans (State.settle_keeps _)⟩
  case driveEnd w n =>
    exact ⟨_, rfl, timerEvent_keeps s w fun t hdue =>
      (State.driveEnded_keeps (s.reach t) n (Striker.drive_of_driveDue hdue)).trans (State.settle_keeps _)⟩
  case holdEnd w n =>
    exact ⟨_, rfl, timerEvent_keeps s w fun t _ => (State.holdEnded_keeps _ n _).trans (State.settle_keeps _)⟩
  case recoveryEnd w n =>
    exact ⟨_, rfl, timerEvent_keeps s w fun t _ => (State.recovered_keeps _ n).trans (State.settle_keeps _)⟩
  case coolingStep w =>
    exact ⟨_, rfl, timerEvent_keeps s w fun t _ => ((State.nextCooling_keeps _).trans
      (State.coolAll_keeps _)).trans (State.settle_keeps _)⟩
  case liftEnd w u =>
    exact ⟨_, rfl, timerEvent_keeps s w fun t _ => State.modDamper_keeps_of_sublist _ u fun d => by
      rw [Damper.lifted_holds]⟩
  case minimumOpenExpiry w u =>
    exact ⟨_, rfl, timerEvent_keeps s w fun t _ => State.modDamper_keeps_of_sublist _ u fun d => by
      rw [Damper.minExpired_holds]⟩
  case clampEnd w u =>
    exact ⟨_, rfl, timerEvent_keeps s w fun t _ => State.modDamper_keeps_of_sublist _ u fun d => by
      rw [Damper.clamped_holds]⟩
  case playerStallResume w v =>
    exact ⟨_, rfl, event_keeps s _ fun u => .ite (fun _ => (u.resumePlayer_keeps _ v).trans (State.settle_keeps _)) fun _ => .rfl'⟩
  case scanPacerFiring w => exact ⟨_, rfl, timerEvent_keeps s w fun t _ => State.pacerFires_keeps _⟩
  case railConversionComplete w mv => exact ⟨_, rfl, timerEvent_keeps s w fun t _ => State.railConverted_keeps _ _⟩
  case windowSampleDue w k => exact ⟨_, rfl, timerEvent_keeps s w fun t _ => State.modSense_keeps _ _⟩
  case pickupConversionComplete w input => exact ⟨_, rfl, timerEvent_keeps s w fun t _ => State.pickupConverted_keeps _ _⟩
  case windowClose w k =>
    refine ⟨_, rfl, timerEvent_keeps s w fun t _ => ?_⟩
    split
    · exact (State.closeWindow_keeps _ _).trans (State.settle_keeps _)
    · exact .rfl'
  case chargeExpiry w =>
    refine ⟨_, rfl, timerEvent_keeps s w fun t hdue => State.chargeFailed_keeps _ fun hs => ?_⟩
    obtain ⟨-, -, -, -, hcharge, -⟩ := hs
    exact hcharge hdue
  case dischargeExpiry w =>
    refine ⟨_, rfl, timerEvent_keeps s w fun t hdue => State.dischargeComplete_keeps _ fun hs => ?_⟩
    obtain ⟨-, -, -, -, -, hdischarge⟩ := hs
    exact hdischarge hdue
  case guardEdge w closed =>
    exact ⟨_, rfl, (s.guardLevel_keeps closed).trans (event_keeps _ _ fun u => .ite (fun _ => .rfl') fun _ => u.guardMoved_keeps closed)⟩
  case byteTaken w p value => exact ⟨_, rfl, event_keeps s _ fun u => u.byteArrives_keeps w p value⟩

/-- Every command answers a next state and keeps every invariant. -/
theorem exec_keeps (c : Instr) : ∃ t, exec c s = .next t ∧ Keeps s t := by
  cases hbody : resultOf c with
  | none => exact exec_event_keeps s hbody
  | some body =>
    obtain ⟨hresult, hcode⟩ := resultOf_isSome c
    rw [hbody] at hresult
    obtain ⟨⟨w, p⟩, hport⟩ := Option.isSome_iff_exists.1 hresult.symm
    obtain ⟨kind, hkind⟩ := Option.isSome_iff_exists.1 (hcode.trans hresult.symm)
    obtain ⟨hfits, hlarge⟩ := exec_request s hport hkind hbody
    obtain hlength | hlength := Nat.lt_or_ge 60 (requestPayload c).length
    · exact ⟨_, hlarge hlength, s.reach_keeps _⟩
    · exact ⟨_, hfits hlength, request_keeps s w p kind fun t => resultOf_keeps t hbody⟩

/-- Every step answers a next state that meets the invariants that its state meets. -/
theorem step_keeps : ∃ t, step s = .next t ∧ KeepsRest { s with pending := t.pending } t ∧
    (s.TimelineSound → t.TimelineSound) ∧ (s.LeadsSound → t.LeadsSound) := by
  unfold step
  split
  · rename_i c rest _
    obtain ⟨t, ht, hkeeps⟩ := exec_keeps (s.withQueue rest) c
    have hqueue : s.withQueue rest = { s with pending := t.pending } := by
      rw [hkeeps.pending]
      rfl
    exact ⟨t, ht, hqueue ▸ hkeeps.toKeepsRest, hkeeps.timeline, hkeeps.leads⟩
  · exact ⟨_, rfl, .rfl', id, id⟩

end

/-- A step's next state keeps the invariants. -/
theorem keeps_of_step {s t : State} (h : step s = .next t) : KeepsRest { s with pending := t.pending } t ∧
    (s.TimelineSound → t.TimelineSound) ∧ (s.LeadsSound → t.LeadsSound) := by
  obtain ⟨u, hu, hkeeps⟩ := step_keeps s
  obtain rfl : u = t := by simpa [hu] using h
  exact hkeeps

/-! ## The obligations -/

/-- Settles O52, from the values that a release of RESET gives. -/
theorem resetStateIsSound : Obligations.ResetStateIsSound := by
  obtain ⟨hcalendar, hordered, hcurves, hchime, hrails, hstage⟩ := State.initial_sound 0 true (mem := []) .none []
  exact ⟨rfl, hcalendar, hordered, State.timelineSound_iff.2 Timeline.initial_sound, hcurves, Timeline.initial_leads,
    hchime, hrails, hstage⟩

/-- Settles O53: every command keeps phrase memory in its form. -/
theorem stepKeepsMemorySound : Obligations.StepKeepsMemorySound :=
  fun _ _ hs h => (keeps_of_step h).1.memory hs

/-- Settles O54: every command keeps the bounds. -/
theorem stepKeepsCalendarSound : Obligations.StepKeepsCalendarSound :=
  fun _ _ hs h => (keeps_of_step h).1.calendar hs

/-- Settles O55: every command keeps the calendar's order. -/
theorem stepKeepsCalendarOrdered : Obligations.StepKeepsCalendarOrdered :=
  fun _ _ hs h => (keeps_of_step h).1.ordered hs

/-- Settles O56: every command keeps the timeline consistent. -/
theorem stepKeepsTimelineSound : Obligations.StepKeepsTimelineSound :=
  fun _ _ hs h => (keeps_of_step h).2.1 hs

/-- Settles O57: every command keeps the curve tables and the lead ticks. -/
theorem stepKeepsCurvesAndLeadsSound : Obligations.StepKeepsCurvesAndLeadsSound :=
  fun _ _ h => ⟨(keeps_of_step h).1.curves, (keeps_of_step h).2.2⟩

/-- Settles O58: every command keeps voice 15's form and the rails' counts. -/
theorem stepKeepsChimeAndRailsSound : Obligations.StepKeepsChimeAndRailsSound :=
  fun _ _ h => ⟨(keeps_of_step h).1.chime, (keeps_of_step h).1.rails⟩

/-- Settles O59: every command keeps the safety of the stage. -/
theorem stepKeepsStageSound : Obligations.StepKeepsStageSound :=
  fun _ _ hs h => (keeps_of_step h).1.stage hs

end Sys2Proof.Machine
end

section
/-! SUPPORT. The link's frames: a request read back from its bytes, and what the receiver does with a byte. -/
namespace Sys2Proof.Machine

/-! ## The step -/

/-- While RESET is asserted nothing comes due. -/
theorem State.nextEvent_inReset {s : State} (h : s.power.inReset = true) : s.nextEvent = none := by
  simp [State.nextEvent, State.coming, h, pickComing, earliest]

/-- Settles O1: the queue's front, or the idle step. -/
theorem stepRunsFrontCommand : Obligations.StepRunsFrontCommand := by
  refine ⟨fun c rest s h => by simp only [step, h], fun s h => ?_⟩
  have hidle : step s = .next (s.withQueue s.nextEvent.toList) := by simp only [step, h]
  refine ⟨hidle, fun hreset => ?_⟩
  rw [hidle, State.nextEvent_inReset hreset, State.withQueue, Option.toList_none, ← h]

/-! ## Figures and their bytes (R195) -/

@[simp] theorem half_extract (h : Half) : half (h.extractLsb' 0 8) (h.extractLsb' 8 8) = h := by
  refine BitVec.eq_of_getLsbD_eq fun i hi => ?_
  simp only [half, BitVec.getLsbD_append, BitVec.getLsbD_extractLsb']
  split
  · simp [*]
  · rw [show 8 + (i - 8) = i by omega, decide_eq_true (by omega), Bool.true_and]

@[simp] theorem quad_extract (q : Quad) :
    quad (q.extractLsb' 0 8) (q.extractLsb' 8 8) (q.extractLsb' 16 8) (q.extractLsb' 24 8) = q := by
  refine BitVec.eq_of_getLsbD_eq fun i hi => ?_
  simp only [quad, BitVec.getLsbD_append, BitVec.getLsbD_extractLsb']
  repeat' split
  · simp [*]
  · rw [show 8 + (i - 8) = i by omega, decide_eq_true (by omega), Bool.true_and]
  · rw [show 16 + (i - 8 - 8) = i by omega, decide_eq_true (by omega), Bool.true_and]
  · rw [show 24 + (i - 8 - 8 - 8) = i by omega, decide_eq_true (by omega), Bool.true_and]

@[simp] theorem halvesOf_bytesOfHalves (l : List Half) : halvesOf (bytesOfHalves l) = l := by
  induction l with
  | nil => rfl
  | cons h rest ih => simp [bytesOfHalves, halfBytes, halvesOf, ih]

/-! ## Reading a request back -/

theorem readSetup_setCurve {w : When} {p : PortId} {table first : Byte} {points : List Half}
    (h : pointsAllowed points = true) :
    readSetup w p 0x08#8 (table :: first :: bytesOfHalves points) = .request (.setCurve w p table first points) := by
  simp [readSetup, h, Laws.FitsFrame.length_bytesOfHalves]

theorem readPhrase_load {w : When} {p : PortId} {data : List Byte} (h : dataAllowed data = true) :
    readPhrase w p 0x31#8 data = .request (.load w p data) := by
  simp [readPhrase, h]

theorem readPhrase_push {w : When} {p : PortId} {voice : Byte} {steps : List Byte} (h : stepsAllowed steps = true) :
    readPhrase w p 0x37#8 (voice :: steps) = .request (.push w p voice steps) := by
  simp [readPhrase, h]

/-- Settles O3: each kind's fields stand in the payload in the order in which its reader takes them; the three kinds of varying
length by the lengths they allow. -/
theorem requestFramesReadBack : Obligations.RequestFramesReadBack := by
  intro c w p kind hwf hport hkind
  cases c <;> cases hport <;> cases hkind
  case setCurve => exact readSetup_setCurve hwf
  case load => exact readPhrase_load hwf
  case push => exact readPhrase_push hwf
  all_goals simp [readRequest, readSetup, readConductor, readStroke, readPhrase, readStage, readStatus, requestPayload, halfBytes,
    quadBytes]

/-- The payload of a request that can be sent fits in a frame. -/
theorem requestPayload_length_le {c : Instr} (hwf : c.wellFormed = true) : (requestPayload c).length ≤ 60 := by
  cases c
  case setCurve => exact (Laws.FitsFrame.setCurve _ _ _ _ _).2 hwf
  case load => exact (Laws.FitsFrame.load _ _ _).2 hwf
  case push => exact (Laws.FitsFrame.push _ _ _ _).2 hwf
  all_goals exact Nat.le_of_ble_eq_true rfl

end Sys2Proof.Machine
end

section
/-! SUPPORT. The receiver (R167 to R169): what a port makes of a byte, of a whole frame, and of a frame it cannot take. -/
namespace Sys2Proof.Machine

/-! ## A byte, by the receiver's state (R167) -/

namespace Port
variable {now : Nat} {b : Byte} {q : Port}

theorem accept_start (h : q.receiver = .hunt) (hb : b = 0xC5#8) :
    q.accept now b = { q with receiver := .length, gapStart := now } := by
  simp [accept, h, hb, startByte]

theorem accept_noise (h : q.receiver = .hunt) (hb : b ≠ 0xC5#8) : q.accept now b = q := by
  simp [accept, h, hb, startByte]

theorem accept_length (h : q.receiver = .length) (hb : b.toNat ≤ 60) :
    q.accept now b = { q with receiver := .kind, frameLength := b.toNat, gapStart := now } := by
  simp [accept, h, hb]

theorem accept_length_above (h : q.receiver = .length) (hb : 60 < b.toNat) : q.accept now b = q.hunt := by
  simp [accept, h, hb]

theorem accept_kind_bare (h : q.receiver = .kind) (hlength : q.frameLength = 0) :
    q.accept now b = { q with receiver := .check, frameKind := b, gapStart := now } := by
  simp [accept, h, hlength]

theorem accept_kind (h : q.receiver = .kind) (hlength : q.frameLength ≠ 0) :
    q.accept now b = { q with receiver := .payload, frameKind := b, gapStart := now } := by
  simp [accept, h, hlength]

theorem accept_payload (h : q.receiver = .payload) (hlength : q.framePayload.length + 1 < q.frameLength) :
    q.accept now b = { q with framePayload := q.framePayload ++ [b], gapStart := now } := by
  simp [accept, h, hlength]

theorem accept_payload_last (h : q.receiver = .payload) (hlength : q.framePayload.length + 1 = q.frameLength) :
    q.accept now b = { q with receiver := .check, framePayload := q.framePayload ++ [b], gapStart := now } := by
  simp [accept, h, hlength]

theorem lateByte_of_inTime (h : q.receiver = .hunt ∨ now ≤ q.gapStart + 210) : q.lateByte now = false := by
  obtain h | h := h <;> simp [lateByte, h]

theorem lateByte_of_late (h : q.receiver ≠ .hunt) (hlate : q.gapStart + 210 < now) : q.lateByte now = true := by
  simp [lateByte, h, hlate]

end Port

section
variable {w : When} {p : PortId} {b : Byte} {s : State}

theorem exec_byteTaken (hawake : s.power.inReset = false) :
    exec (.byteTaken w p b) s = .next ((s.reach w.time).byteArrives w p b) :=
  congrArg Host.Outcome.next (event_awake hawake)

theorem State.modPort_modPort (s : State) (p : PortId) (f g : Port → Port) :
    (s.modPort p f).modPort p g = s.modPort p (fun q => g (f q)) := by
  simp [State.modPort, State.port]

theorem State.takeByte_inTime (h : (s.port p).lateByte s.now = false) : s.takeByte w p b =
    if (s.port p).receiver = .check then s.wholeFrame w p b else s.modPort p (Port.accept s.now b) := by
  simp [State.takeByte, h]

theorem State.takeByte_late (h : (s.port p).lateByte s.now = true) :
    s.takeByte w p b = s.modPort p (fun q => q.hunt.accept s.now b) := by
  have hunting : ((s.modPort p Port.hunt).port p).receiver ≠ .check := by simp [Port.hunt]
  dsimp only [State.takeByte]
  rw [if_pos h, if_neg hunting, State.modPort_modPort]
  rfl

/-- A byte that the receiver takes. -/
theorem exec_byteTaken_taken (hready : s.ready p = true)
    (hlistens : ∀ t, (s.port p).highSince = some t → t + 11 ≤ max s.now w.time) :
    exec (.byteTaken w p b) s = .next ((s.reach w.time).takeByte w p b) := by
  have hlistening : ((s.reach w.time).port p).listens (s.reach w.time).now = true := Port.listens_iff.2 hlistens
  have hready' : (s.reach w.time).ready p = true := hready
  rw [exec_byteTaken ((s.ready_iff p).1 hready).1, State.byteArrives, hlistening, hready']
  rfl

/-- A byte that the receiver takes in time, outside CHECK. -/
theorem exec_byteTaken_accepted (hready : s.ready p = true)
    (hlistens : ∀ t, (s.port p).highSince = some t → t + 11 ≤ max s.now w.time) (hcheck : (s.port p).receiver ≠ .check)
    (htime : (s.port p).receiver = .hunt ∨ max s.now w.time ≤ (s.port p).gapStart + 210) :
    exec (.byteTaken w p b) s = .next ((s.reach w.time).modPort p (Port.accept (max s.now w.time) b)) := by
  have hlate : ((s.reach w.time).port p).lateByte (s.reach w.time).now = false := Port.lateByte_of_inTime htime
  rw [exec_byteTaken_taken hready hlistens, State.takeByte_inTime hlate]
  exact congrArg Host.Outcome.next (if_neg hcheck)

/-- A byte that comes after a gap is taken in HUNT. -/
theorem exec_byteTaken_late (hready : s.ready p = true)
    (hlistens : ∀ t, (s.port p).highSince = some t → t + 11 ≤ max s.now w.time) (hhunt : (s.port p).receiver ≠ .hunt)
    (htime : (s.port p).gapStart + 210 < max s.now w.time) :
    exec (.byteTaken w p b) s =
      .next ((s.reach w.time).modPort p (fun q => q.hunt.accept (max s.now w.time) b)) := by
  have hlate : ((s.reach w.time).port p).lateByte (s.reach w.time).now = true := Port.lateByte_of_late hhunt htime
  rw [exec_byteTaken_taken hready hlistens, State.takeByte_late hlate]
  rfl

/-- The byte in CHECK, in time, makes a whole frame. -/
theorem exec_byteTaken_whole (hready : s.ready p = true)
    (hlistens : ∀ t, (s.port p).highSince = some t → t + 11 ≤ max s.now w.time) (hcheck : (s.port p).receiver = .check)
    (htime : max s.now w.time ≤ (s.port p).gapStart + 210) :
    exec (.byteTaken w p b) s = .next ((s.reach w.time).wholeFrame w p b) := by
  have hlate : ((s.reach w.time).port p).lateByte (s.reach w.time).now = false := Port.lateByte_of_inTime (.inr htime)
  rw [exec_byteTaken_taken hready hlistens, State.takeByte_inTime hlate]
  exact congrArg Host.Outcome.next (if_pos hcheck)

/-- A byte that comes while the receiver waits for a high line is not taken. -/
theorem exec_byteTaken_deaf (hawake : s.power.inReset = false) {t : Nat} (hhigh : (s.port p).highSince = some t)
    (hsoon : max s.now w.time < t + 11) : exec (.byteTaken w p b) s = .next (s.reach w.time) := by
  have hdeaf : ((s.reach w.time).port p).listens (s.reach w.time).now = false := by
    rw [← Bool.not_eq_true, Port.listens_iff]
    exact fun h => absurd (h t hhigh) (Nat.not_le.2 hsoon)
  rw [exec_byteTaken hawake, State.byteArrives, hdeaf]
  rfl

/-- A byte that comes while READY is deasserted is discarded. -/
theorem exec_byteTaken_discarded (hawake : s.power.inReset = false) (hready : s.ready p = false) (hb : b ≠ 0xC5#8) :
    exec (.byteTaken w p b) s = .next (s.reach w.time) := by
  rw [exec_byteTaken hawake]
  obtain ⟨-, h⟩ | ⟨-, hready', -⟩ | ⟨-, -, h⟩ := State.byteArrives_cases w p b (s.reach w.time)
  · rw [h]
  · rw [State.ready_reach, hready] at hready'
    cases hready'
  · rw [h]
    exact congrArg Host.Outcome.next (if_neg hb)

end

/-- Settles O5, by the receiver's state, and by the gap. -/
theorem receiverFollowsItsTable : Obligations.ReceiverFollowsItsTable := by
  rintro w p b s q hready rfl now after hunting inTime hlistens
  have haccepted : ∀ x, (s.port p).receiver ≠ .check → ((s.port p).receiver = .hunt ∨ inTime) →
      Port.accept now b (s.port p) = x → exec (.byteTaken w p b) s = after x := fun x hcheck htime hx =>
    hx ▸ exec_byteTaken_accepted hready hlistens hcheck htime
  have hlate : ∀ x, (s.port p).receiver ≠ .hunt → ¬ inTime → Port.accept now b (s.port p).hunt = x →
      exec (.byteTaken w p b) s = after x := fun x hhunt htime hx =>
    hx ▸ exec_byteTaken_late hready hlistens hhunt (Nat.not_le.1 htime)
  refine ⟨fun h hb => ?_, fun h hb => ?_, fun h ht hb => ?_, fun h ht hb => ?_, fun h ht hl => ?_, fun h ht hl => ?_,
    fun h ht hl => ?_, fun h ht hl => ?_, fun h ht hb => ?_, fun h ht hb => ?_⟩
  · exact haccepted _ (by simp [h]) (.inl h) (Port.accept_start h hb)
  · exact haccepted _ (by simp [h]) (.inl h) (Port.accept_noise h hb)
  · exact haccepted _ (by simp [h]) (.inr ht) (Port.accept_length h hb)
  · exact haccepted _ (by simp [h]) (.inr ht) (Port.accept_length_above h hb)
  · exact haccepted _ (by simp [h]) (.inr ht) (Port.accept_kind_bare h hl)
  · exact haccepted _ (by simp [h]) (.inr ht) (Port.accept_kind h hl)
  · exact haccepted _ (by simp [h]) (.inr ht) (Port.accept_payload h hl)
  · exact haccepted _ (by simp [h]) (.inr ht) (Port.accept_payload_last h hl)
  · exact hlate _ h ht (Port.accept_start rfl hb)
  · exact hlate _ h ht (Port.accept_noise rfl hb)

/-! ## A whole frame (R168) -/

section
variable {w : When} {p : PortId} {kind : Byte} {s : State}

theorem exec_of_request {c : Instr} {body : State → Result} (hwf : c.wellFormed = true)
    (hport : requestPort c = some (w, p)) (hkind : kindCode c = some kind) (hbody : resultOf c = some body) :
    exec c s = .next (request w p kind body s) :=
  (exec_request s hport hkind hbody).1 (requestPayload_length_le hwf)

/-- A frame answered with UNKNOWN. -/
theorem frameUnknown_ready (hready : s.ready p = true) :
    (s.reach w.time).frameUnknown p = s.answering w p 0x7F#8 .unknown [] := by
  have hready' : (s.reach w.time).ready p = true := hready
  rw [State.frameUnknown, if_pos hready']
  rfl

/-- A frame answered with FRAME. -/
theorem frameMismatch_ready (hready : s.ready p = true) :
    (s.reach w.time).frameMismatch p = (s.reach w.time).modPort p (Port.refuseFrame .frame) :=
  if_pos (show (s.reach w.time).ready p = true from hready)

end

/-- What a frame's reading answers speaks of the frame: a request of its port and moment, of its kind, that a sender can give. -/
def Describes (w : When) (p : PortId) (kind : Byte) : FrameRead → Prop
  | .request c => requestPort c = some (w, p) ∧ kindCode c = some kind ∧ c.wellFormed = true
  | _ => True

section
variable {w : When} {p : PortId} {kind : Byte} {payload : List Byte}

theorem describes_of_toNat {c : Instr} {n : Nat} (hn : kind.toNat = n) (hport : requestPort c = some (w, p))
    (hkind : kindCode c = some (BitVec.ofNat 8 n)) (hwf : c.wellFormed = true) :
    Describes w p kind (FrameRead.request c) := by
  refine ⟨hport, ?_, hwf⟩
  rw [hkind, ← hn, BitVec.ofNat_toNat, BitVec.setWidth_eq]

theorem readSetup_describes : Describes w p kind (readSetup w p kind payload) := by
  unfold readSetup
  split
  case h_8 hn =>
    split
    · split
      · rename_i h
        exact describes_of_toNat hn rfl rfl (Bool.and_eq_true _ _ ▸ h).2
      · trivial
    · trivial
  case h_13 => trivial
  all_goals
    rename_i hn
    split
    · exact describes_of_toNat hn rfl rfl rfl
    · trivial

theorem readConductor_describes : Describes w p kind (readConductor w p kind payload) := by
  unfold readConductor
  split
  case h_9 => trivial
  all_goals
    rename_i hn
    split
    · exact describes_of_toNat hn rfl rfl rfl
    · trivial

theorem readStroke_describes : Describes w p kind (readStroke w p kind payload) := by
  unfold readStroke
  split
  case h_10 => trivial
  all_goals
    rename_i hn
    split
    · exact describes_of_toNat hn rfl rfl rfl
    · trivial

theorem readPhrase_describes : Describes w p kind (readPhrase w p kind payload) := by
  unfold readPhrase
  split
  case h_2 hn =>
    split
    · exact describes_of_toNat hn rfl rfl ‹_›
    · trivial
  case h_8 hn =>
    split
    · split
      · exact describes_of_toNat hn rfl rfl ‹_›
      · trivial
    · trivial
  case h_10 => trivial
  all_goals
    rename_i hn
    split
    · exact describes_of_toNat hn rfl rfl rfl
    · trivial

theorem readStage_describes : Describes w p kind (readStage w p kind payload) := by
  unfold readStage
  split
  case h_8 => trivial
  all_goals
    rename_i hn
    split
    · exact describes_of_toNat hn rfl rfl rfl
    · trivial

theorem readStatus_describes : Describes w p kind (readStatus w p kind payload) := by
  unfold readStatus
  split
  case h_12 => trivial
  all_goals
    rename_i hn
    split
    · exact describes_of_toNat hn rfl rfl rfl
    · trivial

theorem readRequest_describes : Describes w p kind (readRequest w p kind payload) := by
  unfold readRequest
  split
  · exact readSetup_describes
  · exact readConductor_describes
  · exact readStroke_describes
  · exact readPhrase_describes
  · exact readStage_describes
  · exact readStage_describes
  · exact readStatus_describes
  · trivial

/-- What is read from a frame is a request with a body. -/
theorem readRequest_request {c : Instr} (h : readRequest w p kind payload = .request c) :
    ∃ body, resultOf c = some body ∧ ∀ s, exec c s = .next (request w p kind body s) := by
  have hdescribes : Describes w p kind (FrameRead.request c) := h ▸ readRequest_describes
  obtain ⟨hport, hkind, hwf⟩ := hdescribes
  obtain ⟨body, hbody⟩ := Option.isSome_iff_exists.1 ((resultOf_isSome c).1.trans (Option.isSome_iff_exists.2 ⟨_, hport⟩))
  exact ⟨body, hbody, fun s => exec_of_request (s := s) hwf hport hkind hbody⟩

end

/-! ## A whole frame, by what is read from it -/

section
variable {w : When} {p : PortId} {b : Byte} {s : State}

theorem State.wholeFrame_mismatch (h : crc8 (s.port p).frameBody ≠ b) : s.wholeFrame w p b = s.frameMismatch p := if_pos h

theorem State.wholeFrame_unknown (hcrc : crc8 (s.port p).frameBody = b)
    (h : readRequest w p (s.port p).frameKind (s.port p).framePayload = .unknown) :
    s.wholeFrame w p b = s.frameUnknown p := by
  simp [State.wholeFrame, hcrc, h]

theorem State.wholeFrame_badLength (hcrc : crc8 (s.port p).frameBody = b)
    (h : readRequest w p (s.port p).frameKind (s.port p).framePayload = .badLength) :
    s.wholeFrame w p b = request w p (s.port p).frameKind (refuse .length) s := by
  simp [State.wholeFrame, hcrc, h]

theorem State.wholeFrame_request {c : Instr} (hcrc : crc8 (s.port p).frameBody = b)
    (h : readRequest w p (s.port p).frameKind (s.port p).framePayload = .request c) :
    .next (s.wholeFrame w p b) = exec c s := by
  obtain ⟨body, hbody, hexec⟩ := readRequest_request h
  simp [State.wholeFrame, hcrc, h, hbody, hexec]

end

theorem State.reach_reach (s : State) (t : Nat) : (s.reach t).reach t = s.reach t := by
  simp [State.reach]

theorem request_reach (w : When) (p : PortId) (kind : Byte) (body : State → Result) (s : State) :
    request w p kind body (s.reach w.time) = request w p kind body s := by
  simp only [request, State.reach_reach]

/-- Settles O6, in R168's order. -/
theorem wholeFramesAreChecked : Obligations.WholeFramesAreChecked := by
  rintro w p b s q hready rfl body mismatch
  have hawake := ((s.ready_iff p).1 hready).1
  have hmismatch : .next ((s.reach w.time).frameMismatch p) = mismatch :=
    congrArg Host.Outcome.next (frameMismatch_ready hready)
  have hunknown : (Host.Outcome.next ((s.reach w.time).frameUnknown p) : Answer) = .next (s.answering w p 0x7F#8 .unknown []) :=
    congrArg Host.Outcome.next (frameUnknown_ready hready)
  refine ⟨?_, ?_, fun hcheck htime hlistens => ?_⟩
  · exact (congrArg Host.Outcome.next (event_awake hawake)).trans hmismatch
  · exact (congrArg Host.Outcome.next (event_awake hawake)).trans hunknown
  · rw [exec_byteTaken_whole hready hlistens hcheck htime]
    refine ⟨fun hcrc => ?_, fun hcrc hread => ?_, fun hcrc hread => ?_, fun c hcrc hread => ?_⟩
    · rw [State.wholeFrame_mismatch (s := s.reach w.time) hcrc, hmismatch]
    · rw [State.wholeFrame_unknown (s := s.reach w.time) hcrc hread, hunknown]
    · rw [State.wholeFrame_badLength (s := s.reach w.time) hcrc hread, request_reach]
      exact congrArg Host.Outcome.next (request_refused hready rfl)
    · obtain ⟨body, hbody, hexec⟩ := readRequest_request hread
      rw [State.wholeFrame_request (s := s.reach w.time) hcrc hread, hexec, hexec, request_reach]

/-! ## A frame's bytes one after another (R167, R168) -/

/-- A port while a frame comes in. -/
def Port.inFrame (r : Receiver) (length : Nat) (kind : Byte) (payload : List Byte) (now : Nat) (q : Port) : Port :=
  { q with receiver := r, frameLength := length, frameKind := kind, framePayload := payload, gapStart := now }

/-- The part while a frame comes in on a port, all its bytes at one moment. -/
def State.inFrame (w : When) (p : PortId) (r : Receiver) (length : Nat) (kind : Byte) (payload : List Byte) (s : State) : State :=
  (s.reach w.time).modPort p (Port.inFrame r length kind payload (max s.now w.time))

theorem receiveBytes_cons {w : When} {p : PortId} {b : Byte} {s t : State} (rest : List Byte)
    (h : exec (.byteTaken w p b) s = .next t) : receiveBytes w p (b :: rest) s = receiveBytes w p rest t := by
  simp only [receiveBytes, h]

section
variable {w : When} {p : PortId} {s : State} {r r' : Receiver} {n n' : Nat} {kind kind' b : Byte} {l l' : List Byte}

theorem State.inFrame_ready : (s.inFrame w p r n kind l).ready p = s.ready p := by
  rw [Bool.eq_iff_iff, State.ready_iff, State.ready_iff]
  simp [State.inFrame, Port.inFrame]

theorem State.inFrame_now : max (s.inFrame w p r n kind l).now w.time = max s.now w.time := by
  simp [State.inFrame]

theorem State.inFrame_port : (s.inFrame w p r n kind l).port p = (s.port p).inFrame r n kind l (max s.now w.time) := by
  simp [State.inFrame]

theorem State.inFrame_taken : (s.inFrame w p r n kind l).taken w p =
    (s.modPort p (fun q => { q with gapStart := max s.now w.time })).taken w p := by
  simp [State.taken, State.inFrame, State.modPort, State.port, State.reach, Port.hunt, Port.restartSilence, Port.inFrame]

/-- A byte of the frame that moves the receiver on. -/
theorem exec_byteTaken_inFrame (hready : s.ready p = true)
    (hlistens : ∀ t, (s.port p).highSince = some t → t + 11 ≤ max s.now w.time) (hr : r ≠ .check)
    (haccept : ((s.port p).inFrame r n kind l (max s.now w.time)).accept (max s.now w.time) b =
      (s.port p).inFrame r' n' kind' l' (max s.now w.time)) :
    exec (.byteTaken w p b) (s.inFrame w p r n kind l) = .next (s.inFrame w p r' n' kind' l') := by
  have hport := State.inFrame_port (s := s) (w := w) (p := p) (r := r) (n := n) (kind := kind) (l := l)
  rw [exec_byteTaken_accepted (State.inFrame_ready.trans hready) (by rw [hport, State.inFrame_now]; exact hlistens)
    (by rw [hport]; exact hr) (by rw [hport, State.inFrame_now]; exact .inr (Nat.le_add_right _ _)), State.inFrame_now]
  have hreach : (s.inFrame w p r n kind l).reach w.time = s.inFrame w p r n kind l := by
    simp [State.inFrame, State.reach, State.modPort, State.port]
  rw [hreach, State.inFrame, State.modPort_modPort]
  exact congrArg (fun q => Host.Outcome.next { s.reach w.time with ports := s.ports.put p q }) haccept

/-- The payload's bytes, from the first that is still to come. -/
theorem receiveBytes_payload (hready : s.ready p = true)
    (hlistens : ∀ t, (s.port p).highSince = some t → t + 11 ≤ max s.now w.time) (rest : List Byte) {more : List Byte}
    (hmore : more ≠ []) (hlength : l.length + more.length = n) :
    receiveBytes w p (more ++ rest) (s.inFrame w p .payload n kind l) =
      receiveBytes w p rest (s.inFrame w p .check n kind (l ++ more)) := by
  induction more generalizing l with
  | nil => exact absurd rfl hmore
  | cons b more ih =>
    rw [List.length_cons] at hlength
    cases more with
    | nil =>
      exact receiveBytes_cons rest (exec_byteTaken_inFrame hready hlistens (by simp)
        (Port.accept_payload_last rfl (show l.length + 1 = n by simpa using hlength)))
    | cons c more =>
      rw [List.length_cons] at hlength
      refine (receiveBytes_cons _ (exec_byteTaken_inFrame hready hlistens (by simp)
        (Port.accept_payload rfl (show l.length + 1 < n by omega)))).trans ?_
      have hrest := ih (l := l ++ [b]) (by simp) (by simp; omega)
      rwa [List.append_assoc] at hrest

/-- The kind byte and the payload. -/
theorem receiveBytes_kind (hready : s.ready p = true)
    (hlistens : ∀ t, (s.port p).highSince = some t → t + 11 ≤ max s.now w.time) (rest payload : List Byte) :
    receiveBytes w p (kind :: (payload ++ rest)) (s.inFrame w p .kind payload.length kind' []) =
      receiveBytes w p rest (s.inFrame w p .check payload.length kind payload) := by
  by_cases hpayload : payload = []
  · subst hpayload
    exact receiveBytes_cons rest (exec_byteTaken_inFrame hready hlistens (by simp) (Port.accept_kind_bare rfl rfl))
  · have hlength : payload.length ≠ 0 := by simpa using hpayload
    rw [receiveBytes_cons _ (exec_byteTaken_inFrame hready hlistens (by simp) (Port.accept_kind rfl hlength))]
    exact receiveBytes_payload (l := []) hready hlistens rest hpayload (Nat.zero_add _)

/-- The bytes of a frame up to its check byte. -/
theorem receiveBytes_frame (hready : s.ready p = true)
    (hlistens : ∀ t, (s.port p).highSince = some t → t + 11 ≤ max s.now w.time) (hhunt : (s.port p).receiver = .hunt)
    (hempty : (s.port p).framePayload = []) {payload : List Byte} (hlength : payload.length ≤ 60) (rest : List Byte) :
    receiveBytes w p (0xC5#8 :: BitVec.ofNat 8 payload.length :: kind :: (payload ++ rest)) s =
      receiveBytes w p rest (s.inFrame w p .check payload.length kind payload) := by
  have hbyte : (BitVec.ofNat 8 payload.length).toNat = payload.length := by
    rw [BitVec.toNat_ofNat]
    omega
  have hstart : exec (.byteTaken w p 0xC5#8) s =
      .next (s.inFrame w p .length (s.port p).frameLength (s.port p).frameKind []) := by
    rw [exec_byteTaken_accepted hready hlistens (by simp [hhunt]) (.inl hhunt), ← hempty]
    exact congrArg (fun q => Host.Outcome.next { s.reach w.time with ports := s.ports.put p q })
      (Port.accept_start hhunt rfl)
  rw [receiveBytes_cons _ hstart, receiveBytes_cons _ (exec_byteTaken_inFrame hready hlistens (by simp)
    (Port.accept_length (q := (s.port p).inFrame .length _ _ [] _) rfl (by rw [hbyte]; exact hlength))), hbyte]
  exact receiveBytes_kind hready hlistens rest payload

end

/-- Settles O4, byte by byte. -/
theorem frameOnTheLineIsTheRequest : Obligations.FrameOnTheLineIsTheRequest := by
  refine ⟨fun kind payload => rfl, fun w p => congrArg some Tests.test_crc_of_run, fun c w p kind s hwf hport hkind hready hhunt hempty hlistens => ?_⟩
  obtain ⟨body, hbody⟩ := Option.isSome_iff_exists.1 ((resultOf_isSome c).1.trans (Option.isSome_iff_exists.2 ⟨_, hport⟩))
  have hread := requestFramesReadBack c w p kind hwf hport hkind
  have hframe := receiveBytes_frame (kind := kind) hready hlistens hhunt hempty (requestPayload_length_le hwf)
    [crc8 (BitVec.ofNat 8 (requestPayload c).length :: kind :: requestPayload c)]
  have hin := State.inFrame_port (s := s) (w := w) (p := p) (r := .check) (n := (requestPayload c).length) (kind := kind)
    (l := requestPayload c)
  have hwhole := exec_byteTaken_whole (b := crc8 (BitVec.ofNat 8 (requestPayload c).length :: kind :: requestPayload c))
    (State.inFrame_ready.trans hready) (by rw [hin, State.inFrame_now]; exact hlistens) (by rw [hin]; rfl)
    (by rw [hin, State.inFrame_now]; exact Nat.le_add_right _ _)
  have hready' : (s.modPort p (fun q => { q with gapStart := max s.now w.time })).ready p = true := by
    rw [State.ready_iff] at hready ⊢
    simpa using hready
  have hrequest := State.wholeFrame_request (s := (s.inFrame w p .check (requestPayload c).length kind (requestPayload c)).reach
    w.time) (b := crc8 (BitVec.ofNat 8 (requestPayload c).length :: kind :: requestPayload c)) (w := w) (p := p) (c := c)
    (by rw [State.reach_port, hin]; rfl) (by rw [State.reach_port, hin]; exact hread)
  calc receiveBytes w p (frameBytes kind (requestPayload c)) s
      = exec c ((s.inFrame w p .check (requestPayload c).length kind (requestPayload c)).reach w.time) :=
        hframe.trans ((receiveBytes_cons [] hwhole).trans hrequest)
    _ = .next (request w p kind body (s.inFrame w p .check (requestPayload c).length kind (requestPayload c))) := by
        rw [exec_of_request hwf hport hkind hbody, request_reach]
    _ = exec c (s.modPort p (fun q => { q with gapStart := max s.now w.time })) := by
        rw [exec_of_request hwf hport hkind hbody, request_ready (State.inFrame_ready.trans hready), request_ready hready',
          State.inFrame_taken]

end Sys2Proof.Machine
end

section
/-! SUPPORT. Lost frames, the line's events, power-on and RESET (R163 to R169). -/
namespace Sys2Proof.Machine

/-! ## Frames while READY is deasserted (R165, R169) -/

section
variable {w : When} {p : PortId} {s : State}

theorem State.ready_of_reply (h : (s.port p).reply.isSome = true) : s.ready p = false := by
  rw [← Bool.not_eq_true, State.ready_iff]
  rintro ⟨-, -, -, hreply⟩
  simp [hreply] at h

theorem State.ready_of_fill (h : s.power.fill ≠ .none) : s.ready p = false := by
  rw [← Bool.not_eq_true, State.ready_iff]
  exact fun hready => h hready.2.1

theorem State.ready_of_inReset (h : s.power.inReset = true) : s.ready p = false := by
  simp [State.ready, State.held, h]

theorem State.loseFrame_replying (hawake : s.power.inReset = false) (hfill : s.power.fill = .none)
    (hlow : (s.port p).lineLow = false) : s.loseFrame p = s.modPort p (fun q => { q with overflow := true }) := by
  simp [State.loseFrame, State.held, hawake, hfill, hlow]

theorem State.loseFrame_held (h : s.held = true) : s.loseFrame p = s := by
  simp [State.loseFrame, h]

theorem State.held_of_fill (h : s.power.fill ≠ .none) : s.held = true := by
  simp [State.held, h]

/-- A request that can be sent, with READY deasserted, is lost. -/
theorem exec_request_lost {c : Instr} (hwf : c.wellFormed = true) (hport : requestPort c = some (w, p))
    (hready : s.ready p = false) : exec c s = .next ((s.reach w.time).loseFrame p) := by
  have hsome : (requestPort c).isSome = true := Option.isSome_iff_exists.2 ⟨_, hport⟩
  obtain ⟨body, hbody⟩ := Option.isSome_iff_exists.1 ((resultOf_isSome c).1.trans hsome)
  obtain ⟨kind, hkind⟩ := Option.isSome_iff_exists.1 ((resultOf_isSome c).2.trans hsome)
  rw [exec_of_request hwf hport hkind hbody, request_lost hready]

/-- A start byte that the receiver would hear, with READY deasserted. -/
theorem exec_byteTaken_start_lost (hawake : s.power.inReset = false) (hready : s.ready p = false)
    (hlistens : ∀ t, (s.port p).highSince = some t → t + 11 ≤ max s.now w.time) :
    exec (.byteTaken w p 0xC5#8) s = .next ((s.reach w.time).loseFrame p) := by
  rw [exec_byteTaken hawake]
  obtain ⟨hdeaf, -⟩ | ⟨-, hready', -⟩ | ⟨-, -, h⟩ := State.byteArrives_cases w p 0xC5#8 (s.reach w.time)
  · exact absurd (Port.listens_iff.2 hlistens) (by simpa using hdeaf)
  · rw [State.ready_reach, hready] at hready'
    cases hready'
  · rw [h]
    rfl

/-- During the fill every byte is discarded. -/
theorem exec_byteTaken_fill (hawake : s.power.inReset = false) (hfill : s.power.fill ≠ .none) (b : Byte) :
    exec (.byteTaken w p b) s = .next (s.reach w.time) := by
  have hready : (s.reach w.time).ready p = false := State.ready_of_fill hfill
  have hheld : (s.reach w.time).held = true := State.held_of_fill hfill
  rw [exec_byteTaken hawake]
  obtain ⟨-, h⟩ | ⟨-, hready', -⟩ | ⟨-, -, h⟩ := State.byteArrives_cases w p b (s.reach w.time)
  · rw [h]
  · rw [hready] at hready'
    cases hready'
  · rw [h, State.loseFrame_held hheld, ite_self]

end

/-- Settles O7: with a reply in progress, and during the fill. -/
theorem framesAreLostWhileNotReady : Obligations.FramesAreLostWhileNotReady := by
  refine fun w p s hawake => ⟨fun hfill hlow hreply => ?_, fun hfill => ?_⟩
  · have hready := State.ready_of_reply hreply
    have hflag : (s.reach w.time).loseFrame p = (s.reach w.time).modPort p (fun q => { q with overflow := true }) :=
      State.loseFrame_replying hawake hfill hlow
    have hstart : exec (.startByteOverflow w p) s = .next ((s.reach w.time).loseFrame p) := by
      refine congrArg Host.Outcome.next ((event_awake hawake).trans (if_neg ?_))
      rw [State.ready_reach, hready]
      decide
    refine ⟨hstart.trans (congrArg _ hflag), fun hlistens => ?_, fun b hb => ?_, fun c hwf hport => ?_⟩
    · exact (exec_byteTaken_start_lost hawake hready hlistens).trans (congrArg _ hflag)
    · exact exec_byteTaken_discarded hawake hready hb
    · exact (exec_request_lost hwf hport hready).trans (congrArg _ hflag)
  · refine ⟨fun b => exec_byteTaken_fill hawake hfill b, fun c hwf hport => ?_⟩
    exact (exec_request_lost hwf hport (State.ready_of_fill hfill)).trans
      (congrArg _ (State.loseFrame_held (State.held_of_fill hfill)))

/-! ## The line's events (R166, R167, R169) -/

/-- Settles O8: each event puts the port's new state in its place. -/
theorem lineEventsTakeEffect : Obligations.LineEventsTakeEffect := by
  intro w p s hawake after q now hunting
  refine ⟨fun hfill => ?framing, fun t b hhigh hsoon => ?deaf, fun hreceiver => ?gap, fun n hready hreceiver hlength => ?length,
    ?sent, fun hlow => ?raised, fun hlow => ?high⟩
  case framing =>
    have hheld : (s.reach w.time).held = false := by simp [State.held, hawake, hfill]
    exact congrArg Host.Outcome.next ((event_awake hawake).trans (by rw [hheld]; rfl))
  case deaf => exact exec_byteTaken_deaf hawake hhigh hsoon
  case gap =>
    have hdue : (s.port p).gapDue = some ((s.port p).gapStart + 211) := if_neg hreceiver
    exact congrArg Host.Outcome.next ((congrArg (fun d => timerEvent w d _ s) hdue).trans (timerEvent_running hawake))
  case length =>
    have htaken : ((s.reach w.time).ready p && (s.port p).receiver = .length && 60 < n.toNat) = true := by
      have hreceiver' : (s.port p).receiver = .length := hreceiver
      simp [hready, hreceiver', hlength]
    exact congrArg Host.Outcome.next ((event_awake hawake).trans (if_pos htaken))
  case sent => exact congrArg Host.Outcome.next (event_awake hawake)
  case raised =>
    have hport : (s.port p).lineHigh now = { q with lineLow := false, highSince := q.highSince.map (fun _ => now) } := by
      simp [Port.lineHigh, show (s.port p).lineLow = true from hlow, q]
    exact congrArg Host.Outcome.next ((event_awake hawake).trans
      (congrArg (fun x => ({ s.reach w.time with ports := s.ports.put p x } : State)) hport))
  case high =>
    have hport : (s.port p).lineHigh now = s.port p := by
      have hlow' : (s.port p).lineLow = false := hlow
      simp [Port.lineHigh, hlow']
      exact hlow' ▸ rfl
    refine congrArg Host.Outcome.next ((event_awake hawake).trans
      ((congrArg (fun x => ({ s.reach w.time with ports := s.ports.put p x } : State)) hport).trans ?_))
    rw [State.port, Bank.put_look]
    rfl

/-! ## Power-on and RESET (R163, R164) -/

theorem curvePoint_defaultPoints (k : Nat) : curvePoint defaultPoints k = 300 + 580 * min k 15 := by
  simp [curvePoint, defaultPoints]

theorem State.initial_atInitialValues (t : Nat) (guardHigh : Bool) (mem : List Host.Cell) (fill : Fill) (queue : List Instr) :
    (State.initial t guardHigh mem fill queue).AtInitialValues := by
  have hvoice : ∀ v, v ≠ chimeVoice → (State.initial t guardHigh mem fill queue).voice v = Voice.initial := fun v hv => by
    simp [State.voice, State.initial, Bank.look_put, hv]
  have hchime : (State.initial t guardHigh mem fill queue).voice chimeVoice = Voice.chime := by
    simp [State.voice, State.initial]
  have htable : ∀ c, (State.initial t guardHigh mem fill queue).table c = CurveTable.initial := fun c => by
    simp [State.table, State.initial, Shaper.initial]
  refine ⟨⟨rfl, rfl, rfl, rfl, rfl, rfl, rfl, rfl, rfl, rfl, rfl, rfl, rfl, rfl, rfl, rfl, rfl, rfl, rfl, rfl, rfl, rfl, rfl,
    rfl, fun c => ?slip⟩, hvoice, congrArg Voice.state hchime, congrArg Voice.owner hchime, congrArg Voice.priority hchime,
    congrArg Voice.low hchime, congrArg Voice.high hchime,
    congrArg (fun v : Voice => v.area.map (fun a => (a.first, a.last))) hchime, rfl, rfl, rfl, fun p => Bank.look_fill _ p,
    fun b => Bank.look_fill _ b, fun n => Bank.look_fill _ n, fun r => Bank.look_fill _ r, fun c k => ?table, rfl, rfl,
    fun u => Bank.look_fill _ u, fun v => Bank.look_fill _ v,
    ⟨rfl, rfl, rfl, rfl, rfl, rfl, fun k => Bank.look_fill _ k⟩, ⟨rfl, rfl, rfl, rfl, rfl, rfl, rfl, rfl⟩, fun p => ?port⟩
  case slip => cases c <;> rfl
  case table =>
    rw [htable]
    exact ⟨curvePoint_defaultPoints k, rfl, rfl⟩
  case port =>
    rw [show (State.initial t guardHigh mem fill queue).port p = Port.initial from Bank.look_fill _ p]
    exact ⟨rfl, rfl, rfl, rfl, rfl, rfl, rfl, rfl, rfl, rfl, rfl, rfl, rfl, rfl⟩

theorem State.initial_ready (t : Nat) (guardHigh : Bool) (mem : List Host.Cell) (queue : List Instr) (p : PortId) :
    (State.initial t guardHigh mem .none queue).ready p = true := by
  rw [State.ready_iff]
  simp [State.initial, State.port, Port.initial]

/-- The power-on fill reads as END steps. -/
theorem memBytes_fill (k : Nat) : memBytes [] (8 * k) 8 = [0#8, 0#8, 0x81#8, 0#8, 0x80#8, 0#8, 0#8, 0#8] := by
  simp [memBytes, List.range_succ, memRead, fillByte, Nat.add_mod]

/-- Settles O10, from the initial values of every block. -/
theorem powerOnAndResetInitialize : Obligations.PowerOnAndResetInitialize := by
  refine ⟨State.initial_atInitialValues .., fun w s => ?_, fun w s hreset => ?_, fun w s d hawake hfill => ?_,
    fun k _ => memBytes_fill k⟩
  · exact ⟨_, rfl, State.initial_atInitialValues .., rfl, rfl, fun p => State.ready_of_fill (by simp [State.powerUp, State.initial])⟩
  · refine ⟨_, congrArg Host.Outcome.next (if_pos hreset), State.initial_atInitialValues .., rfl, rfl, rfl, rfl, fun hfill => ?_,
      fun hfill => ?_⟩
    · have hfill' : (s.reach w.time).power.fill = .none := hfill
      rw [if_pos hfill']
      exact ⟨rfl, fun p => State.initial_ready ..⟩
    · have hfill' : (s.reach w.time).power.fill ≠ .none := hfill
      rw [if_neg hfill']
      exact ⟨rfl, fun p => State.ready_of_fill (by simp [State.initial])⟩
  · have hdue : s.power.fill.due = some d := by rw [hfill]; rfl
    exact congrArg Host.Outcome.next ((congrArg (fun x => timerEvent w x _ s) hdue).trans (timerEvent_running hawake))

/-! ## While RESET is asserted (R164) -/

/-- Asleep, the part moves its clock alone. -/
theorem timerEvent_asleep {w : When} {due : Option Nat} {f : State → State} {s : State} (h : s.power.inReset = true) :
    ∃ n, timerEvent w due f s = s.reach n := by
  cases due with
  | none => exact ⟨_, rfl⟩
  | some t => exact ⟨_, event_asleep h⟩

/-- A request that comes while RESET is asserted moves the clock alone. -/
theorem exec_request_asleep {c : Instr} {s : State} {body : State → Result} (h : s.power.inReset = true)
    (hbody : resultOf c = some body) : ∃ n, exec c s = .next (s.reach n) := by
  have hsome : (requestPort c).isSome = true := by
    rw [← (resultOf_isSome c).1, hbody]
    rfl
  obtain ⟨⟨w, p⟩, hport⟩ := Option.isSome_iff_exists.1 hsome
  obtain ⟨kind, hkind⟩ := Option.isSome_iff_exists.1 ((resultOf_isSome c).2.trans hsome)
  obtain ⟨hfits, hlarge⟩ := exec_request s hport hkind hbody
  refine ⟨w.time, ?_⟩
  obtain hlength | hlength := Nat.lt_or_ge 60 (requestPayload c).length
  · exact hlarge hlength
  · have hheld : (s.reach w.time).held = true := by simp [State.held, h]
    rw [hfits hlength, request_lost (State.ready_of_inReset h), State.loseFrame_held hheld]

/-- An event, but a power event or a guard edge, that comes while RESET is asserted moves the clock alone. -/
theorem exec_event_asleep {c : Instr} {s : State} (h : s.power.inReset = true) (hbody : resultOf c = none)
    (hon : ∀ w, c ≠ .powerOn w) (hassert : ∀ w, c ≠ .resetAssert w) (hrelease : ∀ w, c ≠ .resetRelease w)
    (hedge : ∀ w b, c ≠ .guardEdge w b) : ∃ n, exec c s = .next (s.reach n) := by
  have hevent : ∀ {t f}, ∃ n, (Host.Outcome.next (event t f s) : Answer) = .next (s.reach n) := fun {t f} =>
    ⟨t, congrArg _ (event_asleep h)⟩
  have htimer : ∀ {w due f}, ∃ n, (Host.Outcome.next (timerEvent w due f s) : Answer) = .next (s.reach n) :=
    fun {w due f} => (timerEvent_asleep h).imp fun n hn => congrArg _ hn
  cases c <;> try cases hbody
  case powerOn w => exact absurd rfl (hon w)
  case resetAssert w => exact absurd rfl (hassert w)
  case resetRelease w => exact absurd rfl (hrelease w)
  case guardEdge w b => exact absurd rfl (hedge w b)
  case framingError | lineBreak | breakEnd | frameLengthAbandon | startByteOverflow | checkByteMismatch | unknownKind | replySent |
      syncInPulse | playerStallResume | byteTaken =>
    exact hevent
  all_goals exact htimer

/-- A command that is no power event, while RESET is asserted, moves the clock, and a guard edge is seen. -/
theorem exec_asleep {c : Instr} {s : State} (h : s.power.inReset = true) (hon : ∀ w, c ≠ .powerOn w)
    (hassert : ∀ w, c ≠ .resetAssert w) (hrelease : ∀ w, c ≠ .resetRelease w) :
    (∃ n, exec c s = .next (s.reach n)) ∨ ∃ w b, c = .guardEdge w b ∧ exec c s = .next ((s.guardLevel b).reach w.time) := by
  by_cases hedge : ∃ w b, c = .guardEdge w b
  · obtain ⟨w, b, rfl⟩ := hedge
    exact .inr ⟨w, b, rfl, congrArg Host.Outcome.next (event_asleep h)⟩
  · refine .inl ?_
    cases hbody : resultOf c with
    | some body => exact exec_request_asleep h hbody
    | none => exact exec_event_asleep h hbody hon hassert hrelease fun w b hc => hedge ⟨w, b, hc⟩

/-- Settles O11: the assertion's own state, and every command after it. -/
theorem resetHoldsThePart : Obligations.ResetHoldsThePart := by
  refine ⟨fun w s => ?_, fun c s hreset hon hassert hrelease => ?_⟩
  · refine ⟨_, rfl, ?_, fun p => ⟨State.ready_of_inReset rfl, Bank.look_mapWith _ _ _⟩, ?_, fun n => ?_, fun r => ?_, fun u => ?_, ?_⟩
    · cases hfill : s.power.fill <;> simp [State.assertReset, State.reach, Fill.interrupt, hfill]
    all_goals simp [State.alert, State.gateOn, State.permission, State.railEnable, State.damperDrive, State.syncOut,
      State.assertReset]
  · obtain ⟨n, h⟩ | ⟨w, b, rfl, h⟩ := exec_asleep hreset hon hassert hrelease
    · exact ⟨_, h, rfl, fun _ => rfl⟩
    · exact ⟨_, h, rfl, fun hedge => absurd rfl (hedge w b)⟩

end Sys2Proof.Machine
end

section
/-! SUPPORT. What every operation leaves of the ports' link state: the receiver and the overflow flag change only with what comes in
on the line and with a reply's beginning. -/
namespace Sys2Proof.Machine

/-- The receivers and the overflow flags stand. -/
structure LineKept (s t : State) : Prop where
  receiver : ∀ p, (t.port p).receiver = (s.port p).receiver
  overflow : ∀ p, (t.port p).overflow = (s.port p).overflow

/-- The receivers and the overflow flags stand, and no pending notice is cleared. -/
structure LinkKept (s t : State) : Prop extends LineKept s t where
  notices : ∀ p i, (s.port p).pendingNotices.getLsbD i = true → (t.port p).pendingNotices.getLsbD i = true

/-- The same of a port alone. -/
def Port.LinkKept (q r : Port) : Prop := r.receiver = q.receiver ∧ r.overflow = q.overflow ∧
  ∀ i, q.pendingNotices.getLsbD i = true → r.pendingNotices.getLsbD i = true

theorem Port.raise_link (x : Notice) (q : Port) : q.LinkKept (q.raise x) := by
  refine ⟨rfl, rfl, fun i h => ?_⟩
  rw [Port.raise, BitVec.getLsbD_or, h, Bool.true_or]

namespace LinkKept
variable {s t u : State}

theorem of_port (h : ∀ p, (s.port p).LinkKept (t.port p)) : LinkKept s t :=
  ⟨⟨fun p => (h p).1, fun p => (h p).2.1⟩, fun p => (h p).2.2⟩

theorem rfl' : LinkKept s s := ⟨⟨fun _ => rfl, fun _ => rfl⟩, fun _ _ => id⟩

theorem trans (h : LinkKept s t) (g : LinkKept t u) : LinkKept s u :=
  ⟨⟨fun p => (g.receiver p).trans (h.receiver p), fun p => (g.overflow p).trans (h.overflow p)⟩,
    fun p i hi => g.notices p i (h.notices p i hi)⟩

theorem ite {c : Prop} [Decidable c] (h : LinkKept s t) (g : LinkKept s u) : LinkKept s (if c then t else u) := by
  split
  · exact h
  · exact g

theorem of_ports (h : t.ports = s.ports) : LinkKept s t := by
  refine of_port fun p => ?_
  rw [State.port, State.port, h]
  exact ⟨rfl, rfl, fun _ => id⟩

/-- What comes after an update that leaves the ports. -/
theorem after (h : LinkKept t u) (hports : t.ports = s.ports) : LinkKept s u := (of_ports hports).trans h

end LinkKept

section
variable (s : State)

theorem State.modPort_line (p : PortId) {f : Port → Port}
    (h : ∀ q, (f q).receiver = q.receiver ∧ (f q).overflow = q.overflow) : LineKept s (s.modPort p f) := by
  constructor <;> intro q <;> rw [State.modPort_port] <;> split
  · subst q
    exact (h _).1
  · rfl
  · subst q
    exact (h _).2
  · rfl

theorem State.modPort_link (p : PortId) {f : Port → Port} (h : ∀ q : Port, q.LinkKept (f q)) : LinkKept s (s.modPort p f) := by
  refine .of_port fun q => ?_
  rw [State.modPort_port]
  split
  · subst q
    exact h _
  · exact ⟨rfl, rfl, fun _ => id⟩

theorem State.raise_link (x : Notice) (p : PortId) : LinkKept s (s.raise x p) := s.modPort_link p (Port.raise_link x)

theorem State.raiseAll_link (x : Notice) : LinkKept s (s.raiseAll x) := by
  refine .of_port fun q => ?_
  rw [State.raiseAll_port]
  exact Port.raise_link x _

/-! ## The calendar -/

theorem Port.levelCheck_link (q : Port) : q.LinkKept q.levelCheck := by
  unfold Port.levelCheck
  split
  · exact q.raise_link _
  · exact ⟨rfl, rfl, fun _ => id⟩

theorem Port.offer_link (r : EchoRecord) (q : Port) : q.LinkKept (q.offer r) := by
  unfold Port.offer
  split
  · exact Port.levelCheck_link _
  · exact ⟨rfl, rfl, fun _ => id⟩

theorem State.leave_link (k : SlotId) (o : EntryOutcome) : LinkKept s (s.leave k o) := by
  unfold State.leave
  split
  · exact .rfl'
  · have hgone : LinkKept s { s with entries := s.entries.filter (fun d => d.slot ≠ k) } := .of_ports rfl
    exact (LinkKept.ite (hgone.trans (State.modPort_link _ _ (Port.offer_link _))) hgone).trans (.of_ports rfl)

theorem State.leaveAll_link (o : EntryOutcome) (l : List SlotId) : LinkKept s (State.leaveAll o l s) := by
  induction l generalizing s with
  | nil => exact .rfl'
  | cons k rest ih => exact (s.leave_link k o).trans (ih _)

theorem State.placeSustain_link (e : Entry) : LinkKept s (s.placeSustain e) := by
  unfold State.placeSustain State.placeHold
  repeat' split
  all_goals exact .of_ports rfl

theorem State.wakeRailOf_link (b : BarId) : LinkKept s (s.wakeRailOf b) := by
  unfold State.wakeRailOf
  split <;> exact .of_ports rfl

theorem State.join_link (k : SlotId) (t d : Nat) : LinkKept s (s.join k t d) := by
  cases h : s.entryAt k with
  | none =>
    rw [State.join_none h]
    exact .rfl'
  | some e =>
    rw [State.join_some h]
    exact LinkKept.after ((State.placeSustain_link _ _).trans (State.wakeRailOf_link _ _)) rfl

theorem State.release_link (k : SlotId) : LinkKept s (s.release k) := by
  obtain h | ⟨o, h⟩ | ⟨t, d, -, h⟩ | ⟨j, t, d, -, h⟩ := s.release_cases k <;> rw [h]
  · exact .rfl'
  · exact s.leave_link _ _
  · exact s.join_link _ _ _
  · exact (s.leave_link _ _).trans (State.join_link _ _ _ _)

theorem State.returnRoll_link (e : Entry) (n : Nat) : LinkKept s (s.returnRoll e n) :=
  .ite (LinkKept.after (State.release_link _ _) rfl) (.of_ports rfl)

theorem State.strokeEnd_link (k : SlotId) : LinkKept s (s.strokeEnd k) := by
  unfold State.strokeEnd
  repeat' split
  · exact .rfl'
  · exact s.leave_link _ _
  · exact s.leave_link _ _
  · exact s.returnRoll_link _ _
  · exact .rfl'

theorem State.playStroke_link (k : SlotId) : LinkKept s (s.playStroke k) := LinkKept.after (State.strokeEnd_link _ _) rfl

theorem State.missStroke_link (k : SlotId) : LinkKept s (s.missStroke k) := LinkKept.after (State.strokeEnd_link _ _) rfl

theorem State.removeMember_link (k : SlotId) (o : EntryOutcome) : LinkKept s (s.removeMember k o) := by
  unfold State.removeMember
  repeat' split
  · exact .rfl'
  · exact s.missStroke_link _
  · exact s.leave_link _ _

theorem State.removeMembers_link (o : EntryOutcome) (l : List SlotId) : LinkKept s (State.removeMembers o l s) := by
  induction l generalizing s with
  | nil => exact .rfl'
  | cons k rest ih => exact (s.removeMember_link k o).trans (ih _)

theorem State.flushVoice_link (v : VoiceId) : LinkKept s (s.flushVoice v).1 :=
  LinkKept.after (State.leaveAll_link _ _ _) rfl

theorem State.admitEntry_link (a : Ask) (p : PortId) : LinkKept s (s.admitEntry a p).1 := by
  unfold State.admitEntry
  split
  · exact .rfl'
  · exact .rfl'
  · exact .ite (LinkKept.after (State.release_link _ _) rfl) (.of_ports rfl)

/-! ## The arbiters -/

theorem State.grant_link (e : Entry) (n : StrikerId) : LinkKept s (s.grant e n) := by
  rw [State.grant_eq]
  have h : (s.unmarkOthers e n).ports = s.ports := by rw [State.unmarkOthers_frame]
  exact .of_ports h

theorem State.arbitrate_link (r : RailId) : LinkKept s (s.arbitrate r) := by
  obtain h | ⟨l, h | ⟨e, n, -, -, -, -, h⟩⟩ := s.arbitrate_cases r <;> rw [h]
  · exact .rfl'
  · exact s.removeMembers_link _ _
  · exact ((s.removeMembers_link _ _).trans (State.grant_link _ _ _)).trans (.of_ports rfl)

theorem State.settleUpTo_link (n : Nat) : LinkKept s (s.settleUpTo n) := by
  induction n generalizing s with
  | zero => exact .rfl'
  | succ n ih =>
    unfold State.settleUpTo
    split
    · exact .rfl'
    · exact LinkKept.after ((State.arbitrate_link _ _).trans (ih _)) rfl

theorem State.settle_link : LinkKept s s.settle := (s.settleUpTo_link _).trans (.of_ports rfl)

theorem State.settleAtJoin_link (o : Interleaving) : LinkKept s (s.settleAtJoin o) := .ite s.settle_link .rfl'

theorem State.settleAtBlock_link (o : Interleaving) : LinkKept s (s.settleAtBlock o) := .ite .rfl' s.settle_link

/-! ## The stage leaving PLAYING -/

theorem State.cutEntry_link (k : SlotId) : LinkKept s (s.cutEntry k) := by
  unfold State.cutEntry
  repeat' split
  · exact .rfl'
  · exact LinkKept.after (State.leave_link _ _ _) rfl
  · exact .of_ports rfl
  · exact s.leave_link _ _

theorem State.dropOrCut_link (before : State) (l : List SlotId) : LinkKept s (State.dropOrCut before l s) := by
  induction l generalizing s with
  | nil => exact .rfl'
  | cons k rest ih =>
    unfold State.dropOrCut
    refine .trans ?_ (ih _)
    repeat' split
    · exact s.leave_link _ _
    · exact s.cutEntry_link _
    · exact .rfl'
    · exact .rfl'
    · exact .rfl'

theorem State.leavePlaying_link : LinkKept s s.leavePlaying :=
  LinkKept.trans (LinkKept.after (State.dropOrCut_link
    { s with strikers := s.strikers.mapWith (fun _ k => k.cut s.now) } s (s.entries.map (·.slot))) rfl) (.of_ports rfl)

theorem State.enterStage_link (g : Stage) : LinkKept s (s.enterStage g) := LinkKept.after (State.raiseAll_link _ _) rfl

/-! ## The players -/

theorem State.stepTaken_link (v : VoiceId) (due : Nat) : LinkKept s (s.stepTaken v due) := by
  unfold State.stepTaken
  dsimp only
  split <;> exact .of_ports rfl

theorem State.endPhrase_link (v : VoiceId) (why : EndReason) : LinkKept s (s.endPhrase v why) := by
  unfold State.endPhrase
  dsimp only
  split
  · exact LinkKept.after (State.raise_link _ _ _) rfl
  · exact .of_ports rfl

theorem State.loopEnd_link (v : VoiceId) (due : Nat) : LinkKept s (s.loopEnd v due) :=
  .ite (LinkKept.after (State.endPhrase_link _ _ _) rfl)
    (.ite (LinkKept.after (State.endPhrase_link _ _ _) rfl) (.of_ports rfl))

theorem State.phraseEnd_link (v : VoiceId) (due : Nat) : LinkKept s (s.phraseEnd v due) := by
  unfold State.phraseEnd
  split
  · exact s.loopEnd_link _ _
  · exact s.endPhrase_link _ _

theorem State.actOnStep_link (o : Interleaving) (v : VoiceId) (p : PortId) (due address : Nat) (x : StepBody) :
    LinkKept s (s.actOnStep o v p due address x) := by
  have hplayer : ∀ f, LinkKept s (s.modPlayer v f) := fun _ => .of_ports rfl
  unfold State.actOnStep
  dsimp only
  repeat' split
  · exact (hplayer _).trans (State.stepTaken_link _ _ _)
  · exact s.stepTaken_link _ _
  · exact (s.stepTaken_link _ _).trans (State.phraseEnd_link _ _ _)
  · exact (hplayer _).trans (State.stepTaken_link _ _ _)
  · exact .of_ports rfl
  · exact (hplayer _).trans (State.stepTaken_link _ _ _)
  · exact ((s.admitEntry_link _ _).trans (State.settleAtJoin_link _ _)).trans (State.stepTaken_link _ _ _)

theorem State.takeStepsUpTo_link (o : Interleaving) (v : VoiceId) (p : PortId) (n : Nat) :
    LinkKept s (State.takeStepsUpTo o v p n s) := by
  induction n generalizing s with
  | zero => exact .rfl'
  | succ n ih =>
    unfold State.takeStepsUpTo
    split
    · exact .rfl'
    · split
      · exact .of_ports rfl
      · exact .ite (s.endPhrase_link _ _) (.ite (.of_ports rfl) ((s.actOnStep_link _ _ _ _ _ _).trans (ih _)))

theorem State.takeSteps_link (o : Interleaving) (v : VoiceId) : LinkKept s (s.takeSteps o v) := by
  unfold State.takeSteps
  repeat' split
  · exact .rfl'
  · exact .rfl'
  · exact s.takeStepsUpTo_link _ _ _ _

theorem State.armedTest_link (o : Interleaving) (v : VoiceId) : LinkKept s (s.armedTest o v) :=
  .ite (LinkKept.after (State.takeSteps_link _ _ _) rfl) .rfl'

theorem State.playersTick_link (o : Interleaving) (l : List VoiceId) : LinkKept s (State.playersTick o l s) := by
  induction l generalizing s with
  | nil => exact .rfl'
  | cons v rest ih => exact (LinkKept.ite (s.takeSteps_link o v) (s.armedTest_link o v)).trans (ih _)

theorem State.startPlayer_link (o : Interleaving) (v : VoiceId) (m : PlayerMode) (a b c d : Nat) :
    LinkKept s (s.startPlayer o v m a b c d) := LinkKept.after (State.armedTest_link _ _ _) rfl

theorem State.resumePlayer_link (o : Interleaving) (v : VoiceId) : LinkKept s (s.resumePlayer o v) :=
  LinkKept.after (State.takeSteps_link _ _ _) rfl

theorem State.locatePlayers_link (l : List VoiceId) : LinkKept s (State.locatePlayers l s) := by
  induction l generalizing s with
  | nil => exact .rfl'
  | cons v rest ih => exact (LinkKept.ite .rfl' (s.endPhrase_link _ _)).trans (ih _)

/-! ## The timeline -/

theorem State.releaseAll_link (o : Interleaving) (l : List SlotId) : LinkKept s (State.releaseAll o l s) := by
  induction l generalizing s with
  | nil => exact .rfl'
  | cons k rest ih =>
    unfold State.releaseAll
    refine .trans ?_ (ih _)
    split
    · exact .ite ((s.release_link _).trans (State.settleAtJoin_link _ _)) .rfl'
    · exact .rfl'

theorem State.neighbourTick_link (o : Interleaving) (kind : TickKind) (x : Neighbour) :
    LinkKept s (s.neighbourTick o kind x) := by
  cases x with
  | shaper => exact .ite (.of_ports rfl) .rfl'
  | calendar => exact s.releaseAll_link _ _
  | players => exact s.playersTick_link _ _
  | dampers => exact .of_ports rfl

theorem State.neighboursTick_link (o : Interleaving) (kind : TickKind) (l : List Neighbour) :
    LinkKept s (State.neighboursTick o kind l s) := by
  induction l generalizing s with
  | nil => exact .rfl'
  | cons x rest ih => exact ((s.neighbourTick_link o kind x).trans (State.settleAtBlock_link _ _)).trans (ih _)

theorem State.expire_link (o : Interleaving) (measured : Option Nat) : LinkKept s (s.expire o measured) :=
  LinkKept.after (((LinkKept.ite (State.raiseAll_link _ _) .rfl').trans (State.neighboursTick_link _ _ _ _)).trans
    (State.settle_link _)) rfl

theorem State.tick_link (o : Interleaving) (measured : Option Nat) : LinkKept s (s.tick o measured) :=
  .ite ((s.expire_link o measured).trans (.of_ports rfl)) (s.expire_link o measured)

theorem State.catchUp_link (o : Interleaving) (measured : Option Nat) (n : Nat) : LinkKept s (State.catchUp o measured n s) := by
  induction n generalizing s with
  | zero => exact .rfl'
  | succ n ih =>
    unfold State.catchUp
    exact .ite .rfl' ((s.tick_link _ _).trans (ih _))

theorem State.crossBeat_link (o : Interleaving) (measured : Option Nat) : LinkKept s (s.crossBeat o measured) := by
  have h : LinkKept s (s.crossed o measured) := LinkKept.after (State.catchUp_link _ _ _ _) rfl
  exact .ite (h.trans (.of_ports rfl)) h

theorem State.toInternal_link (o : Interleaving) : LinkKept s (s.toInternal o) :=
  .ite (LinkKept.after (State.crossBeat_link _ _ _) rfl) (.of_ports rfl)

end

end Sys2Proof.Machine
end

section
/-! SUPPORT. What every request's body can do: the ports' link state stands, no decision is left over, and a refusal leaves the state
as it was. -/
namespace Sys2Proof.Machine

/-! ## Decisions left over -/

section
variable (s : State)

@[simp] theorem State.leave_decisions (k : SlotId) (o : EntryOutcome) : (s.leave k o).decisions = s.decisions := by
  rw [State.leave_frame]

@[simp] theorem State.leaveAll_decisions (o : EntryOutcome) (l : List SlotId) :
    (State.leaveAll o l s).decisions = s.decisions := by
  rw [State.leaveAll_frame]

@[simp] theorem State.flushVoice_decisions (v : VoiceId) : (s.flushVoice v).1.decisions = s.decisions :=
  State.leaveAll_decisions _ _ _

@[simp] theorem State.haltPlayer_decisions (v : VoiceId) : (s.haltPlayer v).decisions = s.decisions := rfl

@[simp] theorem State.closeVoice_decisions (v : VoiceId) : (s.closeVoice v).1.decisions = s.decisions :=
  State.flushVoice_decisions _ _

@[simp] theorem State.closeVoices_decisions (l : List VoiceId) : (State.closeVoices l s).decisions = s.decisions := by
  induction l generalizing s with
  | nil => rfl
  | cons v rest ih => exact (ih _).trans (State.closeVoice_decisions _ _)

@[simp] theorem State.endPhrase_decisions (v : VoiceId) (why : EndReason) : (s.endPhrase v why).decisions = s.decisions := by
  unfold State.endPhrase
  dsimp only
  split <;> rfl

@[simp] theorem State.locatePlayers_decisions (l : List VoiceId) : (State.locatePlayers l s).decisions = s.decisions := by
  induction l generalizing s with
  | nil => rfl
  | cons v rest ih =>
    refine (ih _).trans ?_
    split
    · rfl
    · exact s.endPhrase_decisions _ _

@[simp] theorem State.locateTo_decisions (p : Nat) : (s.locateTo p).decisions = s.decisions :=
  (State.locatePlayers_decisions _ _).trans (State.leaveAll_decisions _ _ _)

@[simp] theorem State.cutEntry_decisions (k : SlotId) : (s.cutEntry k).decisions = s.decisions := by
  unfold State.cutEntry
  repeat' split
  all_goals simp

@[simp] theorem State.dropOrCut_decisions (before : State) (l : List SlotId) :
    (State.dropOrCut before l s).decisions = s.decisions := by
  induction l generalizing s with
  | nil => rfl
  | cons k rest ih =>
    unfold State.dropOrCut
    refine (ih _).trans ?_
    repeat' split
    all_goals simp

@[simp] theorem State.leavePlaying_decisions : s.leavePlaying.decisions = s.decisions := by
  simp [State.leavePlaying]

@[simp] theorem State.enterStage_decisions (g : Stage) : (s.enterStage g).decisions = s.decisions := rfl

@[simp] theorem State.startDischarge_decisions : s.startDischarge.decisions = s.decisions := by
  unfold State.startDischarge
  dsimp only
  split <;> simp

@[simp] theorem State.stageDown_decisions : s.stageDown.decisions = s.decisions := by
  unfold State.stageDown
  split
  · rfl
  · rfl
  · exact s.startDischarge_decisions

@[simp] theorem State.stageRest_decisions : s.stageRest.decisions = s.decisions := by
  unfold State.stageRest
  split <;> simp

@[simp] theorem State.stagePlay_decisions : s.stagePlay.decisions = s.decisions := by
  unfold State.stagePlay
  split <;> rfl

@[simp] theorem State.stageUp_decisions : s.stageUp.decisions = s.decisions := by
  unfold State.stageUp
  split <;> rfl

@[simp] theorem State.stopTimeline_decisions (why : StopReason) : (s.stopTimeline why).decisions = s.decisions := rfl

/-- A tick expiry leaves no decision over. -/
@[simp] theorem State.tick_decisions (o : Interleaving) (measured : Option Nat) : (s.tick o measured).decisions = [] := by
  rw [State.tick_eq]
  split <;> rfl

theorem State.catchUp_decisions (o : Interleaving) (measured : Option Nat) (n : Nat) (h : s.decisions = []) :
    (State.catchUp o measured n s).decisions = [] := by
  induction n generalizing s with
  | zero => exact h
  | succ n ih =>
    unfold State.catchUp
    split
    · exact h
    · exact ih _ (State.tick_decisions _ _ _)

theorem State.crossBeat_decisions (o : Interleaving) (measured : Option Nat) (h : s.decisions = []) :
    (s.crossBeat o measured).decisions = [] := by
  have hcrossed : (s.crossed o measured).decisions = [] := State.catchUp_decisions _ _ _ _ h
  rw [State.crossBeat_eq]
  split <;> exact hcrossed

theorem State.toInternal_decisions (o : Interleaving) (h : s.decisions = []) : (s.toInternal o).decisions = [] := by
  unfold State.toInternal
  dsimp only
  split
  · exact State.crossBeat_decisions _ _ _ h
  · exact h

end

/-! ## A body's answer -/

/-- What an answer does beside the effect that its request asks for. -/
structure Honest (s : State) (r : Result) : Prop where
  link : LineKept s r.1
  settled : s.decisions = [] → r.1.decisions = []
  refused : r.2.1 ≠ .ok → r.1 = s

namespace Honest
variable {s t : State}

theorem refuse (st : Status) : Honest s (refuse st s) := ⟨LinkKept.rfl'.toLineKept, id, fun _ => rfl⟩

theorem answered {l : List Byte} (hline : LineKept s t) (hsettled : s.decisions = [] → t.decisions = []) :
    Honest s (t, .ok, l) := ⟨hline, hsettled, fun h => absurd rfl h⟩

theorem ok {l : List Byte} (hlink : LinkKept s t) (hsettled : s.decisions = [] → t.decisions = []) : Honest s (t, .ok, l) :=
  answered hlink.toLineKept hsettled

/-- An answer that leaves the ports and the decisions. -/
theorem plain {l : List Byte} (hports : t.ports = s.ports) (hdecisions : t.decisions = s.decisions) : Honest s (t, .ok, l) :=
  ok (.of_ports hports) (hdecisions.trans ·)

theorem same {l : List Byte} : Honest s (s, .ok, l) := plain rfl rfl

theorem ite {c : Prop} [Decidable c] {a b : Result} (ha : Honest s a) (hb : Honest s b) : Honest s (if c then a else b) := by
  split
  · exact ha
  · exact hb

theorem setup {f : State → State} {results : State → List Byte} (hports : (f s).ports = s.ports)
    (hdecisions : (f s).decisions = s.decisions) : Honest s (setupResult s f results) :=
  ite (plain hports hdecisions) (refuse _)

theorem conducted {p : PortId} {b c : Bool} {f : State → State} (hlink : LinkKept s (f s))
    (hsettled : s.decisions = [] → (f s).decisions = []) : Honest s (conducted p b c f s) :=
  ite (refuse _) (ite (refuse _) (ite (refuse _) (ok hlink hsettled)))

theorem forVoice {holds : State → VoiceId → Bool} {voice : Byte} {body : VoiceId → State → Result}
    (h : ∀ v, Honest s (body v s)) : Honest s (forVoice holds voice body s) := by
  unfold Machine.forVoice
  split
  · exact refuse _
  · exact ite (h _) (refuse _)

theorem status {n : Nat} {member : Byte} {contents : Fin n → State → List Byte} : Honest s (statusOf n member contents s) := by
  unfold statusOf
  split
  · exact refuse _
  · exact same

theorem stage {refusal : Option Status} {f : State → State} (hlink : LinkKept s (f s))
    (hsettled : s.decisions = [] → (f s).decisions = []) : Honest s (stageResult refusal f s) := by
  unfold stageResult
  split
  · exact ⟨LinkKept.rfl'.toLineKept, id, fun _ => rfl⟩
  · exact ok hlink hsettled

end Honest

section
variable (s : State)

theorem setRailResult_honest (a b : Byte) (c : Half) (d : Quad) (e : Byte) (f : Half) (g : Byte) :
    Honest s (setRailResult a b c d e f g s) := by
  unfold setRailResult
  split
  · exact .ite (.refuse _) (.ite (.refuse _) (.setup rfl rfl))
  · exact .refuse _

theorem setStrikerResult_honest (a : Byte) (b : Quad) (c : Byte) (d : Half) (e : Byte) (f g : Half) (h : Byte) :
    Honest s (setStrikerResult a b c d e f g h s) := by
  unfold setStrikerResult
  split
  · exact .ite (.refuse _) (.setup rfl rfl)
  · exact .refuse _

theorem setBarResult_honest (a b c d e f : Byte) (g : Half) : Honest s (setBarResult a b c d e f g s) := by
  unfold setBarResult
  split
  · exact .ite (.refuse _) (.ite (.refuse _) (.ite (.refuse _) (.ite (.refuse _) (.setup rfl rfl))))
  · exact .refuse _

theorem setClassResult_honest (a : Byte) (b c : Half) : Honest s (setClassResult a b c s) := by
  unfold setClassResult
  split
  · exact .ite (.refuse _) (.setup rfl rfl)
  · exact .refuse _

theorem setDamperResult_honest (a : Byte) (b c : Half) (d : Quad) : Honest s (setDamperResult a b c d s) := by
  unfold setDamperResult
  split
  · exact .ite (.refuse _) (.setup rfl rfl)
  · exact .refuse _

theorem setChargeResult_honest (a b : Half) : Honest s (setChargeResult a b s) := .ite (.refuse _) (.setup rfl rfl)

theorem setQuotaResult_honest (a : Byte) (b : Half) : Honest s (setQuotaResult a b s) := by
  have h : ∀ q n, (State.setQuotaOf q n s).ports = s.ports ∧ (State.setQuotaOf q n s).decisions = s.decisions := fun q n => by
    unfold State.setQuotaOf
    dsimp only
    split <;> exact ⟨rfl, rfl⟩
  unfold setQuotaResult
  split
  · exact .ite (.refuse _) (.ite (.refuse _) (.setup (h _ _).1 (h _ _).2))
  · exact .refuse _

theorem setCurveResult_honest (a b : Byte) (c : List Half) : Honest s (setCurveResult a b c s) := by
  unfold setCurveResult
  repeat' split
  · exact .refuse _
  · exact .refuse _
  · exact .plain rfl rfl
  · exact .refuse _
  · exact .refuse _

theorem curveModeResult_honest (a : Byte) : Honest s (curveModeResult a s) := by
  unfold curveModeResult
  repeat' split
  · exact .refuse _
  · exact .same
  · exact .plain rfl rfl
  · exact .refuse _
  · exact .plain rfl rfl

theorem commitResult_honest (a : Byte) : Honest s (commitResult a s) := by
  have h : ∀ named, (State.commitTables named s).ports = s.ports ∧ (State.commitTables named s).decisions = s.decisions :=
    fun named => by
      unfold State.commitTables
      split <;> exact ⟨rfl, rfl⟩
  unfold commitResult
  split
  · exact .refuse _
  · exact .plain (h _).1 (h _).2

theorem setScanResult_honest (a b : Byte) (c : Quad) : Honest s (setScanResult a b c s) := by
  unfold setScanResult
  split
  · exact .ite (.refuse _) (.plain rfl rfl)
  · exact .refuse _

theorem setPortResult_honest (p : PortId) (a b : Byte) (c : Half) : Honest s (setPortResult p a b c s) :=
  .ite (.refuse _) (.answered (s.modPort_line p fun _ => ⟨(Port.levelCheck_link _).1, (Port.levelCheck_link _).2.1⟩) id)

theorem conductResult_honest (p : PortId) (a : Byte) : Honest s (conductResult p a s) := by
  unfold conductResult
  split
  · exact .refuse _
  · exact .plain rfl rfl
  · exact .ite .same (.refuse _)
  · exact .ite (.plain rfl rfl) (.refuse _)
  · exact .refuse _

theorem runResult_honest (p : PortId) : Honest s (runResult p s) :=
  .conducted (LinkKept.ite (.of_ports rfl) .rfl') fun h => by
    unfold State.runTimeline
    split <;> exact h

theorem stopResult_honest (p : PortId) : Honest s (stopResult p s) :=
  .conducted (LinkKept.ite .rfl' (.of_ports rfl)) fun h => by
    unfold State.stopRequest
    split <;> exact h

theorem State.locateTo_link (p : Nat) : LinkKept s (s.locateTo p) :=
  LinkKept.after ((State.leaveAll_link _ _ _).trans (State.locatePlayers_link _ _)) rfl

theorem sourceResult_honest (o : Interleaving) (p : PortId) (a : Byte) : Honest s (sourceResult o p a s) := by
  refine .conducted ?_ fun h => ?_ <;> unfold State.setSource <;> split
  · exact .of_ports rfl
  · exact s.toInternal_link o
  · exact .rfl'
  · exact h
  · exact s.toInternal_decisions o h
  · exact h

theorem openResult_honest (p : PortId) (a b c d : Byte) : Honest s (openResult p a b c d s) := by
  unfold openResult
  repeat' split
  · exact .refuse _
  · exact .refuse _
  · exact .refuse _
  · exact .plain rfl rfl

theorem State.closeVoice_link (v : VoiceId) : LinkKept s (s.closeVoice v).1 := (s.flushVoice_link v).trans (.of_ports rfl)

/-- An admission that is refused leaves the state as it was. -/
theorem State.admitEntry_refused {a : Ask} {p : PortId} {t : State} {st : Status}
    (h : s.admitEntry a p = (t, .refused st)) : t = s := by
  unfold State.admitEntry at h
  split at h <;> cases h
  · rfl
  · rfl

theorem State.admitted_link {a : Ask} {p : PortId} {t : State} {x : Admission} (h : s.admitEntry a p = (t, x)) :
    LinkKept s t := by
  have hlink := s.admitEntry_link a p
  rwa [h] at hlink

theorem strokeResult_honest (p : PortId) (a b c : Byte) (d : Quad) (e f : Byte) (g : Half) (part : StrokePart) :
    Honest s (strokeResult p a b c d e f g part s) := by
  unfold strokeResult
  split
  · refine .forVoice fun v => ?_
    dsimp only
    split
    · rename_i hadmit
      rw [s.admitEntry_refused hadmit]
      exact .refuse _
    · exact .ok ((s.admitted_link ‹_›).trans (State.settle_link _)) fun _ => rfl
  · exact .refuse _

theorem chopResult_honest (p : PortId) (a b : Byte) : Honest s (chopResult p a b s) := .forVoice fun _ => .plain rfl rfl

theorem cancelResult_honest (p : PortId) (a b : Byte) : Honest s (cancelResult p a b s) :=
  .forVoice fun _ => .ok (s.leaveAll_link _ _) ((s.leaveAll_decisions _ _).trans ·)

theorem flushResult_honest (p : PortId) (a : Byte) : Honest s (flushResult p a s) :=
  .forVoice fun v => .ok (s.flushVoice_link v) ((s.flushVoice_decisions v).trans ·)

theorem closeResult_honest (p : PortId) (a : Byte) : Honest s (closeResult p a s) :=
  .forVoice fun v => .ok (s.closeVoice_link v) ((s.closeVoice_decisions v).trans ·)

theorem State.unlock_link (n : StrikerId) : LinkKept s (s.unlock n) := .ite (.of_ports rfl) (.of_ports rfl)

theorem unlockResult_honest (a : Byte) : Honest s (unlockResult a s) := by
  unfold unlockResult
  split
  · exact .refuse _
  · exact .ok ((s.unlock_link _).trans (State.settle_link _)) fun _ => rfl

theorem seekResult_honest (p : PortId) (a : Half) : Honest s (seekResult p a s) :=
  .ite (.refuse _) (.answered (s.modPort_line p fun _ => ⟨rfl, rfl⟩) id)

theorem loadResult_honest (p : PortId) (a : List Byte) : Honest s (loadResult p a s) := by
  unfold loadResult
  dsimp only
  repeat' split
  · exact .refuse _
  · exact .refuse _
  · exact .refuse _
  · exact .ok (LinkKept.after (State.modPort_link _ p (f := fun q => { q with loadPointer := _ }) fun _ => ⟨rfl, rfl, fun _ => id⟩) rfl) id

theorem peekResult_honest (a : Half) (b : Byte) : Honest s (peekResult a b s) := .ite (.refuse _) .same

theorem setAreaResult_honest (p : PortId) (a : Byte) (b c : Half) : Honest s (setAreaResult p a b c s) :=
  .forVoice fun _ => .ite (.refuse _) (.ite (.refuse _) (.plain rfl rfl))

theorem cueResult_honest (o : Interleaving) (p : PortId) (a b c d : Byte) (e : Quad) (f : Half) :
    Honest s (cueResult o p a b c d e f s) := by
  unfold cueResult
  split
  · refine .forVoice fun v => ?_
    dsimp only
    split
    · exact .refuse _
    · exact .ite (.refuse _) (.ite (.refuse _) (.ok ((s.startPlayer_link _ _ _ _ _ _ _).trans (State.settle_link _)) fun _ => rfl))
  · exact .refuse _

theorem chimeResult_honest (o : Interleaving) (p : PortId) (a : Half) (b c : Byte) (d : Quad) (e : Half) :
    Honest s (chimeResult o p a b c d e s) := by
  unfold chimeResult
  split
  · exact .refuse _
  · exact .ite (.refuse _) (.ite (.refuse _)
      (.ok (LinkKept.after ((State.startPlayer_link _ _ _ _ _ _ _ _).trans (State.settle_link _)) rfl) fun _ => rfl))

theorem haltResult_honest (p : PortId) (a b : Byte) : Honest s (haltResult p a b s) := by
  unfold haltResult
  split
  · exact .refuse _
  · refine .forVoice fun v => .ok ?_ fun h => ?_ <;> split
    · exact LinkKept.after (State.flushVoice_link _ _) rfl
    · exact .of_ports rfl
    · exact (State.flushVoice_decisions _ _).trans h
    · exact h

theorem pushResult_honest (o : Interleaving) (p : PortId) (a : Byte) (b : List Byte) : Honest s (pushResult o p a b s) := by
  refine .ite (.refuse _) (.forVoice fun v => ?_)
  dsimp only
  split
  · exact .refuse _
  · refine .ite (.refuse _) (.ite (.refuse _) (.ok ?_ fun h => ?_)) <;> unfold State.pushed <;> dsimp only <;> split
    · exact LinkKept.after ((State.resumePlayer_link _ _ _).trans (State.settle_link _)) rfl
    · exact .of_ports rfl
    · rfl
    · exact h

theorem clearResult_honest (p : PortId) (a : Byte) : Honest s (clearResult p a s) := by
  refine .forVoice fun v => ?_
  split
  · exact .refuse _
  · exact .ite (.refuse _) (.plain rfl rfl)

theorem pedalResult_honest (p : PortId) (a b c : Byte) : Honest s (pedalResult p a b c s) := by
  unfold pedalResult
  split
  · exact .forVoice fun v => .ite (.plain rfl rfl) (.ite (.refuse _) (.plain rfl rfl))
  · exact .refuse _

theorem State.startDischarge_link : LinkKept s s.startDischarge :=
  (LinkKept.ite (c := s.stage.stage = .playing) s.leavePlaying_link .rfl').trans (.of_ports rfl)

theorem State.stageUp_link : LinkKept s s.stageUp := .ite (.of_ports rfl) .rfl'

theorem State.stagePlay_link : LinkKept s s.stagePlay := by
  unfold State.stagePlay
  split
  · exact .of_ports rfl
  · exact .of_ports rfl
  · exact s.enterStage_link _
  · exact .rfl'

theorem State.stageRest_link : LinkKept s s.stageRest := by
  unfold State.stageRest
  split
  · exact .of_ports rfl
  · exact s.leavePlaying_link.trans (State.enterStage_link _ _)
  · exact .rfl'

theorem State.stageDown_link : LinkKept s s.stageDown := by
  unfold State.stageDown
  split
  · exact .rfl'
  · exact .rfl'
  · exact s.startDischarge_link

theorem echoReadResult_honest (p : PortId) (a : Byte) : Honest s (echoReadResult p a s) :=
  .ite (.refuse _) (.answered (s.modPort_line p fun _ => ⟨rfl, rfl⟩) id)

theorem noticesResult_honest (p : PortId) : Honest s (noticesResult p s) :=
  .answered (s.modPort_line p fun _ => ⟨(Port.levelCheck_link _).1, (Port.levelCheck_link _).2.1⟩) id

theorem senseStatusResult_honest (a : Byte) : Honest s (senseStatusResult a s) := by
  unfold senseStatusResult
  split
  · exact .refuse _
  · exact .same

/-- Every request's body is honest. -/
theorem resultOf_honest {c : Instr} {body : State → Result} (hbody : resultOf c = some body) : Honest s (body s) := by
  cases c <;> cases hbody
  case setRail => exact setRailResult_honest ..
  case setStriker => exact setStrikerResult_honest ..
  case setBar => exact setBarResult_honest ..
  case setClass => exact setClassResult_honest ..
  case setDamper => exact setDamperResult_honest ..
  case setCharge => exact setChargeResult_honest ..
  case setQuota => exact setQuotaResult_honest ..
  case setCurve => exact setCurveResult_honest ..
  case curveMode => exact curveModeResult_honest ..
  case commit => exact commitResult_honest ..
  case setScan => exact setScanResult_honest ..
  case setPort => exact setPortResult_honest ..
  case conduct => exact conductResult_honest ..
  case tempo => exact .conducted (.of_ports rfl) id
  case ramp => exact .conducted (.of_ports rfl) id
  case meter => exact .conducted (.of_ports rfl) id
  case run => exact runResult_honest ..
  case stop => exact stopResult_honest ..
  case locate => exact .conducted (s.locateTo_link _) ((s.locateTo_decisions _).trans ·)
  case source => exact sourceResult_honest ..
  case openVoice => exact openResult_honest ..
  case closeVoice => exact closeResult_honest ..
  case strike => exact strokeResult_honest ..
  case roll => exact strokeResult_honest ..
  case press => exact strokeResult_honest ..
  case chop => exact chopResult_honest ..
  case cancel => exact cancelResult_honest ..
  case flush => exact flushResult_honest ..
  case unlock => exact unlockResult_honest ..
  case seek => exact seekResult_honest ..
  case load => exact loadResult_honest ..
  case peek => exact peekResult_honest ..
  case setArea => exact setAreaResult_honest ..
  case cue => exact cueResult_honest ..
  case chime => exact chimeResult_honest ..
  case halt => exact haltResult_honest ..
  case push => exact pushResult_honest ..
  case clear => exact clearResult_honest ..
  case pedal => exact pedalResult_honest ..
  case up => exact .stage s.stageUp_link (s.stageUp_decisions.trans ·)
  case play => exact .stage s.stagePlay_link (s.stagePlay_decisions.trans ·)
  case rest => exact .stage s.stageRest_link (s.stageRest_decisions.trans ·)
  case down => exact .stage s.stageDown_link (s.stageDown_decisions.trans ·)
  case echoRead => exact echoReadResult_honest ..
  case notices => exact noticesResult_honest ..
  case senseStatus => exact senseStatusResult_honest ..
  case timeStatus => exact .same
  case calendarStatus => exact .same
  case stageStatus => exact .same
  all_goals exact .status

end

end Sys2Proof.Machine
end

section
/-! SUPPORT. Every command answers and settles, every request is answered, and what is refused before a request's own rule. -/
namespace Sys2Proof.Machine

/-! ## Decisions left over by the ports and the events -/

section
variable (s : State)

@[simp] theorem State.loseFrame_decisions (p : PortId) : (s.loseFrame p).decisions = s.decisions := by
  obtain h | h := s.loseFrame_cases p <;> rw [h]
  rfl

theorem request_decisions (w : When) (p : PortId) (kind : Byte) {body : State → Result} (hbody : ∀ t, Honest t (body t))
    (h : s.decisions = []) : (request w p kind body s).decisions = [] := by
  cases hready : s.ready p with
  | true =>
    rw [request_ready hready]
    exact (hbody _).settled h
  | false =>
    rw [request_lost hready, State.loseFrame_decisions]
    exact h

@[simp] theorem State.dropChime_decisions (p : PortId) : (s.dropChime p).decisions = s.decisions := by
  unfold State.dropChime
  split
  · exact State.flushVoice_decisions _ _
  · rfl

@[simp] theorem State.dropConductor_decisions (p : PortId) : (s.dropConductor p).decisions = s.decisions := by
  unfold State.dropConductor
  split <;> rfl

@[simp] theorem State.portReset_decisions (p : PortId) : (s.portReset p).decisions = s.decisions :=
  (State.dropConductor_decisions _ p).trans ((State.dropChime_decisions _ p).trans (State.closeVoices_decisions _ _))

@[simp] theorem State.frameMismatch_decisions (p : PortId) : (s.frameMismatch p).decisions = s.decisions := by
  unfold State.frameMismatch
  split
  · rfl
  · exact s.loseFrame_decisions p

@[simp] theorem State.frameUnknown_decisions (p : PortId) : (s.frameUnknown p).decisions = s.decisions := by
  unfold State.frameUnknown
  split
  · rfl
  · exact s.loseFrame_decisions p

theorem State.wholeFrame_decisions (w : When) (p : PortId) (check : Byte) (h : s.decisions = []) :
    (s.wholeFrame w p check).decisions = [] := by
  unfold State.wholeFrame
  dsimp only
  repeat' split
  · exact (s.frameMismatch_decisions p).trans h
  · exact (s.frameUnknown_decisions p).trans h
  · exact request_decisions s w p _ (fun _ => .refuse _) h
  · exact request_decisions s w p _ (fun t => resultOf_honest t ‹_›) h
  · exact (s.frameUnknown_decisions p).trans h

theorem State.byteArrives_decisions (w : When) (p : PortId) (b : Byte) (h : s.decisions = []) :
    (s.byteArrives w p b).decisions = [] := by
  have htaken : (s.takeByte w p b).decisions = [] := by
    unfold State.takeByte
    dsimp only
    repeat' split
    · exact State.wholeFrame_decisions _ _ _ _ h
    · exact h
    · exact State.wholeFrame_decisions _ _ _ _ h
    · exact h
  obtain ⟨-, hb⟩ | ⟨-, -, hb⟩ | ⟨-, -, hb⟩ := State.byteArrives_cases w p b s <;> rw [hb]
  · exact h
  · exact htaken
  · split
    · exact (s.loseFrame_decisions p).trans h
    · exact h

@[simp] theorem State.enterFault_decisions (cause : FaultCause) : (s.enterFault cause).decisions = s.decisions := by
  unfold State.enterFault
  dsimp only
  split <;> simp

theorem State.counterExpires_decisions (o : Interleaving) (h : s.decisions = []) : (s.counterExpires o).decisions = [] := by
  unfold State.counterExpires
  repeat' split
  · exact h
  · exact h
  · unfold State.counterTick
    dsimp only
    split
    · exact State.tick_decisions _ _ _
    · exact State.tick_decisions _ _ _

theorem State.syncPulse_decisions (o : Interleaving) (h : s.decisions = []) : (s.syncPulse o).decisions = [] := by
  unfold State.syncPulse
  dsimp only
  repeat' split
  · exact h
  · exact State.crossBeat_decisions _ _ _ h
  · exact h
  · exact State.crossBeat_decisions _ _ _ h

theorem State.guardMoved_decisions (closed : Bool) : (s.guardMoved closed).decisions = s.decisions := by
  unfold State.guardMoved
  dsimp only
  split
  · rfl
  · exact State.leavePlaying_decisions _
  · rfl
  · rfl

theorem event_decisions (t : Nat) {f : State → State} (hf : ∀ u, u.decisions = [] → (f u).decisions = [])
    (h : s.decisions = []) : (event t f s).decisions = [] := by
  unfold event
  split
  · exact h
  · exact hf _ h

theorem timerEvent_decisions (w : When) (due : Option Nat) {f : State → State}
    (hf : ∀ u, u.decisions = [] → (f u).decisions = []) (h : s.decisions = []) : (timerEvent w due f s).decisions = [] := by
  cases due with
  | none => exact h
  | some t => exact event_decisions s _ hf h

/-- A power event, an event of the line or a timer's event leaves no decision over. -/
theorem exec_event_decisions {c : Instr} (hc : resultOf c = none) (h : s.decisions = []) :
    ∃ t, exec c s = .next t ∧ t.decisions = [] := by
  cases c <;> try cases hc
  case powerOn => exact ⟨_, rfl, rfl⟩
  case resetAssert => exact ⟨_, rfl, h⟩
  case resetRelease =>
    refine ⟨_, rfl, ?_⟩
    unfold State.releaseReset
    split
    · rfl
    · exact h
  case framingError => exact ⟨_, rfl, event_decisions s _ (fun u hu => by split <;> exact hu) h⟩
  case lineBreak => exact ⟨_, rfl, event_decisions s _ (fun u hu => by split <;> simpa using hu) h⟩
  case frameLengthAbandon => exact ⟨_, rfl, event_decisions s _ (fun u hu => by split <;> exact hu) h⟩
  case startByteOverflow => exact ⟨_, rfl, event_decisions s _ (fun u hu => by split <;> simpa using hu) h⟩
  case checkByteMismatch => exact ⟨_, rfl, event_decisions s _ (fun u hu => (u.frameMismatch_decisions _).trans hu) h⟩
  case unknownKind => exact ⟨_, rfl, event_decisions s _ (fun u hu => (u.frameUnknown_decisions _).trans hu) h⟩
  case silenceExpiry => exact ⟨_, rfl, timerEvent_decisions s _ _ (fun u hu => (u.portReset_decisions _).trans hu) h⟩
  case tickExpiry => exact ⟨_, rfl, timerEvent_decisions s _ _ (fun u hu => u.counterExpires_decisions _ hu) h⟩
  case syncInPulse => exact ⟨_, rfl, event_decisions s _ (fun u hu => u.syncPulse_decisions _ hu) h⟩
  case lossTimerExpiry => exact ⟨_, rfl, timerEvent_decisions s _ _ (fun u hu => u.toInternal_decisions _ hu) h⟩
  case targetFireTimeReached =>
    refine ⟨_, rfl, timerEvent_decisions s _ _ (fun u hu => ?_) h⟩
    unfold State.targetReached
    split
    · rfl
    · exact hu
  case deadlineExpiry =>
    refine ⟨_, rfl, timerEvent_decisions s _ _ (fun u hu => ?_) h⟩
    unfold State.deadlinePassed
    split
    · rfl
    · exact hu
  case playerStallResume => exact ⟨_, rfl, event_decisions s _ (fun u hu => by split <;> first | rfl | exact hu) h⟩
  case scanPacerFiring =>
    refine ⟨_, rfl, timerEvent_decisions s _ _ (fun u hu => ?_) h⟩
    unfold State.pacerFires
    dsimp only
    split <;> exact hu
  case railConversionComplete =>
    refine ⟨_, rfl, timerEvent_decisions s _ _ (fun u hu => ?_) h⟩
    unfold State.railConverted
    repeat' split
    · rfl
    · exact hu
    · exact hu
  case pickupConversionComplete =>
    refine ⟨_, rfl, timerEvent_decisions s _ _ (fun u hu => ?_) h⟩
    unfold State.pickupConverted
    repeat' split
    · rfl
    · exact hu
    · exact hu
  case windowClose =>
    refine ⟨_, rfl, timerEvent_decisions s _ _ (fun u hu => ?_) h⟩
    split
    · rfl
    · exact hu
  case chargeExpiry => exact ⟨_, rfl, timerEvent_decisions s _ _ (fun u hu => (State.enterFault_decisions _ _).trans hu) h⟩
  case guardEdge =>
    exact ⟨_, rfl, event_decisions _ _ (fun u hu => by split; exacts [hu, (u.guardMoved_decisions _).trans hu]) h⟩
  case byteTaken => exact ⟨_, rfl, event_decisions s _ (fun u hu => u.byteArrives_decisions _ _ _ hu) h⟩
  case breakEnd | replySent => exact ⟨_, rfl, event_decisions s _ (fun _ hu => hu) h⟩
  case spacingEnd | windowSlotFreeing | driveEnd | holdEnd | recoveryEnd | coolingStep =>
    exact ⟨_, rfl, timerEvent_decisions s _ _ (fun _ _ => rfl) h⟩
  all_goals exact ⟨_, rfl, timerEvent_decisions s _ _ (fun _ hu => hu) h⟩

/-- Every command leaves no decision over. -/
theorem exec_decisions (c : Instr) (h : s.decisions = []) : ∃ t, exec c s = .next t ∧ t.decisions = [] := by
  cases hbody : resultOf c with
  | none => exact exec_event_decisions s hbody h
  | some body =>
    have hsome : (requestPort c).isSome = true := by
      rw [← (resultOf_isSome c).1, hbody]
      rfl
    obtain ⟨⟨w, p⟩, hport⟩ := Option.isSome_iff_exists.1 hsome
    obtain ⟨kind, hkind⟩ := Option.isSome_iff_exists.1 ((resultOf_isSome c).2.trans hsome)
    obtain ⟨hfits, hlarge⟩ := exec_request s hport hkind hbody
    obtain hlength | hlength := Nat.lt_or_ge 60 (requestPayload c).length
    · exact ⟨_, hlarge hlength, h⟩
    · exact ⟨_, hfits hlength, request_decisions s w p kind (fun t => resultOf_honest t hbody) h⟩

end

/-- Settles O2: what every command keeps, and the decisions it leaves. -/
theorem everyCommandAnswers : Obligations.EveryCommandAnswers := by
  intro c s
  obtain ⟨t, ht, hkeeps⟩ := exec_keeps s c
  refine ⟨t, ht, hkeeps.pending, hkeeps.now, fun h => ?_⟩
  obtain ⟨u, hu, hdecisions⟩ := exec_decisions s c h
  obtain rfl : t = u := by simpa [ht] using hu
  exact hdecisions

/-! ## A request's reply (R170) -/

theorem Port.flagsByte_bits (q : Port) : q.flagsByte.toNat < 8 ∧ q.flagsByte.getLsbD 0 = q.overflow ∧
    q.flagsByte.getLsbD 1 = q.noticeLine ∧ q.flagsByte.getLsbD 2 = !q.echo.isEmpty := by
  unfold Port.flagsByte
  generalize q.overflow = a
  generalize q.noticeLine = b
  generalize q.echo.isEmpty = c
  revert a b c
  decide

/-- The body of a request that can be sent. -/
theorem exec_sent {c : Instr} {w : When} {p : PortId} {kind : Byte} (hwf : c.wellFormed = true)
    (hport : requestPort c = some (w, p)) (hkind : kindCode c = some kind) :
    ∃ body, resultOf c = some body ∧ ∀ s, exec c s = .next (request w p kind body s) := by
  obtain ⟨body, hbody⟩ := Option.isSome_iff_exists.1 ((resultOf_isSome c).1.trans (Option.isSome_iff_exists.2 ⟨_, hport⟩))
  exact ⟨body, hbody, fun s => exec_of_request hwf hport hkind hbody⟩

/-- Settles O12: the reply is composed from the port as the body leaves it, whose link state is as it was. -/
theorem requestsAreAnswered : Obligations.RequestsAreAnswered := by
  refine ⟨rfl, State.ready_iff, fun c w p kind s hwf hport hkind hready => ?_⟩
  obtain ⟨body, hbody, hexec⟩ := exec_sent hwf hport hkind
  have honest := resultOf_honest (s.taken w p) hbody
  obtain ⟨hsmall, hoverflow, hnotice, hecho⟩ := Port.flagsByte_bits ((body (s.taken w p)).1.port p)
  have hport' : ((body (s.taken w p)).1.modPort p
      (Port.answer (kind + 0x80#8) (body (s.taken w p)).2.1 (body (s.taken w p)).2.2)).port p =
      ((body (s.taken w p)).1.port p).answer (kind + 0x80#8) (body (s.taken w p)).2.1 (body (s.taken w p)).2.2 := by
    rw [State.modPort_port, if_pos rfl]
  refine ⟨_, (body (s.taken w p)).2.1, (body (s.taken w p)).2.2, ((body (s.taken w p)).1.port p).flagsByte, (hexec s).trans (congrArg _ (request_ready hready)), ?_⟩
  rw [hport']
  refine ⟨rfl, hsmall, ?_, hnotice, hecho, rfl, ?_, State.ready_of_reply (by rw [hport']; rfl), fun hst => ?_⟩
  · rw [hoverflow, honest.link.overflow, State.taken_port]
    rfl
  · exact (honest.link.receiver p).trans (by rw [State.taken_port]; rfl)
  · have hsame : body (s.taken w p) = (s.taken w p, (body (s.taken w p)).2.1, (body (s.taken w p)).2.2) :=
      Prod.ext (honest.refused hst) rfl
    rw [← request_ready hready, request_answers hready hsame]

end Sys2Proof.Machine
end

section
/-! SUPPORT. What is refused before a request's own rule: fields that name nothing, and setup outside its stages. -/
namespace Sys2Proof.Machine

/-! ## Fields that name nothing (R177) -/

theorem not_beyond_of_fieldId {n : Nat} {b : Byte} {i : Fin n} (h : fieldId n b = some i) : beyond n b = false := by
  unfold fieldId numbered at h
  split at h
  · simpa [beyond] using ‹b.toNat < n›
  · cases h

theorem not_beyondOptional_of_optionalId {n : Nat} {b : Byte} {i : Option (Fin n)} (h : optionalId n b = some i) :
    beyondOptional n b = false := by
  unfold optionalId at h
  split at h
  · rename_i hb
    subst hb
    simp [beyondOptional]
  · obtain ⟨j, hj, -⟩ := Option.map_eq_some_iff.1 h
    have := not_beyond_of_fieldId hj
    simp_all [beyond, beyondOptional]

theorem absent_of_optionalId {n : Nat} {b : Byte} (h : optionalId n b = some none) : b = 0xFF#8 := by
  unfold optionalId at h
  split at h
  · assumption
  · simp at h

theorem present_of_optionalId {n : Nat} {b : Byte} {i : Fin n} (h : optionalId n b = some (some i)) : b ≠ 0xFF#8 := by
  rintro rfl
  simp [optionalId] at h

theorem not_beyond_of_fieldBool {b : Byte} {x : Bool} (h : fieldBool b = some x) : beyond 2 b = false := by
  unfold fieldBool at h
  split at h <;> simp_all [beyond]

theorem not_beyond_of_fieldClass {b : Byte} {x : InstrumentClass} (h : fieldClass b = some x) : beyond 3 b = false := by
  unfold fieldClass at h
  split at h <;> simp_all [beyond]

theorem not_beyond_of_fieldMode {b : Byte} {x : PlayerMode} (h : fieldMode b = some x) : beyond 3 b = false := by
  unfold fieldMode at h
  split at h <;> simp_all [beyond]

theorem not_beyond_of_fieldUpdateMode {b : Byte} {x : UpdateMode} (h : fieldUpdateMode b = some x) : beyond 2 b = false := by
  unfold fieldUpdateMode at h
  split at h <;> simp_all [beyond]

theorem not_noGain_of_fieldGain {b : Byte} {x : Nat} (h : fieldGain b = some x) : noGain b = false := by
  have hgains : ∀ a : Byte, (fieldGain a).isSome = true → noGain a = false := by decide
  exact hgains b (by rw [h]; rfl)

theorem not_beyond_of_fieldForm {b : Byte} {x : Bool × Bool} (h : fieldForm b = some x) : beyond 4 b = false := by
  have hforms : ∀ a : Byte, (fieldForm a).isSome = true → beyond 4 a = false := by decide
  exact hforms b (by rw [h]; rfl)

/-- SET_BAR's striker fields name strikers, and a second one only after a first. -/
theorem named_of_fieldStrikers {a b : Byte} {x : Option StrikerId × Option StrikerId} (h : fieldStrikers a b = some x) :
    beyondOptional 96 a = false ∧ beyondOptional 96 b = false ∧ (a = 0xFF#8 && b ≠ 0xFF#8) = false := by
  unfold fieldStrikers at h
  split at h
  · cases h
  · next y z hpair hfirst hsecond =>
    refine ⟨not_beyondOptional_of_optionalId hfirst, not_beyondOptional_of_optionalId hsecond, ?_⟩
    cases y with
    | some y => simp [present_of_optionalId hfirst]
    | none =>
      cases z with
      | some z => exact (hpair z rfl rfl).elim
      | none => simp [absent_of_optionalId hsecond]
  · cases h

theorem beyond_of_not_namesNotices {b : Byte} (h : 64 ≤ b.toNat) : namesNotices b = false := by
  have hsets : ∀ a : Byte, 64 ≤ a.toNat → namesNotices a = false := by decide
  exact hsets b h

section
variable (s : State)

theorem forVoice_beyond {holds : State → VoiceId → Bool} {voice : Byte} {body : VoiceId → State → Result}
    (h : beyond 16 voice = true) : forVoice holds voice body s = refuse .range s := by
  unfold forVoice
  split
  · rfl
  · next hv => simp [not_beyond_of_fieldId hv] at h

theorem statusOf_beyond {n : Nat} {b : Byte} {contents : Fin n → State → List Byte} (h : beyond n b = true) :
    statusOf n b contents s = refuse .range s := by
  unfold statusOf
  split
  · rfl
  · next hv => simp [not_beyond_of_fieldId hv] at h

theorem strokeResult_beyond (p : PortId) {voice bar form : Byte} (due : Quad) (strength tag : Byte) (sustain : Half)
    (part : StrokePart) (h : (beyond 16 voice || beyond 128 bar || beyond 4 form) = true) :
    strokeResult p voice bar form due strength tag sustain part s = refuse .range s := by
  unfold strokeResult
  split
  · next hbar hform => exact forVoice_beyond s (by simpa [not_beyond_of_fieldId hbar, not_beyond_of_fieldForm hform] using h)
  · rfl

/-- A field beyond its numbering or a code that names nothing is refused with RANGE by every request. -/
theorem resultOf_namesNothing {c : Instr} {body : State → Result} (hwf : c.wellFormed = true) (hbody : resultOf c = some body)
    (h : namesNothing c = true) : body s = refuse .range s := by
  cases c <;> try cases h
  all_goals obtain rfl := Option.some.inj hbody
  all_goals simp only [namesNothing] at h
  case setRail =>
    unfold setRailResult
    split
    · next hr hf => simp [not_beyond_of_fieldId hr, not_beyond_of_fieldBool hf] at h
    · rfl
  case setStriker =>
    unfold setStrikerResult
    split
    · next hn ht => simp [not_beyond_of_fieldId hn, not_beyond_of_fieldId ht] at h
    · rfl
  case setBar =>
    unfold setBarResult
    split
    · next hb hc hn hd hk =>
      obtain ⟨hfirst, hsecond, hpair⟩ := named_of_fieldStrikers hn
      simp only [not_beyond_of_fieldId hb, not_beyond_of_fieldClass hc, hfirst, hsecond, hpair,
        not_beyondOptional_of_optionalId hd, not_beyondOptional_of_optionalId hk] at h
      cases h
    · rfl
  case setClass =>
    unfold setClassResult
    split
    · next hc => simp [not_beyond_of_fieldClass hc] at h
    · rfl
  case setDamper =>
    unfold setDamperResult
    split
    · next hu => simp [not_beyond_of_fieldId hu] at h
    · rfl
  case setQuota =>
    unfold setQuotaResult
    split
    · next hq => simp [not_beyond_of_fieldId hq] at h
    · rfl
  case setCurve =>
    unfold setCurveResult
    rw [if_neg (by simpa [Instr.wellFormed] using hwf)]
    split
    · next ht => simp [not_beyond_of_fieldId ht] at h
    · rfl
  case curveMode =>
    unfold curveModeResult
    split
    · rfl
    · next hm => simp [not_beyond_of_fieldUpdateMode hm] at h
  case commit =>
    unfold commitResult
    split
    · rfl
    · next ht => simp [not_beyondOptional_of_optionalId ht] at h
  case setScan =>
    unfold setScanResult
    split
    · next hk hg => simp [not_beyond_of_fieldId hk, not_noGain_of_fieldGain hg] at h
    · rfl
  case setPort =>
    unfold setPortResult
    rw [if_pos]
    simp [beyond_of_not_namesNotices (of_decide_eq_true h)]
  case conduct =>
    unfold conductResult
    split
    · rfl
    all_goals next hb _ => simp [not_beyond_of_fieldBool hb] at h
  case openVoice =>
    unfold openResult
    split
    · rfl
    · next hv => simp [not_beyondOptional_of_optionalId hv] at h
  case closeVoice | chop | cancel | flush | setArea | clear => exact forVoice_beyond s h
  case strike | roll | press => exact strokeResult_beyond s _ _ _ _ _ _ h
  case unlock =>
    unfold unlockResult
    split
    · rfl
    · next hn => simp [not_beyond_of_fieldId hn] at h
  case cue =>
    unfold cueResult
    split
    · next hm hf => exact forVoice_beyond s (by simpa [not_beyond_of_fieldMode hm, not_beyond_of_fieldBool hf] using h)
    · rfl
  case chime =>
    unfold chimeResult
    split
    · rfl
    · next hf => simp [not_beyond_of_fieldBool hf] at h
  case halt =>
    unfold haltResult
    split
    · rfl
    · next hf => exact forVoice_beyond s (by simpa [not_beyond_of_fieldBool hf] using h)
  case push =>
    unfold pushResult
    rw [if_neg (by simpa [Instr.wellFormed] using hwf)]
    exact forVoice_beyond s h
  case pedal =>
    unfold pedalResult
    split
    · next hu hd =>
      exact forVoice_beyond s (by simpa [not_beyondOptional_of_optionalId hu, not_beyond_of_fieldBool hd] using h)
    · rfl
  case voiceStatus | barStatus | strikerStatus | railStatus | curveStatus | damperStatus => exact statusOf_beyond s h
  case senseStatus =>
    unfold senseStatusResult
    split
    · rfl
    · next hk => simp [not_beyondOptional_of_optionalId hk] at h

end

/-! ## Setup outside its stages (R161, R179) -/

/-- The part as it would be in DORMANT. -/
def State.asDormant (s : State) : State := { s with stage := { s.stage with stage := .dormant } }

/-- What a stage-bound request does in `s`, `r`, and would do in DORMANT, `d`: the same refusal, or a refusal with STAGE of what
DORMANT takes. -/
def StageLast (s : State) (r d : Result) : Prop :=
  (∃ st, st ≠ .ok ∧ r = refuse st s ∧ d = refuse st s.asDormant) ∨ (r = refuse .stage s ∧ d.2.1 = .ok)

namespace StageLast
variable {s : State}

theorem refuse {st : Status} (h : st ≠ .ok) : StageLast s (refuse st s) (Machine.refuse st s.asDormant) :=
  .inl ⟨st, h, rfl, rfl⟩

theorem ite {c : Prop} [Decidable c] {r d r' d' : Result} (h : StageLast s r d) (h' : StageLast s r' d') :
    StageLast s (if c then r else r') (if c then d else d') := by
  split
  · exact h
  · exact h'

theorem setup (hs : s.takesSetup = false) (f : State → State) (results : State → List Byte) :
    StageLast s (setupResult s f results) (setupResult s.asDormant f results) := by
  refine .inr ⟨?_, ?_⟩
  · simp [setupResult, hs]
  · rfl

end StageLast

theorem takesSetup_eq_false {s : State} (hd : s.stage.stage ≠ .dormant) (hs : s.stage.stage ≠ .standby)
    (hf : s.stage.stage ≠ .fault) : s.takesSetup = false := by
  simp [State.takesSetup, hd, hs, hf]

/-- The stage check of a stage-bound request comes last. -/
theorem resultOf_stageLast {c : Instr} {body : State → Result} (s : State) (hc : stageBound c = true)
    (hbody : resultOf c = some body) (hs : s.takesSetup = false) :
    StageLast s (body s) (body s.asDormant) := by
  cases c <;> try cases hc
  all_goals obtain rfl := Option.some.inj hbody
  case setRail =>
    unfold setRailResult
    split
    · next r f _ _ =>
      have hdormant : ¬ (f ≠ (s.asDormant.rail r).fitted && s.asDormant.stage.stage ≠ .dormant) = true := by
        simp [State.asDormant]
      refine .ite (.refuse nofun) ?_
      rw [if_neg hdormant]
      split
      · exact .inr ⟨rfl, rfl⟩
      · exact .setup hs _ _
    · exact .refuse nofun
  case setStriker =>
    unfold setStrikerResult
    split
    · exact .ite (.refuse nofun) (.setup hs _ _)
    · exact .refuse nofun
  case setBar =>
    unfold setBarResult
    split
    · exact .ite (.refuse nofun) (.ite (.refuse nofun) (.ite (.refuse nofun) (.ite (.refuse nofun) (.setup hs _ _))))
    · exact .refuse nofun
  case setClass =>
    unfold setClassResult
    split
    · exact .ite (.refuse nofun) (.setup hs _ _)
    · exact .refuse nofun
  case setDamper =>
    unfold setDamperResult
    split
    · exact .ite (.refuse nofun) (.setup hs _ _)
    · exact .refuse nofun
  case setCharge => exact .ite (.refuse nofun) (.setup hs _ _)
  case setQuota =>
    unfold setQuotaResult
    split
    · exact .ite (.refuse nofun) (.ite (.refuse nofun) (.setup hs _ _))
    · exact .refuse nofun

theorem Status.code_injective {a b : Status} (h : a.code = b.code) : a = b := by
  cases a <;> cases b <;> first | rfl | cases h

/-- The reply that a request taken sends. -/
theorem request_reply {w : When} {p : PortId} {kind : Byte} {body : State → Result} {s : State} (h : s.ready p = true) :
    ((request w p kind body s).port p).replied kind (body (s.taken w p)).2.1 (body (s.taken w p)).2.2 := by
  rw [request_ready h, State.modPort_port, if_pos rfl]
  exact ⟨_, rfl⟩

theorem Port.replied_status {q : Port} {kind : Byte} {a b : Status} {x y : List Byte} (h : q.replied kind a x)
    (g : q.replied kind b y) : a = b := by
  obtain ⟨flags, h⟩ := h
  obtain ⟨flags', g⟩ := g
  rw [h] at g
  simp only [Option.some.injEq, Reply.mk.injEq, List.cons.injEq, true_and] at g
  exact Status.code_injective g.1

/-- Settles O13: the fields before the rule of the request, and the stage after it. -/
theorem badFieldsAndStagesAreRefused : Obligations.BadFieldsAndStagesAreRefused := by
  intro c w p kind s hwf hport hkind hready
  obtain ⟨body, hbody, hexec⟩ := exec_sent hwf hport hkind
  have hrefused : ∀ {st : Status}, body (s.taken w p) = refuse st (s.taken w p) →
      exec c s = .next (s.answering w p kind st []) := fun h => (hexec s).trans (congrArg _ (request_refused hready h))
  refine ⟨fun h => hrefused (resultOf_namesNothing _ hwf hbody h), fun hbound hdormant hstandby hfault => ?_⟩
  have hlast := resultOf_stageLast (s.taken w p) hbound hbody (takesSetup_eq_false hdormant hstandby hfault)
  have hreply : ((request w p kind body s.asDormant).port p).replied kind (body (s.taken w p).asDormant).2.1
      (body (s.taken w p).asDormant).2.2 := request_reply (s := s.asDormant) hready
  refine ⟨?_, ?_, fun st hst h => ?_⟩
  · obtain ⟨st, hst, hr, -⟩ | ⟨hr, -⟩ := hlast
    · exact ⟨st, hst, hrefused hr⟩
    · exact ⟨.stage, nofun, hrefused hr⟩
  · rintro ⟨t, results, ht, hok⟩
    obtain rfl : request w p kind body s.asDormant = t := by simpa using (hexec s.asDormant).symm.trans ht
    obtain ⟨st, hst, -, hd⟩ | ⟨hr, -⟩ := hlast
    · rw [hd] at hreply
      exact absurd (Port.replied_status hreply hok) hst
    · exact hrefused hr
  · have ht : request w p kind body s.asDormant = s.asDormant.answering w p kind st [] := by
      injection (hexec s.asDormant).symm.trans h
    have hanswer : ((s.asDormant.answering w p kind st []).port p).replied kind st [] := by
      rw [← request_refused (body := Machine.refuse st) (s := s.asDormant) hready rfl]
      exact request_reply (s := s.asDormant) hready
    rw [ht] at hreply
    have hstatus := Port.replied_status hreply hanswer
    obtain ⟨st', -, hr, hd⟩ | ⟨-, hd⟩ := hlast
    · rw [hd] at hstatus
      obtain rfl : st' = st := hstatus
      exact hrefused hr
    · exact absurd (hstatus.symm.trans hd) hst

end Sys2Proof.Machine
end

section
/-! SUPPORT. SET_RAIL, SET_STRIKER and SET_BAR (R63, R54, R51): what their checks say, and what they answer in each case. -/
namespace Sys2Proof.Machine

/-! ## A request as a command, by what its body does -/

section
variable {c : Instr} {w : When} {p : PortId} {kind : Byte} {body : State → Result} {s : State} {st : Status}

theorem exec_refused (hexec : exec c s = .next (request w p kind body s)) (hready : s.ready p = true)
    (h : body (s.taken w p) = refuse st (s.taken w p)) : exec c s = .next (s.answering w p kind st []) := by
  rw [hexec, request_refused hready h]

theorem exec_answers {u : State} {results : List Byte} (hexec : exec c s = .next (request w p kind body s))
    (hready : s.ready p = true) (h : body (s.taken w p) = (u.taken w p, st, results)) :
    exec c s = .next (u.answering w p kind st results) := by
  rw [hexec, request_answers hready h]

end

/-! ## Fields written by their values (R195) -/

@[simp] theorem fieldBool_bitByte (b : Bool) : fieldBool (bitByte b) = some b := by
  cases b <;> rfl

@[simp] theorem fieldClass_code (c : InstrumentClass) : fieldClass (BitVec.ofNat 8 c.code) = some c := by
  cases c <;> rfl

theorem optionalId_fieldOf {n : Nat} (hn : n ≤ 255) (i : Option (Fin n)) : optionalId n (fieldOf i) = some i := by
  cases i with
  | none => rfl
  | some i =>
    have hbyte : (BitVec.ofNat 8 i.1 : Byte) ≠ 0xFF#8 := fun h => by
      have := congrArg BitVec.toNat h
      simp at this
      omega
    simp [optionalId, fieldOf, hbyte, fieldId_ofNat (show n ≤ 256 by omega)]

/-- Two striker fields are read where the second is named only after a first. -/
theorem fieldStrikers_fieldOf {first second : Option StrikerId} (h : second ≠ none → first ≠ none) :
    fieldStrikers (fieldOf first) (fieldOf second) = some (first, second) := by
  unfold fieldStrikers
  rw [optionalId_fieldOf (by decide), optionalId_fieldOf (by decide)]
  cases first with
  | some m => rfl
  | none =>
    cases second with
    | none => rfl
    | some n => exact absurd rfl (h (Option.some_ne_none n))

theorem fieldStrikers_second_alone (n : StrikerId) : fieldStrikers (fieldOf (none : Option StrikerId)) (fieldOf (some n)) = none := by
  unfold fieldStrikers
  rw [optionalId_fieldOf (by decide), optionalId_fieldOf (by decide)]

/-! ## The stage check of setup (R161) -/

theorem State.takesSetup_iff {s : State} : s.takesSetup = true ↔
    s.stage.stage = .dormant ∨ s.stage.stage = .standby ∨ s.stage.stage = .fault := by
  simp [State.takesSetup, or_assoc]

section
variable {s : State} {f : State → State} {results : State → List Byte}

theorem setupResult_taken (h : s.stage.stage = .dormant ∨ s.stage.stage = .standby ∨ s.stage.stage = .fault) :
    setupResult s f results = (f s, .ok, results (f s)) := if_pos (State.takesSetup_iff.2 h)

theorem setupResult_stage (h : ¬ (s.stage.stage = .dormant ∨ s.stage.stage = .standby ∨ s.stage.stage = .fault)) :
    setupResult s f results = refuse .stage s := if_neg (fun g => h (State.takesSetup_iff.1 g))

end

/-! ## SET_RAIL (R63) -/

theorem State.railUsed_iff {s : State} {r : RailId} : s.railUsed r = true ↔ ∃ b, ∃ n ∈ (s.bar b).strikers, railOf n = r := by
  rw [State.railUsed, Bank.any_toList]
  simp [State.bar]

theorem RailSettings.outside_iff {x : RailSettings} : x.inRange = false ↔
    10000 < x.spacing ∨ x.window < 1000 ∨ 100000 < x.window ∨ x.count < 1 ∨ 8 < x.count ∨ x.nominal < 1200 ∨
      4800 < x.nominal ∨ x.floor < 50 ∨ 95 < x.floor := by
  rw [← Bool.not_eq_true]
  simp only [RailSettings.inRange, Bool.and_eq_true, decide_eq_true_eq]
  omega

/-- The settings that a SET_RAIL's fields give. -/
def RailSettings.asked (f : Bool) (spacing : Half) (window : Quad) (count : Byte) (nominal : Half) (floor : Byte) : RailSettings :=
  { fitted := f, spacing := spacing.toNat, window := window.toNat, count := count.toNat, nominal := nominal.toNat
    floor := floor.toNat }

/-- SET_RAIL's own checks fail: a value is out of range, or the rail is unfitted under a bar's striker. -/
def RailRefused (s : State) (r : RailId) (x : RailSettings) : Prop :=
  x.inRange = false ∨ (x.fitted = false ∧ ∃ b, ∃ n ∈ (s.bar b).strikers, railOf n = r)

section
variable {s : State} {r : RailId} {f : Bool} {spacing : Half} {window : Quad} {count : Byte} {nominal : Half} {floor : Byte}

theorem railRefused_iff : RailRefused s r (.asked f spacing window count nominal floor) ↔
    10000 < spacing.toNat ∨ window.toNat < 1000 ∨ 100000 < window.toNat ∨ count.toNat < 1 ∨
      8 < count.toNat ∨ nominal.toNat < 1200 ∨ 4800 < nominal.toNat ∨ floor.toNat < 50 ∨ 95 < floor.toNat ∨
      (f = false ∧ ∃ b, ∃ n ∈ (s.bar b).strikers, railOf n = r) := by
  have hrange : (RailSettings.asked f spacing window count nominal floor).inRange = false ↔
      10000 < spacing.toNat ∨ window.toNat < 1000 ∨ 100000 < window.toNat ∨ count.toNat < 1 ∨
        8 < count.toNat ∨ nominal.toNat < 1200 ∨ 4800 < nominal.toNat ∨ floor.toNat < 50 ∨ 95 < floor.toNat := by
    exact RailSettings.outside_iff
  rw [RailRefused, hrange]
  simp only [or_assoc, RailSettings.asked]

theorem setRailResult_named : setRailResult (BitVec.ofNat 8 r.1) (bitByte f) spacing window count nominal floor s =
    if !(RailSettings.asked f spacing window count nominal floor).inRange || (!f && s.railUsed r) then refuse .range s
    else if f ≠ (s.rail r).fitted && s.stage.stage ≠ .dormant then refuse .stage s
    else setupResult s
      (fun s => s.modRail r (Rail.withSettings s.now (.asked f spacing window count nominal floor))) (fun _ => []) := by
  unfold setRailResult
  rw [fieldId_ofNat (by decide), fieldBool_bitByte]
  rfl

theorem railRefused_iff_check : RailRefused s r (.asked f spacing window count nominal floor) ↔
    (!(RailSettings.asked f spacing window count nominal floor).inRange || (!f && s.railUsed r)) = true := by
  rw [RailRefused, ← State.railUsed_iff]
  simp [RailSettings.asked]

theorem setRailResult_range (h : RailRefused s r (.asked f spacing window count nominal floor)) :
    setRailResult (BitVec.ofNat 8 r.1) (bitByte f) spacing window count nominal floor s = refuse .range s := by
  rw [setRailResult_named, if_pos (railRefused_iff_check.1 h)]

theorem setRailResult_stage (h : ¬ RailRefused s r (.asked f spacing window count nominal floor))
    (hstage : ¬ (s.stage.stage = .dormant ∨ s.stage.stage = .standby ∨ s.stage.stage = .fault) ∨
      (f ≠ (s.rail r).fitted ∧ s.stage.stage ≠ .dormant)) :
    setRailResult (BitVec.ofNat 8 r.1) (bitByte f) spacing window count nominal floor s = refuse .stage s := by
  rw [setRailResult_named, if_neg (fun g => h (railRefused_iff_check.2 g))]
  obtain hstage | ⟨hfitted, hdormant⟩ := hstage
  · rw [setupResult_stage hstage, ite_self]
  · rw [if_pos (by simp [hfitted, hdormant])]

theorem setRailResult_ok (h : ¬ RailRefused s r (.asked f spacing window count nominal floor))
    (hstage : s.stage.stage = .dormant ∨ s.stage.stage = .standby ∨ s.stage.stage = .fault)
    (hfitted : f = (s.rail r).fitted ∨ s.stage.stage = .dormant) :
    setRailResult (BitVec.ofNat 8 r.1) (bitByte f) spacing window count nominal floor s =
      (s.modRail r (Rail.withSettings s.now (.asked f spacing window count nominal floor)), .ok, []) := by
  have hchanges : ¬ (f ≠ (s.rail r).fitted && s.stage.stage ≠ .dormant) = true := by
    obtain h | h := hfitted <;> simp [h]
  rw [setRailResult_named, if_neg (fun g => h (railRefused_iff_check.2 g)), if_neg hchanges, setupResult_taken hstage]

end

/-! ## SET_STRIKER (R54) -/

theorem StrikerSettings.outside_iff {x : StrikerSettings} : x.inRange = false ↔
    x.recovery < 8000 ∨ 250000 < x.recovery ∨ x.minPulse < 200 ∨ 2000 < x.minPulse ∨ x.maxPulse < x.minPulse ∨
      12000 < x.maxPulse ∨ x.hard < 2000 ∨ 60000 < x.hard ∨ x.soft < 1000 ∨ x.hard < x.soft + 1000 ∨ 15 < x.lock := by
  rw [← Bool.not_eq_true]
  simp only [StrikerSettings.inRange, Bool.and_eq_true, decide_eq_true_eq]
  omega

/-- The parameters that a SET_STRIKER's fields give, the pulses in µs. -/
def StrikerSettings.asked (recovery : Quad) (minPulse : Byte) (maxPulse : Half) (c : TableId) (soft hard : Half) (lock : Byte) :
    StrikerSettings :=
  { recovery := recovery.toNat, minPulse := minPulse.toNat * 10, maxPulse := maxPulse.toNat * 10, table := c
    soft := soft.toNat, hard := hard.toNat, lock := lock.toNat }

section
variable {s : State} {n : StrikerId} {recovery : Quad} {minPulse : Byte} {maxPulse : Half} {c : TableId} {soft hard : Half}
  {lock : Byte}

theorem strikerSettings_outside_iff : (StrikerSettings.asked recovery minPulse maxPulse c soft hard lock).inRange = false ↔
    recovery.toNat < 8000 ∨ 250000 < recovery.toNat ∨ minPulse.toNat < 20 ∨ 200 < minPulse.toNat ∨
      maxPulse.toNat < minPulse.toNat ∨ 1200 < maxPulse.toNat ∨ soft.toNat < 1000 ∨ hard.toNat < soft.toNat + 1000 ∨
      hard.toNat < 2000 ∨ 60000 < hard.toNat ∨ 15 < lock.toNat := by
  rw [StrikerSettings.outside_iff]
  simp only [StrikerSettings.asked]
  omega

theorem setStrikerResult_named :
    setStrikerResult (BitVec.ofNat 8 n.1) recovery minPulse maxPulse (BitVec.ofNat 8 c.1) soft hard lock s =
      if !(StrikerSettings.asked recovery minPulse maxPulse c soft hard lock).inRange then refuse .range s
      else setupResult s
        (fun s => s.modStriker n (Striker.withSettings (.asked recovery minPulse maxPulse c soft hard lock))) (fun _ => []) := by
  unfold setStrikerResult
  rw [fieldId_ofNat (by decide), fieldId_ofNat (by decide)]
  rfl

theorem setStrikerResult_range (h : (StrikerSettings.asked recovery minPulse maxPulse c soft hard lock).inRange = false) :
    setStrikerResult (BitVec.ofNat 8 n.1) recovery minPulse maxPulse (BitVec.ofNat 8 c.1) soft hard lock s =
      refuse .range s := by
  rw [setStrikerResult_named, h]
  rfl

theorem setStrikerResult_inside (h : (StrikerSettings.asked recovery minPulse maxPulse c soft hard lock).inRange = true) :
    setStrikerResult (BitVec.ofNat 8 n.1) recovery minPulse maxPulse (BitVec.ofNat 8 c.1) soft hard lock s =
      setupResult s
        (fun s => s.modStriker n (Striker.withSettings (.asked recovery minPulse maxPulse c soft hard lock))) (fun _ => []) := by
  rw [setStrikerResult_named, h]
  rfl

end

/-! ## SET_BAR (R51) -/

section
variable {s : State} {b : BarId} {new : Bar}

/-- The record that a SET_BAR gives is refused by its own checks. -/
def BarRefused (s : State) (new : Bar) : Prop :=
  32767 < new.threshold ∨ (∃ m n, new.first = some m ∧ new.second = some n ∧ (m = n ∨ railOf m ≠ railOf n)) ∨
    ∃ n ∈ new.strikers, (s.rail (railOf n)).fitted = false

/-- Another bar holds a striker that the new record names. -/
def BarTaken (s : State) (b : BarId) (new : Bar) : Prop := ∃ n ∈ new.strikers, ∃ a, (s.striker n).bar = some a ∧ a ≠ b

/-- SET_BAR of a record whose fields are read. -/
def setBarTo (b : BarId) (new : Bar) (s : State) : Result :=
  if 32767 < new.threshold then refuse .range s
  else if new.pairRefused then refuse .range s
  else if new.strikers.any (fun n => !(s.rail (railOf n)).fitted) then refuse .range s
  else if new.strikers.any (fun n => match (s.striker n).bar with | some a => a ≠ b | none => false) then refuse .busy s
  else setupResult s (State.replaceBar b new) (fun _ => [])

theorem setBarResult_named (b : BarId) {c : InstrumentClass} {first second : Option StrikerId} {damper : Option UnitId}
    {pickup : Option PickupId} {threshold : Half} (h : second ≠ none → first ≠ none) :
    setBarResult (BitVec.ofNat 8 b.1) (BitVec.ofNat 8 c.code) (fieldOf first) (fieldOf second) (fieldOf damper)
      (fieldOf pickup) threshold s =
      setBarTo b { cls := c, first, second, damper, pickup, threshold := threshold.toNat } s := by
  unfold setBarResult
  rw [fieldId_ofNat (by decide), fieldClass_code, fieldStrikers_fieldOf h, optionalId_fieldOf (by decide),
    optionalId_fieldOf (by decide)]
  rfl

theorem setBarResult_second_alone {bar cls damper pickup : Byte} {threshold : Half} (n : StrikerId) :
    setBarResult bar cls (fieldOf (none : Option StrikerId)) (fieldOf (some n)) damper pickup threshold s = refuse .range s := by
  unfold setBarResult
  rw [fieldStrikers_second_alone]
  simp

theorem Bar.pairRefused_iff : new.pairRefused = true ↔
    ∃ m n, new.first = some m ∧ new.second = some n ∧ (m = n ∨ railOf m ≠ railOf n) := by
  unfold Bar.pairRefused
  cases new.first <;> cases new.second <;> simp

theorem barTaken_iff : new.strikers.any
    (fun n => match (s.striker n).bar with | some a => a ≠ b | none => false) = true ↔ BarTaken s b new := by
  rw [List.any_eq_true, BarTaken]
  refine exists_congr fun n => and_congr_right fun _ => ?_
  cases (s.striker n).bar <;> simp

theorem setBarTo_range (h : BarRefused s new) : setBarTo b new s = refuse .range s := by
  unfold setBarTo
  obtain h | h | ⟨n, hn, hfitted⟩ := h
  · rw [if_pos h]
  · rw [if_pos (Bar.pairRefused_iff.2 h), ite_self]
  · rw [if_pos (List.any_eq_true.2 ⟨n, hn, by simp [hfitted]⟩), ite_self, ite_self]

theorem setBarTo_checked (h : ¬ BarRefused s new) : setBarTo b new s =
    if new.strikers.any (fun n => match (s.striker n).bar with | some a => a ≠ b | none => false) then refuse .busy s
    else setupResult s (State.replaceBar b new) (fun _ => []) := by
  have hthreshold : ¬ 32767 < new.threshold := fun g => h (.inl g)
  have hpair : ¬ new.pairRefused = true := fun g => h (.inr (.inl (Bar.pairRefused_iff.1 g)))
  have hfitted : ¬ new.strikers.any (fun n => !(s.rail (railOf n)).fitted) = true := fun g => by
    obtain ⟨n, hn, hunfitted⟩ := List.any_eq_true.1 g
    exact h (.inr (.inr ⟨n, hn, by simpa using hunfitted⟩))
  unfold setBarTo
  rw [if_neg hthreshold, if_neg hpair, if_neg hfitted]

theorem setBarTo_busy (h : ¬ BarRefused s new) (htaken : BarTaken s b new) : setBarTo b new s = refuse .busy s := by
  rw [setBarTo_checked h]
  exact if_pos (barTaken_iff.2 htaken)

theorem setBarTo_free (h : ¬ BarRefused s new) (hfree : ¬ BarTaken s b new) :
    setBarTo b new s = setupResult s (State.replaceBar b new) (fun _ => []) := by
  rw [setBarTo_checked h]
  exact if_neg (fun g => hfree (barTaken_iff.1 g))

end

/-- Settles O14, request by request: its own checks, the stage, and what it replaces. -/
theorem railStrikerAndBarSetupTakesEffect : Obligations.RailStrikerAndBarSetupTakesEffect := by
  refine ⟨fun w p s hready hstage => ⟨?railOk, ?strikerOk⟩, fun w p s hready => ⟨?rail, ?striker, ?bar⟩, fun _ => rfl, ?barOk⟩
  case railOk =>
    intro r f spacing window count nominal floor h1 h2 h3 h4 h5 h6 h7 h8 h9 hfitted hunused
    have hpass : ¬ RailRefused (s.taken w p) r (.asked f spacing window count nominal floor) := by
      rw [railRefused_iff]
      rintro (h | h | h | h | h | h | h | h | h | ⟨hf, b, n, hn, hr⟩) <;> try omega
      obtain h | h := hunused
      · rw [h] at hf
        cases hf
      · exact h b n hn hr
    exact exec_answers (u := { s with rails := _ }) rfl hready (setRailResult_ok hpass hstage hfitted)
  case strikerOk =>
    intro n recovery minPulse maxPulse c soft hard lock h1 h2 h3 h4 h5 h6 h7 h8 h9 h10 h11
    have hinside : (StrikerSettings.asked recovery minPulse maxPulse c soft hard lock).inRange = true := by
      rw [← Bool.not_eq_false, strikerSettings_outside_iff]
      omega
    rw [Nat.mul_comm 10, Nat.mul_comm 10]
    exact exec_answers (u := { s with strikers := _ }) rfl hready
      ((setStrikerResult_inside hinside).trans (setupResult_taken hstage))
  case rail =>
    intro r f spacing window count nominal floor command bad
    have hbad : RailRefused (s.taken w p) r (.asked f spacing window count nominal floor) ↔ bad := railRefused_iff
    exact ⟨fun h => exec_refused rfl hready (setRailResult_range (hbad.2 h)),
      fun h hstage => exec_refused rfl hready (setRailResult_stage (fun g => h (hbad.1 g)) hstage)⟩
  case striker =>
    intro n recovery minPulse maxPulse c soft hard lock command bad
    have hbad : (StrikerSettings.asked recovery minPulse maxPulse c soft hard lock).inRange = false ↔ bad :=
      strikerSettings_outside_iff
    refine ⟨fun h => exec_refused rfl hready (setStrikerResult_range (hbad.2 h)), fun h hstage => ?_⟩
    have hinside := (Bool.not_eq_false _).mp (fun g => h (hbad.1 g))
    exact exec_refused rfl hready ((setStrikerResult_inside hinside).trans (setupResult_stage hstage))
  case bar =>
    intro b c first second damper pickup threshold named command bad
    by_cases hsecond : second ≠ none → first ≠ none
    · have hbad : BarRefused (s.taken w p) { cls := c, first, second, damper, pickup, threshold := threshold.toNat } ↔ bad := by
        have halone : ¬ (first = none ∧ second ≠ none) := fun h => hsecond h.2 h.1
        simp only [bad, halone, false_or]
        rfl
      refine ⟨fun h => exec_refused rfl hready ((setBarResult_named b hsecond).trans (setBarTo_range (hbad.2 h))),
        fun h hfree hstage => ?_⟩
      refine exec_refused rfl hready (((setBarResult_named b hsecond).trans
        (setBarTo_free (fun g => h (hbad.1 g)) ?_)).trans (setupResult_stage hstage))
      rintro ⟨n, hn, a, ha, hother⟩
      exact hother (hfree n hn a ha)
    · obtain ⟨hsome, hfirst⟩ : second ≠ none ∧ first = none := by simpa using hsecond
      obtain ⟨n, rfl⟩ := Option.ne_none_iff_exists'.1 hsome
      subst hfirst
      exact ⟨fun _ => exec_refused rfl hready (setBarResult_second_alone n), fun h => absurd (.inr (.inl ⟨rfl, hsome⟩)) h⟩
  case barOk =>
    intro w p s b c first second damper pickup threshold hready hthreshold hsecond hpair named command hfitted
    have hpass : ¬ BarRefused (s.taken w p)
        { cls := c, first, second, damper, pickup, threshold := threshold.toNat } := by
      rintro (h | ⟨m, n, hm, hn, h⟩ | ⟨n, hn, h⟩)
      · exact absurd h (Nat.not_lt.2 hthreshold)
      · obtain ⟨hne, hrail⟩ := hpair m n hm hn
        exact h.elim hne (fun g => g hrail)
      · exact absurd ((hfitted n hn).symm.trans h) nofun
    refine ⟨fun htaken => ?_, fun hfree hstage => ?_⟩
    · exact exec_refused rfl hready ((setBarResult_named b hsecond).trans (setBarTo_busy hpass htaken))
    · refine exec_answers (u := { s with bars := _, strikers := _ }) rfl hready (((setBarResult_named b hsecond).trans
        (setBarTo_free hpass ?_)).trans (setupResult_taken hstage))
      rintro ⟨n, hn, a, ha, hother⟩
      exact hother (hfree n hn a ha)

end Sys2Proof.Machine
end

section
/-! SUPPORT. SET_CLASS, SET_DAMPER, SET_CHARGE, SET_QUOTA and SET_SCAN (R180, R94, R162, R30, R132), and the curve requests (R77 to
R79). -/
namespace Sys2Proof.Machine

/-! ## Setup past its own checks -/

section
variable {s : State}

theorem setClassResult_range (c : InstrumentClass) {lead slip : Half} (h : 60000 < lead.toNat ∨ 50000 < slip.toNat) :
    setClassResult (BitVec.ofNat 8 c.code) lead slip s = refuse .range s := by
  simp [setClassResult, h]

theorem setClassResult_inside (c : InstrumentClass) {lead slip : Half} (h : ¬ (60000 < lead.toNat ∨ 50000 < slip.toNat)) :
    setClassResult (BitVec.ofNat 8 c.code) lead slip s = setupResult s
      (fun s => s.modTimeline (fun t => t.modTimes c (fun _ =>
        { lead := lead.toNat, slip := slip.toNat, leadTicks := leadTicksOf lead.toNat t.period })))
      (fun s => b1 c.code ++ b2 (s.timeline.times c).lead ++ b2 (s.timeline.times c).slip ++
        b4 (s.timeline.times c).leadTicks) := by
  unfold setClassResult
  rw [fieldClass_code]
  exact if_neg (by simpa using h)

theorem Timeline.times_modTimes (t : Timeline) (c : InstrumentClass) (f : ClassTimes → ClassTimes) :
    (t.modTimes c f).times c = f (t.times c) := by
  cases c <;> rfl

theorem setDamperResult_range (u : UnitId) {lift clamp : Half} {minOpen : Quad} (h : lift.toNat < 2000 ∨ 50000 < lift.toNat ∨
    clamp.toNat < 2000 ∨ 50000 < clamp.toNat ∨ 500000 < minOpen.toNat) :
    setDamperResult (BitVec.ofNat 8 u.1) lift clamp minOpen s = refuse .range s := by
  unfold setDamperResult
  rw [fieldId_ofNat (by decide)]
  exact if_pos (by simpa [or_assoc] using h)

theorem setDamperResult_inside (u : UnitId) {lift clamp : Half} {minOpen : Quad} (h : ¬ (lift.toNat < 2000 ∨
    50000 < lift.toNat ∨ clamp.toNat < 2000 ∨ 50000 < clamp.toNat ∨ 500000 < minOpen.toNat)) :
    setDamperResult (BitVec.ofNat 8 u.1) lift clamp minOpen s = setupResult s
      (fun s => s.modDamper u (fun d => { d with lift := lift.toNat, clamp := clamp.toNat, minOpen := minOpen.toNat }))
      (fun _ => []) := by
  unfold setDamperResult
  rw [fieldId_ofNat (by decide)]
  exact if_neg (by simpa [and_assoc] using h)

theorem setChargeResult_range {settle timeout : Half} (h : settle.toNat < 50 ∨ 2000 < settle.toNat ∨ timeout.toNat < 500 ∨
    10000 < timeout.toNat ∨ timeout.toNat ≤ settle.toNat) : setChargeResult settle timeout s = refuse .range s :=
  if_pos (by simpa [or_assoc] using h)

theorem setChargeResult_inside {settle timeout : Half} (h : ¬ (settle.toNat < 50 ∨ 2000 < settle.toNat ∨ timeout.toNat < 500 ∨
    10000 < timeout.toNat ∨ timeout.toNat ≤ settle.toNat)) : setChargeResult settle timeout s = setupResult s
      (fun s => s.modStage (fun c => { c with settleMs := settle.toNat, timeoutMs := timeout.toNat })) (fun _ => []) :=
  if_neg (by simpa [and_assoc] using h)

theorem outside_setup (hdormant : s.stage.stage ≠ .dormant) (hstandby : s.stage.stage ≠ .standby)
    (hfault : s.stage.stage ≠ .fault) : ¬ (s.stage.stage = .dormant ∨ s.stage.stage = .standby ∨ s.stage.stage = .fault) := by
  simp [hdormant, hstandby, hfault]

/-! ## SET_QUOTA -/

/-- The quotas as a change of one leaves them. -/
def quotaThen (s : State) (q : PortId) (quota : Half) (x : PortId) : Nat := if x = q then quota.toNat else s.quotas.look x

theorem quotaThen_eq (q : PortId) (quota : Half) (x : PortId) : (s.quotas.put q quota.toNat).look x = quotaThen s q quota x :=
  Bank.look_put ..

theorem quotaSum_put (q : PortId) (quota : Half) :
    quotaSum (s.quotas.put q quota.toNat) = ((List.finRange 4).map (quotaThen s q quota)).sum := by
  simp only [quotaSum, quotaThen_eq]
  simp [List.finRange, Nat.add_assoc]

theorem setQuotaResult_range (q : PortId) {quota : Half} (h : 256 < quota.toNat ∨ quota.toNat < s.useCount q ∨
    224 < ((List.finRange 4).map (quotaThen s q quota)).sum) :
    setQuotaResult (BitVec.ofNat 8 q.1) quota s = refuse .range s := by
  unfold setQuotaResult
  rw [fieldId_ofNat (by decide)]
  dsimp only
  rw [quotaSum_put]
  obtain h | h := h
  · exact if_pos h
  · rw [if_pos (show _ = true by simpa using h), ite_self]

theorem setQuotaResult_inside (q : PortId) {quota : Half} (h : ¬ (256 < quota.toNat ∨ quota.toNat < s.useCount q ∨
    224 < ((List.finRange 4).map (quotaThen s q quota)).sum)) :
    setQuotaResult (BitVec.ofNat 8 q.1) quota s = setupResult s (State.setQuotaOf q quota.toNat) State.quotaReport := by
  obtain ⟨hlarge, hrest⟩ := not_or.1 h
  unfold setQuotaResult
  rw [fieldId_ofNat (by decide)]
  dsimp only
  rw [quotaSum_put, if_neg hlarge, if_neg (by simpa using hrest)]

/-- A quota set: where it rises, the port's STALLED players are told. -/
theorem State.setQuotaOf_eq (q : PortId) (n : Nat) : s.setQuotaOf q n = { s with
    quotas := s.quotas.put q n
    players := s.players.mapWith (fun (v : VoiceId) (x : Player) =>
      if x.state = PlayerState.stalled ∧ s.quotas.look q < n ∧ v ≠ chimeVoice ∧ (s.voice v).owner = some q then
        { x with told := true }
      else x) } := by
  unfold State.setQuotaOf
  dsimp only
  split
  · next hraised =>
    simp only [State.tell, hraised, true_and, Bool.and_eq_true, decide_eq_true_eq]
    rfl
  · next hkept =>
    congr 1
    refine Bank.ext_look fun v => ?_
    rw [Bank.look_mapWith, if_neg (fun h => hkept h.2.1)]

theorem State.quotaReport_eq {f : PortId → Nat} (h : ∀ x, s.quotas.look x = f x) : s.quotaReport =
    (List.finRange 4).flatMap (fun x => b2 (f x)) ++ (List.finRange 4).flatMap (fun x => b1 (s.useCount x)) ++ b1 s.chimeCount := by
  simp only [State.quotaReport, h]
  simp [List.finRange, List.append_assoc]

/-! ## SET_SCAN -/

theorem fieldGain_ofNat {g : Nat} (h : g = 1 ∨ g = 2 ∨ g = 4 ∨ g = 8) : fieldGain (BitVec.ofNat 8 g) = some g := by
  obtain rfl | rfl | rfl | rfl := h <;> rfl

theorem fieldGain_none {b : Byte} (h : b ≠ 1#8 ∧ b ≠ 2#8 ∧ b ≠ 4#8 ∧ b ≠ 8#8) : fieldGain b = none := by
  revert b
  decide

theorem setScanResult_range (k : PickupId) {gain : Byte} {length : Quad} (h : (gain ≠ 1#8 ∧ gain ≠ 2#8 ∧ gain ≠ 4#8 ∧ gain ≠ 8#8) ∨
    length.toNat < 5000 ∨ 100000 < length.toNat) : setScanResult (BitVec.ofNat 8 k.1) gain length s = refuse .range s := by
  unfold setScanResult
  split
  · next hgain =>
    obtain h | h := h
    · simp [fieldGain_none h] at hgain
    · exact if_pos (by simpa using h)
  · rfl

theorem setScanResult_ok (k : PickupId) {g : Nat} {length : Quad} (hg : g = 1 ∨ g = 2 ∨ g = 4 ∨ g = 8)
    (hleast : 5000 ≤ length.toNat) (hmost : length.toNat ≤ 100000) :
    setScanResult (BitVec.ofNat 8 k.1) (BitVec.ofNat 8 g) length s =
      (s.modSense (fun n => { n with pickups := n.pickups.put k { gain := g, length := length.toNat } }), .ok, []) := by
  unfold setScanResult
  rw [fieldId_ofNat (by decide), fieldGain_ofNat hg]
  have hinside : ¬ (length.toNat < 5000 || 100000 < length.toNat) = true := by
    simp
    omega
  exact if_neg hinside

end

/-- Settles O15, request by request: its ranges, the stage, and what it replaces. -/
theorem parameterSetupTakesEffect : Obligations.ParameterSetupTakesEffect := by
  intro w p s hready then'
  refine ⟨fun hstage => ⟨?classOk, ?damperOk, ?chargeOk, ?quotaOk⟩, ?quotaRange, ?scanOk, ?scanRange, ?bound⟩
  case classOk =>
    intro c lead slip hlead hslip ticks
    have hinside : ¬ (60000 < lead.toNat ∨ 50000 < slip.toNat) := by omega
    refine exec_answers (u := { s with timeline := _ }) rfl hready
      ((setClassResult_inside c hinside).trans ((setupResult_taken (s := s.taken w p) hstage).trans ?_))
    dsimp only [State.modTimeline]
    rw [Timeline.times_modTimes]
    rfl
  case damperOk =>
    intro u lift clamp minOpen h1 h2 h3 h4 h5
    refine exec_answers (u := { s with dampers := _ }) rfl hready
      ((setDamperResult_inside u ?_).trans (setupResult_taken hstage))
    omega
  case chargeOk =>
    intro settle timeout h1 h2 h3 h4 h5
    refine exec_answers (u := { s with stage := _ }) rfl hready ((setChargeResult_inside ?_).trans (setupResult_taken hstage))
    omega
  case quotaOk =>
    intro q quota huse hquota hsum u uses
    have hinside : ¬ (256 < quota.toNat ∨ quota.toNat < (s.taken w p).useCount q ∨
        224 < ((List.finRange 4).map (quotaThen (s.taken w p) q quota)).sum) := by
      rintro (h | h | h)
      · omega
      · exact absurd huse (Nat.not_le.2 h)
      · exact absurd hsum (Nat.not_le.2 h)
    refine exec_answers (u := u) rfl hready
      ((setQuotaResult_inside (s := s.taken w p) q hinside).trans ((setupResult_taken (s := s.taken w p) hstage).trans ?_))
    rw [State.setQuotaOf_eq, State.quotaReport_eq (quotaThen_eq q quota)]
    rfl
  case quotaRange => exact fun q quota h => exec_refused rfl hready (setQuotaResult_range q (.inr h))
  case scanOk =>
    exact fun k g length hg hleast hmost => exec_answers (u := { s with sense := _ }) rfl hready (setScanResult_ok k hg hleast hmost)
  case scanRange => exact fun k gain length h => exec_refused rfl hready (setScanResult_range k h)
  case bound =>
    intro bound
    refine ⟨fun c lead slip => ⟨fun h => ?_, fun h hd hs hf => ?_⟩, fun u lift clamp minOpen => ⟨fun h => ?_, fun h hd hs hf => ?_⟩,
      fun settle timeout => ⟨fun h => ?_, fun h hd hs hf => ?_⟩, fun q quota => ⟨fun h => ?_, fun h hd hs hf => ?_⟩⟩
    · exact exec_refused rfl hready (setClassResult_range c h)
    · exact exec_refused rfl hready ((setClassResult_inside c h).trans (setupResult_stage (s := s.taken w p) (outside_setup hd hs hf)))
    · exact exec_refused rfl hready (setDamperResult_range u h)
    · exact exec_refused rfl hready ((setDamperResult_inside u h).trans (setupResult_stage (s := s.taken w p) (outside_setup hd hs hf)))
    · exact exec_refused rfl hready (setChargeResult_range h)
    · exact exec_refused rfl hready ((setChargeResult_inside h).trans (setupResult_stage (s := s.taken w p) (outside_setup hd hs hf)))
    · exact exec_refused rfl hready (setQuotaResult_range q h)
    · exact exec_refused rfl hready ((setQuotaResult_inside (s := s.taken w p) q h).trans (setupResult_stage (s := s.taken w p) (outside_setup hd hs hf)))

end Sys2Proof.Machine
end

section
/-! SUPPORT. The curve requests (R75, R77 to R79). -/
namespace Sys2Proof.Machine

/-! ## The points of a copy (R75, R77) -/

section
variable {points : Bank Nat 16}

theorem curvePoint_eq_look (k : Fin 16) : curvePoint points k.1 = points.look k := by
  have hk : (⟨min k.1 15, by omega⟩ : Fin 16) = k := Fin.ext (by simp; omega)
  rw [curvePoint, hk]

/-- The points of a copy never decrease and stay within 12,000. -/
theorem monotonePoints_iff_look : monotonePoints points = true ↔
    (∀ k : Fin 15, points.look k.castSucc ≤ points.look k.succ) ∧ points.look 15 ≤ 12000 := by
  rw [monotonePoints_iff, show curvePoint points 15 = points.look 15 from curvePoint_eq_look 15]
  refine and_congr_left fun _ => ⟨fun h k => ?_, fun h k hk => ?_⟩
  · rw [← curvePoint_eq_look, ← curvePoint_eq_look]
    exact h k.1 k.2
  · have hnext := h ⟨k, hk⟩
    rw [← curvePoint_eq_look, ← curvePoint_eq_look] at hnext
    exact hnext

theorem look_le_of_monotonePoints (h : monotonePoints points = true) (k : Fin 16) : points.look k ≤ 12000 := by
  rw [← curvePoint_eq_look]
  exact (curvePoint_monotone h (show k.1 ≤ 15 by omega)).trans (monotonePoints_iff.1 h).2

theorem writePoints_look (first : Nat) (values : List Half) (k : Fin 16) : (writePoints points first values).look k =
    if first ≤ k.1 then (values[k.1 - first]?).elim (points.look k) BitVec.toNat else points.look k :=
  Bank.look_mapWith ..

/-- Each value written stands among the points. -/
theorem le_of_mem_written {first : Nat} {values : List Half} (hfits : first + values.length ≤ 16)
    (h : monotonePoints (writePoints points first values) = true) {x : Half} (hx : x ∈ values) : x.toNat ≤ 12000 := by
  obtain ⟨i, hi, rfl⟩ := List.getElem_of_mem hx
  have hlook := look_le_of_monotonePoints h ⟨first + i, by omega⟩
  rw [writePoints_look, if_pos (Nat.le_add_right ..), Nat.add_sub_cancel_left, List.getElem?_eq_getElem hi] at hlook
  exact hlook

end

/-! ## SET_CURVE (R77) -/

/-- The copy that the update mode has a SET_CURVE write. -/
def CurveTable.copy (mode : UpdateMode) (c : CurveTable) : Bank Nat 16 := if mode = .direct then c.live else c.staging

theorem CurveTable.write_eq {mode : UpdateMode} {c : CurveTable} {first : Nat} {values : List Half} {written : Bank Nat 16}
    (hwritten : written = writePoints (c.copy mode) first values) (hequal : mode = .direct → c.staging = c.live) :
    c.write mode first values = if monotonePoints written then
      some { c with live := if mode = UpdateMode.direct then written else c.live, staging := written } else none := by
  subst hwritten
  cases mode with
  | direct => simp [CurveTable.write, CurveTable.copy, hequal rfl]
  | staged => simp [CurveTable.write, CurveTable.copy]

theorem CurveTable.write_none {mode : UpdateMode} {c : CurveTable} {first : Nat} {values : List Half}
    (h : monotonePoints (writePoints (c.copy mode) first values) = false) : c.write mode first values = none := by
  cases mode with
  | direct => exact if_neg (by simpa [CurveTable.copy] using h)
  | staged => exact if_neg (by simpa [CurveTable.copy] using h)

section
variable {s : State} {c : TableId} {first : Byte} {points : List Half}

theorem setCurveResult_named (hpoints : pointsAllowed points = true) :
    setCurveResult (BitVec.ofNat 8 c.1) first points s =
      if 16 < first.toNat + points.length || points.any (fun x => 12000 < x.toNat) then refuse .range s
      else match (s.table c).write s.shaper.mode first.toNat points with
        | some x => (s.modTable c (fun _ => x), .ok, bBool x.commitPending ++ b1 s.shaper.mode.code)
        | none => refuse .range s := by
  unfold setCurveResult
  rw [if_neg (by simp [hpoints]), fieldId_ofNat (by decide)] <;> rfl

theorem setCurveResult_outside (hpoints : pointsAllowed points = true) (h : 16 < first.toNat + points.length) :
    setCurveResult (BitVec.ofNat 8 c.1) first points s = refuse .range s := by
  rw [setCurveResult_named hpoints, if_pos (by simp [h])]

theorem setCurveResult_decreasing (hpoints : pointsAllowed points = true)
    (h : monotonePoints (writePoints ((s.table c).copy s.shaper.mode) first.toNat points) = false) :
    setCurveResult (BitVec.ofNat 8 c.1) first points s = refuse .range s := by
  rw [setCurveResult_named hpoints, CurveTable.write_none h]
  exact ite_self _

theorem setCurveResult_ok (hpoints : pointsAllowed points = true) (hfits : first.toNat + points.length ≤ 16)
    {written : Bank Nat 16} (hwritten : written = writePoints ((s.table c).copy s.shaper.mode) first.toNat points)
    (hequal : s.shaper.mode = .direct → (s.table c).staging = (s.table c).live) (h : monotonePoints written = true) :
    setCurveResult (BitVec.ofNat 8 c.1) first points s =
      (s.modTable c (fun x => { x with
        live := if s.shaper.mode = UpdateMode.direct then written else x.live, staging := written }), .ok,
        bBool (s.table c).commitPending ++ b1 s.shaper.mode.code) := by
  have hvalues : ¬ (16 < first.toNat + points.length || points.any (fun x => 12000 < x.toNat)) = true := by
    rw [Bool.or_eq_true, List.any_eq_true]
    rintro (hlarge | ⟨x, hx, habove⟩)
    · exact absurd hfits (Nat.not_le.2 (of_decide_eq_true hlarge))
    · exact absurd (le_of_mem_written hfits (hwritten ▸ h) hx) (Nat.not_le.2 (of_decide_eq_true habove))
  rw [setCurveResult_named hpoints, if_neg hvalues, CurveTable.write_eq hwritten hequal, if_pos h]
  rfl

end

theorem exec_setCurve {points : List Half} (w : When) (p : PortId) (table first : Byte) (s : State)
    (hpoints : pointsAllowed points = true) : exec (.setCurve w p table first points) s =
      .next (request w p 0x08#8 (setCurveResult table first points) s) :=
  exec_of_request hpoints rfl rfl rfl

/-! ## CURVE_MODE (R78) -/

section
variable {s : State}

theorem curveModeResult_same : curveModeResult (BitVec.ofNat 8 s.shaper.mode.code) s = (s, .ok, [0#8]) := by
  unfold curveModeResult
  cases hmode : s.shaper.mode <;> exact if_pos rfl

theorem curveModeResult_staged (h : s.shaper.mode = .direct) :
    curveModeResult 1#8 s = ({ s with shaper := { s.shaper with mode := .staged } }, .ok, [0#8]) :=
  if_neg (by rw [h]; nofun)

theorem curveModeResult_busy (h : s.shaper.mode = .staged) {c : TableId} (hpending : (s.table c).commitPending = true) :
    curveModeResult 0#8 s = refuse .busy s := by
  have hany : s.shaper.tables.toList.any (·.commitPending) = true := (Bank.any_toList ..).2 ⟨c, hpending⟩
  refine (if_neg (by rw [h]; nofun)).trans ?_
  dsimp only
  rw [if_pos hany]

theorem curveModeResult_direct (h : s.shaper.mode = .staged) (hpending : ∀ c, (s.table c).commitPending = false) :
    curveModeResult 0#8 s = ({ s with shaper := { s.shaper with
      mode := .direct
      tables := s.shaper.tables.mapWith (fun _ (x : CurveTable) => { x with staging := x.live }) } }, .ok,
      b1 (s.shaper.tables.toList.countP (fun (x : CurveTable) => x.staging ≠ x.live))) := by
  have hany : ¬ s.shaper.tables.toList.any (·.commitPending) = true := fun g => by
    obtain ⟨c, hc⟩ := (Bank.any_toList ..).1 g
    exact absurd ((hpending c).symm.trans hc) nofun
  refine (if_neg (by rw [h]; nofun)).trans ?_
  dsimp only
  rw [if_neg hany]
  rfl

end

/-! ## COMMIT (R79) -/

section
variable {s : State}

/-- A set of tables as the sum of its members' bits. -/
theorem getLsbD_tableSet (f : TableId → Bool) (c : TableId) :
    (BitVec.ofNat 8 ((List.finRange 8).map (fun t => if f t then 2 ^ t.1 else 0)).sum).getLsbD c.1 = f c := by
  have hbits : ∀ b : Fin 8 → Bool, ∀ c : Fin 8,
      (BitVec.ofNat 8 ((List.finRange 8).map (fun t => if b t then 2 ^ t.1 else 0)).sum).getLsbD c.1 = b c := by decide +kernel
  exact hbits f c

/-- The tables that a COMMIT names: one, or all. -/
def namesTable (named : Option TableId) (t : TableId) : Bool :=
  match named with
  | some u => t = u
  | none => true

theorem namesTable_iff {named : Option TableId} {t : TableId} : namesTable named t = true ↔ named = none ∨ named = some t := by
  cases named <;> simp [namesTable, eq_comm]

/-- A table as COMMIT leaves it. -/
def CurveTable.committed (s : State) (named : Option TableId) (c : TableId) (x : CurveTable) : CurveTable :=
  if s.shaper.mode = .staged ∧ (named = none ∨ named = some c) then
    (if s.timeline.state = .stopped then { x with live := x.staging, commitPending := false }
     else { x with commitPending := true })
  else x

theorem State.commitTables_eq (named : Option TableId) :
    s.commitTables (namesTable named) = { s with shaper := { s.shaper with
      tables := s.shaper.tables.mapWith (fun (c : TableId) (x : CurveTable) =>
        x.committed s named c) } } := by
  unfold State.commitTables
  split
  · next hmode =>
    have hkept : s.shaper.tables.mapWith (fun c x => x.committed s named c) = s.shaper.tables :=
      Bank.ext_look fun c => by simp [CurveTable.committed, hmode]
    rw [hkept]
  · next hmode =>
    have htables : s.shaper.tables.mapWith (fun t c => if namesTable named t then
        (if s.timeline.state = .stopped then c.transfer else { c with commitPending := true }) else c) =
        s.shaper.tables.mapWith (fun c x => x.committed s named c) :=
      Bank.ext_look fun c => by simp [CurveTable.committed, hmode, CurveTable.transfer, namesTable_iff]
    rw [htables]

theorem commitResult_named (named : Option TableId) : commitResult (fieldOf named) s =
    (s.commitTables (namesTable named), .ok,
      b1 (s.commitTables (namesTable named)).pendingTables) := by
  unfold commitResult
  rw [optionalId_fieldOf (by decide)]
  rfl

end

/-- Settles O16, request by request. -/
theorem curveRequestsTakeEffect : Obligations.CurveRequestsTakeEffect := by
  refine ⟨fun _ => monotonePoints_iff_look, fun w p s hready => ⟨fun c first points hpoints h => ?_,
    fun c first points written hpoints hfits hlook => ?curve, ?_, fun h => ?_, fun h ⟨c, hc⟩ => ?_, fun h hc => ?_, fun named => ?commit⟩⟩
  · exact exec_refused (exec_setCurve _ _ _ _ _ hpoints) hready (setCurveResult_outside hpoints h)
  case curve =>
    intro command
    have hwritten : written = writePoints ((s.table c).copy s.shaper.mode) first.toNat points := by
      refine Bank.ext_look fun k => ?_
      rw [hlook, writePoints_look, CurveTable.copy, apply_ite (Bank.look · k)]
    refine ⟨fun h => ?_, fun h hequal => ?_⟩
    · rw [hwritten] at h
      exact exec_refused (exec_setCurve _ _ _ _ _ hpoints) hready (setCurveResult_decreasing hpoints h)
    · exact exec_answers (u := { s with shaper := _ }) (exec_setCurve _ _ _ _ _ hpoints) hready
        (setCurveResult_ok hpoints hfits hwritten hequal h)
  · exact exec_answers (u := s) rfl hready (curveModeResult_same (s := s.taken w p))
  · exact exec_answers (u := { s with shaper := _ }) rfl hready (curveModeResult_staged h)
  · exact exec_refused rfl hready (curveModeResult_busy h hc)
  · exact exec_answers (u := { s with shaper := _ }) rfl hready (curveModeResult_direct h hc)
  case commit =>
    refine ⟨s.commitTables (namesTable named), _, ?_, State.commitTables_eq named,
      fun c => getLsbD_tableSet (fun t => (State.table _ t).commitPending) c⟩
    refine exec_answers rfl hready ((commitResult_named named).trans ?_)
    rw [State.commitTables_eq, State.commitTables_eq]
    rfl

end Sys2Proof.Machine
end

section
/-! SUPPORT. The conductor requests (R22, R3, R8, R10, R12 to R15): the order of their checks, and what each does. -/
namespace Sys2Proof.Machine

/-! ## The checks (R22) -/

section
variable {p : PortId} {wrong bad : Bool} {f : State → State} {s : State}

theorem conducted_owner (h : s.timeline.conductor ≠ some p) : conducted p wrong bad f s = refuse .owner s := if_pos h

theorem conducted_state (h : s.timeline.conductor = some p) (hwrong : wrong = true) :
    conducted p wrong bad f s = refuse .state s := by
  rw [conducted, if_neg (fun g => g h), if_pos hwrong]

theorem conducted_range (h : s.timeline.conductor = some p) (hright : wrong = false) (hbad : bad = true) :
    conducted p wrong bad f s = refuse .range s := by
  rw [conducted, if_neg (fun g => g h), hright, if_neg Bool.false_ne_true, if_pos hbad]

theorem conducted_ok (h : s.timeline.conductor = some p) (hright : wrong = false) (hgood : bad = false) :
    conducted p wrong bad f s = (f s, .ok, (f s).summary) := by
  rw [conducted, if_neg (fun g => g h), hright, if_neg Bool.false_ne_true, hgood, if_neg Bool.false_ne_true]

end

section
variable {c : Instr} {w : When} {p : PortId} {kind : Byte} {body : State → Result} {s : State}

/-- The reply that a request taken sends, as a command's. -/
theorem exec_replies (hexec : exec c s = .next (request w p kind body s)) (hready : s.ready p = true) {st : Status}
    (hst : (body (s.taken w p)).2.1 = st) : ∃ t results, exec c s = .next t ∧ (t.port p).replied kind st results := by
  subst hst
  exact ⟨_, _, hexec, request_reply hready⟩

/-- A conductor request's checks, as a command's. -/
theorem exec_conducted {wrong bad : Bool} {f : State → State} (hexec : exec c s = .next (request w p kind body s))
    (hready : s.ready p = true) (hbody : body (s.taken w p) = conducted p wrong bad f (s.taken w p)) :
    (s.timeline.conductor ≠ some p → exec c s = .next (s.answering w p kind .owner [])) ∧
    (s.timeline.conductor = some p → wrong = true → exec c s = .next (s.answering w p kind .state [])) ∧
    (s.timeline.conductor = some p → wrong = false → bad = true → exec c s = .next (s.answering w p kind .range [])) ∧
    (s.timeline.conductor = some p → wrong = false → bad = false →
      ∃ t results, exec c s = .next t ∧ (t.port p).replied kind .ok results) :=
  ⟨fun h => exec_refused hexec hready (hbody.trans (conducted_owner h)),
    fun h hwrong => exec_refused hexec hready (hbody.trans (conducted_state h hwrong)),
    fun h hright hbad => exec_refused hexec hready (hbody.trans (conducted_range h hright hbad)),
    fun h hright hgood => exec_replies hexec hready (by rw [hbody, conducted_ok (s := s.taken w p) h hright hgood])⟩

end

theorem fieldSource_isNone (m : Byte) : (fieldSource m).isNone = decide (2 ≤ m.toNat) := by
  revert m
  decide +kernel

/-- Settles O19: each request is one `conducted`, with the checks that R22 gives it. -/
theorem conductorRequestsAreChecked : Obligations.ConductorRequestsAreChecked := by
  intro c w p s kind wrong bad hport hneeds hready hposition
  cases c <;> try cases hneeds
  all_goals obtain ⟨rfl, rfl⟩ : _ = w ∧ _ = p := by simpa [requestPort] using hport
  case tempo x => exact exec_conducted rfl hready rfl
  case ramp x n => exact exec_conducted rfl hready rfl
  case meter n => exact exec_conducted rfl hready rfl
  case run =>
    have hend : decide (maxTick ≤ s.timeline.position) = decide (s.timeline.position = 4294967295) :=
      decide_eq_decide.2 ⟨fun h => Nat.le_antisymm hposition h, fun h => h.ge⟩
    exact exec_conducted rfl hready (congrArg (fun b => conducted _ false b State.runTimeline (s.taken _ _)) hend)
  case stop => exact exec_conducted rfl hready rfl
  case locate x => exact exec_conducted rfl hready rfl
  case source m =>
    exact exec_conducted rfl hready (congrArg (fun b => conducted _ false b _ (s.taken _ _)) (fieldSource_isNone m))

/-! ## What the tempo requests do (R3, R8, R10, R15) -/

/-- The timeline summary that a conductor request replies (R182, R195). -/
def summaryOf (x : Timeline) : List Byte :=
  b1 x.state.code ++ b1 x.stopReason.code ++ b4 x.position ++ b4 (x.position % 240) ++ b1 x.beatInBar ++ b2 x.barNumber ++
    b2 x.tempo ++ b4 x.period ++ bBool x.pendingPeriod.isSome ++ bBool x.ramp.isSome ++ b1 x.source.code ++ oId x.conductor ++
    bBool x.pendingMeter.isSome

theorem State.summary_eq (s : State) : s.summary = summaryOf s.timeline := rfl

section
variable {c : Instr} {w : When} {p : PortId} {kind : Byte} {body : State → Result} {s : State} {wrong bad : Bool}

/-- A conductor request taken. -/
theorem exec_conducted_ok {f : State → State} {u : State} (hexec : exec c s = .next (request w p kind body s))
    (hready : s.ready p = true) (hbody : body (s.taken w p) = conducted p wrong bad f (s.taken w p))
    (hconductor : s.timeline.conductor = some p) (hright : wrong = false) (hgood : bad = false)
    (hf : f (s.taken w p) = u.taken w p) :
    exec c s = .next (u.answering w p kind .ok (summaryOf u.timeline)) := by
  refine exec_answers hexec hready (hbody.trans ?_)
  rw [conducted_ok (s := s.taken w p) hconductor hright hgood, hf]
  rfl

end

theorem tempoOutside_eq_false {c : Nat} (hleast : 2000 ≤ c) (hmost : c ≤ 30000) : tempoOutside c = false := by
  simp only [tempoOutside, Bool.or_eq_false_iff, decide_eq_false_iff_not]
  omega

section
variable {t : Timeline}

theorem Timeline.setTempo_stopped (c : Nat) (h : t.state = .stopped) :
    t.setTempo c = ({ t with tempo := c, ramp := none } : Timeline).adopt (tempoPeriod c) := if_pos h

theorem Timeline.setTempo_running (c : Nat) (h : t.state ≠ .stopped) :
    t.setTempo c = { t with tempo := c, ramp := none, pendingPeriod := some (tempoPeriod c) } := if_neg h

/-- A tick's own update with no ramp and no measured period leaves the tempo, and adopts a pending period. -/
theorem Timeline.tick_without_ramp (now : Nat) (h : t.ramp = none) : (t.tick now none).1.tempo = t.tempo ∧
    (t.tick now none).1.period = t.pendingPeriod.getD t.period := by
  have hadvanced : t.advanced.tempo = t.tempo ∧ t.advanced.period = t.pendingPeriod.getD t.period ∧ t.advanced.ramp = none := by
    unfold Timeline.advanced Timeline.adoptPending
    cases t.pendingPeriod <;> exact ⟨rfl, rfl, h⟩
  obtain ⟨htempo, hperiod, hramp⟩ := hadvanced
  have hbeat : t.advanced.onBeat now none = { t.advanced with syncOutEnd := some (now + 1000) } := by
    simp [Timeline.onBeat, Timeline.rampStep, hramp]
  rw [Timeline.tick_eq]
  split
  · exact ⟨htempo, hperiod⟩
  · rw [hbeat]
    split <;> exact ⟨htempo, hperiod⟩

end

/-! ## The clock at a tick expiry -/

section
variable (s : State)

theorem State.neighbourTick_now (o : Interleaving) (kind : TickKind) (x : Neighbour) : (s.neighbourTick o kind x).now = s.now := by
  cases x with
  | shaper =>
    unfold State.neighbourTick
    dsimp only
    split <;> rfl
  | calendar => exact (s.releaseAll_kept _ _).now
  | players => exact (s.playersTick_kept _ _).now
  | dampers => rfl

theorem State.neighboursTick_now (o : Interleaving) (kind : TickKind) (l : List Neighbour) :
    (State.neighboursTick o kind l s).now = s.now := by
  induction l generalizing s with
  | nil => rfl
  | cons x rest ih => exact (ih _).trans ((State.settleAtBlock_kept _ o).now.trans (s.neighbourTick_now o kind x))

@[simp] theorem State.tick_now (o : Interleaving) (measured : Option Nat) : (s.tick o measured).now = s.now := by
  have hexpire : (s.expire o measured).now = s.now := by
    unfold State.expire
    rw [(State.settle_kept _).now, State.neighboursTick_now]
    split <;> rfl
  rw [State.tick_eq]
  split <;> exact hexpire

/-- A HELD timeline below the end of the range crosses by one tick and runs with a full period (R15, R17). -/
theorem State.crossBeat_held (o : Interleaving) (measured : Option Nat) (hheld : s.timeline.state = .held)
    (hend : s.timeline.position + 1 < maxTick) : (s.crossBeat o measured).timeline =
      let x := (({ s.timeline with state := .running, tickDue := none, lossDue := none } : Timeline).tick s.now measured).1
      { x with tickDue := some (s.now * 8 + x.period) } := by
  let u := s.modTimeline (fun t => { t with state := .running, tickDue := none, lossDue := none })
  have hcrossed : s.crossed o measured = u.tick o measured := by
    unfold State.crossed
    rw [if_pos hheld]
    rfl
  obtain ⟨hstate, hposition, -⟩ := u.timeline.tick_frame u.now measured
  have hbelow : ¬ maxTick ≤ (u.timeline.tick u.now measured).1.position := by
    rw [hposition]
    exact Nat.not_le.2 hend
  have htimeline : (u.tick o measured).timeline = (u.timeline.tick u.now measured).1 := by
    rw [State.tick_timeline, Timeline.expired, if_neg hbelow]
  have hrunning : (u.tick o measured).timeline.state = .running := by rw [htimeline, hstate]; rfl
  rw [State.crossBeat_eq, hcrossed, if_pos hrunning, State.startCounter, State.modTimeline_timeline, htimeline, State.tick_now]
  rfl

end

theorem fieldSource_code (m : SourceMode) : fieldSource (BitVec.ofNat 8 m.code) = some m := by
  cases m <;> rfl

theorem State.setSource_same (o : Interleaving) (s : State) : s.setSource o (some s.timeline.source) = s := by
  unfold State.setSource
  cases s.timeline.source <;> rfl

/-- Settles O20, request by request. -/
theorem tempoAndSourceRequestsTakeEffect : Obligations.TempoAndSourceRequestsTakeEffect := by
  refine ⟨fun w p s hready hconductor => ⟨fun c hinternal hleast hmost => ?tempo, fun c n hinternal hleast hmost hpos hlong => ?ramp,
    fun n hpos hmost => ?meter⟩, fun w p s hready hconductor => ⟨?same, fun hinternal => ?toSync, fun hsync => ?toInternal⟩⟩
  case tempo =>
    have hright : decide (s.timeline.source = .sync) = false := by simp [hinternal]
    refine ⟨fun h => ?_, fun h => ?_⟩
    · exact exec_conducted_ok (u := { s with timeline := _ }) rfl hready rfl hconductor hright
        (tempoOutside_eq_false hleast hmost) (congrArg (fun t => (State.taken w p { s with timeline := t }))
          (Timeline.setTempo_stopped c.toNat h))
    · exact exec_conducted_ok (u := { s with timeline := _ }) rfl hready rfl hconductor hright
        (tempoOutside_eq_false hleast hmost) (congrArg (fun t => (State.taken w p { s with timeline := t }))
          (Timeline.setTempo_running c.toNat h))
  case ramp =>
    have hgood : (tempoOutside c.toNat || n.toNat < 1 || 64 < n.toNat) = false := by
      simp [tempoOutside_eq_false hleast hmost]
      omega
    have hright : decide (s.timeline.source = .sync) = false := by simp [hinternal]
    exact exec_conducted_ok (u := { s with timeline := _ }) rfl hready rfl hconductor hright hgood rfl
  case meter =>
    have hgood : (n.toNat < 1 || 16 < n.toNat : Bool) = false := by
      simp
      omega
    exact exec_conducted_ok (u := { s with timeline := _ }) rfl hready rfl hconductor rfl hgood rfl
  case same =>
    refine exec_conducted_ok (u := s) rfl hready rfl hconductor rfl (by rw [fieldSource_code]; rfl) ?_
    rw [fieldSource_code]
    exact (s.taken w p).setSource_same w.order
  case toSync =>
    refine exec_conducted_ok (u := { s with timeline := _ }) rfl hready rfl hconductor rfl rfl ?_
    have hsource : (s.taken w p).timeline.source = .internal := hinternal
    simp only [State.setSource, hsource]
    rfl
  case toInternal =>
    have hset : (s.taken w p).setSource w.order (fieldSource 0#8) = (s.taken w p).toInternal w.order := by
      have hsource : (s.taken w p).timeline.source = .sync := hsync
      have hfield : fieldSource 0#8 = some .internal := rfl
      simp only [State.setSource, hsource, hfield]
    refine ⟨fun hheld => ?_, fun hheld hsound hend => ?_⟩
    · refine exec_conducted_ok (u := { s with timeline := _ }) rfl hready rfl hconductor rfl rfl (hset.trans ?_)
      exact if_neg hheld
    · have hramp : s.timeline.ramp = none := (State.timelineSound_iff.1 hsound).ramp hsync
      let u := (s.taken w p).modTimeline Timeline.toInternal
      have hcross : (s.taken w p).toInternal w.order = u.crossBeat w.order none := if_pos hheld
      have htimeline := u.crossBeat_held w.order none hheld hend
      obtain ⟨hstate, hposition, hsource, -, hloss, hpending⟩ := Timeline.tick_frame u.now none
        (t := { u.timeline with state := .running, tickDue := none, lossDue := none })
      obtain ⟨htempo, hperiod⟩ := Timeline.tick_without_ramp u.now
        (t := { u.timeline with state := .running, tickDue := none, lossDue := none }) hramp
      have hbody : sourceResult w.order p 0#8 (s.taken w p) =
          (u.crossBeat w.order none, .ok, summaryOf (u.crossBeat w.order none).timeline) := by
        refine (conducted_ok (s := s.taken w p) hconductor rfl rfl).trans ?_
        rw [hset, hcross, State.summary_eq]
      refine ⟨_, (congrArg Host.Outcome.next (request_ready hready)).trans (by rw [hbody]), ?_, ?_⟩
      · rw [State.modPort_port, if_pos rfl]
        exact ⟨_, rfl⟩
      · rw [State.modPort_timeline, htimeline]
        exact ⟨hstate, hsource, htempo, hperiod, hpending, hposition, hloss, rfl⟩

end Sys2Proof.Machine
end

section
/-! SUPPORT. RUN, STOP and LOCATE (R12 to R14): the timeline, the damper units, and what LOCATE makes of entries and players. -/
namespace Sys2Proof.Machine

/-! ## What may come before or after the taking of a request -/

section
variable (w : When) (p : PortId) (s : State)

/-- A change of any port that does not touch the receiver or the silence timer may come before or after the taking. -/
theorem State.modPort_taken (q : PortId) {f : Port → Port}
    (hf : ∀ now x, f (x.hunt.restartSilence now) = (f x).hunt.restartSilence now) :
    (s.taken w p).modPort q f = (s.modPort q f).taken w p := by
  by_cases h : q = p
  · subst h
    exact State.taken_modPort w q s hf
  · simp only [State.taken, State.modPort, State.reach, State.port]
    congr 1
    refine Bank.ext_look fun i => ?_
    by_cases hp : i = p
    · subst hp
      simp [Bank.look_put, Ne.symm h]
    · simp [Bank.look_put, hp, h]

theorem State.raise_taken (n : Notice) (q : PortId) : (s.taken w p).raise n q = (s.raise n q).taken w p :=
  s.modPort_taken w p q fun _ _ => rfl

theorem State.endPhrase_taken (v : VoiceId) (why : EndReason) : (s.taken w p).endPhrase v why = (s.endPhrase v why).taken w p := by
  let u := s.modPlayer v (fun q => { q with state := .idle, endReason := why, nextDue := none, told := false })
  have hport : (u.taken w p).reportPort v = u.reportPort v := rfl
  show (match (u.taken w p).reportPort v with | some q => (u.taken w p).raise .phraseEnd q | none => u.taken w p) =
    (match u.reportPort v with | some q => u.raise .phraseEnd q | none => u).taken w p
  rw [hport]
  cases u.reportPort v with
  | none => rfl
  | some q => exact u.raise_taken w p .phraseEnd q

theorem State.locatePlayers_taken (l : List VoiceId) :
    State.locatePlayers l (s.taken w p) = (State.locatePlayers l s).taken w p := by
  induction l generalizing s with
  | nil => rfl
  | cons v rest ih =>
    have hplayer : (s.taken w p).player v = s.player v := rfl
    unfold State.locatePlayers
    rw [hplayer, ← ih]
    congr 1
    split
    · rfl
    · exact s.endPhrase_taken w p v .located

theorem State.locateTo_taken (n : Nat) : (s.taken w p).locateTo n = (s.locateTo n).taken w p := by
  let u := s.modTimeline (Timeline.locate n)
  show State.locatePlayers _ (State.leaveAll .passed (u.slotsWhere _) (u.taken w p)) = _
  rw [State.leaveAll_taken, State.locatePlayers_taken]
  rfl

end

/-! ## The players at a LOCATE (R127) -/

/-- A player that a LOCATE returns to IDLE. -/
def Player.located (x : Player) : Player := { x with state := .idle, endReason := .located, nextDue := none, told := false }

section
variable {s : State}

theorem Port.raise_raise (n : Notice) (q : Port) : (q.raise n).raise n = q.raise n := by
  simp [Port.raise, BitVec.or_assoc]

theorem State.endPhrase_eq (v : VoiceId) (why : EndReason) : s.endPhrase v why = { s with
    players := s.players.put v { s.player v with state := .idle, endReason := why, nextDue := none, told := false }
    ports := s.ports.mapWith (fun q x => if s.reportPort v = some q then x.raise .phraseEnd else x) } := by
  let u := s.modPlayer v (fun q => { q with state := .idle, endReason := why, nextDue := none, told := false })
  have hport : u.reportPort v = s.reportPort v := rfl
  show (match u.reportPort v with | some q => u.raise .phraseEnd q | none => u) = _
  rw [hport]
  cases s.reportPort v with
  | none =>
    have hports : s.ports.mapWith (fun q x => if (none : Option PortId) = some q then x.raise .phraseEnd else x) = s.ports :=
      Bank.ext_look fun i => by simp
    rw [hports]
    rfl
  | some q =>
    have hports : s.ports.mapWith (fun i x => if some q = some i then x.raise .phraseEnd else x) =
        s.ports.put q ((s.ports.look q).raise .phraseEnd) := Bank.ext_look fun i => by
      by_cases h : i = q
      · subst h
        simp
      · simp [Bank.look_put, h, Ne.symm h]
    rw [hports]
    rfl

/-- The ports on which a LOCATE raises PHRASE_END for the players of some voices. -/
def State.locateReports (s : State) (l : List VoiceId) (q : PortId) : Bool :=
  l.any (fun v => (s.player v).state ≠ .idle && s.reportPort v = some q)

theorem State.locatePlayers_eq {l : List VoiceId} (hl : l.Nodup) : State.locatePlayers l s = { s with
    players := s.players.mapWith (fun v x => if v ∈ l ∧ x.state ≠ .idle then x.located else x)
    ports := s.ports.mapWith (fun q x => if s.locateReports l q then x.raise .phraseEnd else x) } := by
  induction l generalizing s with
  | nil =>
    have hplayers : s.players.mapWith (fun v x => if v ∈ ([] : List VoiceId) ∧ x.state ≠ .idle then x.located else x) = s.players :=
      Bank.ext_look fun i => by simp
    have hports : s.ports.mapWith (fun q x => if s.locateReports [] q then x.raise .phraseEnd else x) = s.ports :=
      Bank.ext_look fun i => by simp [State.locateReports]
    rw [hplayers, hports]
    rfl
  | cons v rest ih =>
    obtain ⟨hv, hrest⟩ := List.nodup_cons.1 hl
    unfold State.locatePlayers
    by_cases hidle : (s.player v).state = .idle
    · rw [if_pos hidle, ih hrest]
      congr 1
      · refine Bank.ext_look fun i => ?_
        simp [State.locateReports, hidle]
      · refine Bank.ext_look fun i => ?_
        by_cases hi : i = v
        · subst hi
          have hlook : (s.players.look i).state = .idle := hidle
          simp [hlook]
        · simp [hi]
    · rw [if_neg hidle, ih hrest, State.endPhrase_eq]
      have hreports : ∀ q, State.locateReports { s with
          players := s.players.put v { s.player v with state := .idle, endReason := .located, nextDue := none, told := false }
          ports := s.ports.mapWith (fun q x => if s.reportPort v = some q then x.raise .phraseEnd else x) } rest q =
          s.locateReports rest q := fun q => by
        unfold State.locateReports
        rw [Bool.eq_iff_iff, List.any_eq_true, List.any_eq_true]
        refine exists_congr fun u => and_congr_right fun hu => ?_
        have hne : u ≠ v := fun h => hv (h ▸ hu)
        simp only [State.player, Bank.look_put_ne _ hne]
        rfl
      simp only [hreports]
      congr 1
      · refine Bank.ext_look fun i => ?_
        simp only [Bank.look_mapWith, State.locateReports, List.any_cons, Bool.or_eq_true, Bool.and_eq_true, decide_eq_true_eq]
        by_cases hq : s.reportPort v = some i <;> by_cases hr : s.locateReports rest i = true <;>
          simp_all [Port.raise_raise, State.locateReports]
      · refine Bank.ext_look fun i => ?_
        by_cases hi : i = v
        · subst hi
          have hlook : (s.players.look i).state ≠ .idle := hidle
          simp [hv, hlook, Player.located, State.player]
        · simp [Bank.look_put, hi]

/-- An entry's leaving: its slot is freed, its record offered where its mark is set, and the players concerned told. -/
theorem State.leave_some {k : SlotId} {e : Entry} (h : s.entryAt k = some e) (o : EntryOutcome) : s.leave k o = { s with
    entries := s.entries.filter (fun d => d.slot ≠ k)
    ports := if e.report then s.ports.put e.port ((s.port e.port).offer (e.echo o)) else s.ports
    players := s.players.mapWith (fun v q => if q.state = .stalled && s.concerns e v then { q with told := true } else q) } := by
  unfold State.leave
  rw [h]
  dsimp only
  split <;> rfl

theorem State.leave_none {k : SlotId} (h : s.entryAt k = none) (o : EntryOutcome) : s.leave k o = s := by
  unfold State.leave
  rw [h]

/-- Entries' leaving tells STALLED players, and changes no player else. -/
theorem State.leave_player (k : SlotId) (o : EntryOutcome) (v : VoiceId) : (s.leave k o).player v = s.player v ∨
    ((s.player v).state = .stalled ∧ (s.leave k o).player v = { s.player v with told := true }) := by
  cases he : s.entryAt k with
  | none => exact .inl (by rw [State.leave_none he])
  | some e =>
    rw [State.leave_some he, State.player, Bank.look_mapWith]
    split
    · next h =>
      rw [Bool.and_eq_true, decide_eq_true_eq] at h
      exact .inr ⟨h.1, rfl⟩
    · exact .inl rfl

theorem State.leaveAll_player (o : EntryOutcome) (l : List SlotId) (v : VoiceId) : (State.leaveAll o l s).player v = s.player v ∨
    ((s.player v).state = .stalled ∧ (State.leaveAll o l s).player v = { s.player v with told := true }) := by
  induction l generalizing s with
  | nil => exact .inl rfl
  | cons k rest ih =>
    obtain h | ⟨hstalled, h⟩ := s.leave_player k o v
    · rw [← h]
      exact ih
    · refine .inr ⟨hstalled, ?_⟩
      obtain g | ⟨-, g⟩ := ih (s := s.leave k o)
      · exact g.trans h
      · exact g.trans (by rw [h])

/-- The calendar's way with a LOCATE changes no player's state, and of an IDLE player nothing. -/
theorem State.afterLeaving_located (o : EntryOutcome) (gone : Entry → Bool) (v : VoiceId) :
    (if ((s.afterLeaving o gone).player v).state ≠ .idle then ((s.afterLeaving o gone).player v).located
      else (s.afterLeaving o gone).player v) =
    if (s.player v).state = .idle then s.player v else (s.player v).located := by
  rw [← State.leaveAll_slotsWhere]
  obtain h | ⟨hstalled, h⟩ := s.leaveAll_player o (s.slotsWhere gone) v
  · rw [h, ite_not]
  · rw [h, if_pos (by simp [hstalled]), if_neg (by simp [hstalled])]
    rfl

end

/-! ## LOCATE (R14) -/

section
variable {s : State} {n : Nat}

/-- The state of a LOCATE once the timeline has moved and the entries passed have left. -/
def State.passed (s : State) (n : Nat) : State :=
  (s.modTimeline (Timeline.locate n)).afterLeaving .passed (fun e => e.state = .waiting && e.due < n)

theorem State.passed_eq : s.passed n = { s with
    timeline := s.timeline.locate n, entries := (s.passed n).entries, ports := (s.passed n).ports
    players := (s.passed n).players } := by
  rw [State.passed, ← State.leaveAll_slotsWhere]
  exact State.leaveAll_frame ..

theorem State.passed_player (v : VoiceId) : (if ((s.passed n).player v).state ≠ .idle then ((s.passed n).player v).located
    else (s.passed n).player v) = if (s.player v).state = .idle then s.player v else (s.player v).located :=
  State.afterLeaving_located ..

theorem State.passed_idle_iff (v : VoiceId) : ((s.passed n).player v).state = .idle ↔ (s.player v).state = .idle := by
  rw [State.passed, ← State.leaveAll_slotsWhere]
  obtain h | ⟨-, h⟩ := State.leaveAll_player (s := s.modTimeline (Timeline.locate n)) .passed _ v <;> rw [h] <;> rfl

/-- The port on which a player reports (R124). -/
theorem State.reportPort_eq (v : VoiceId) :
    s.reportPort v = if v = chimeVoice then s.chimePort else (s.voice v).owner := rfl

theorem State.locateTo_eq : s.locateTo n = { s.passed n with
    players := s.players.mapWith (fun _ (x : Player) => if x.state = PlayerState.idle then x else
      { x with state := .idle, endReason := .located, nextDue := none, told := false })
    ports := (s.passed n).ports.mapWith (fun (q : PortId) (x : Port) =>
      if (List.finRange 16).any (fun v => (s.player v).state ≠ PlayerState.idle && s.reportPort v = some q) then
        { x with pendingNotices := x.pendingNotices ||| 0x20#8 } else x) } := by
  have hlocate : s.locateTo n = State.locatePlayers (List.finRange 16) (s.passed n) := by
    rw [State.passed, ← State.leaveAll_slotsWhere]
    rfl
  have hreport : ∀ v, (s.passed n).reportPort v = s.reportPort v := fun v => by rw [State.passed_eq]; rfl
  have hreports : ∀ q, (s.passed n).locateReports (List.finRange 16) q =
      (List.finRange 16).any (fun v => (s.player v).state ≠ PlayerState.idle && s.reportPort v = some q) := fun q => by
    simp only [State.locateReports, ne_eq, hreport, State.passed_idle_iff]
  have hplayers : (s.passed n).players.mapWith
      (fun v x => if v ∈ List.finRange 16 ∧ x.state ≠ .idle then x.located else x) =
      s.players.mapWith (fun _ (x : Player) => if x.state = .idle then x else x.located) := Bank.ext_look fun v => by
    simp only [Bank.look_mapWith, List.mem_finRange, true_and]
    exact State.passed_player v
  rw [hlocate, State.locatePlayers_eq (List.nodup_finRange 16), hplayers]
  simp only [hreports]
  rfl

end

/-! ## STOP (R13) -/

theorem Timeline.adoptPending_eq (t : Timeline) : t.adoptPending =
    let led : ClassTimes → ClassTimes := fun c => { c with
      leadTicks := t.pendingPeriod.elim c.leadTicks (fun P => (c.lead * 8 + P - 1) / P) }
    { t with
      pendingPeriod := none
      period := t.pendingPeriod.getD t.period
      marimba := led t.marimba
      vibes := led t.vibes
      perc := led t.perc } := by
  unfold Timeline.adoptPending
  cases h : t.pendingPeriod with
  | none =>
    cases t
    cases h
    rfl
  | some P => rfl

theorem State.stopTimeline_eq (s : State) (why : StopReason) : s.stopTimeline why = { s with
    timeline := s.timeline.stop why
    dampers := s.dampers.mapWith (fun _ (d : Damper) => d.without s.now (fun _ => true)) } := by
  have hunits : s.dampers.mapWith (fun _ (d : Damper) => d.without s.now (fun _ => true)) =
      s.dampers.mapWith (fun _ d => d.stopped s.now) :=
    Bank.ext_look fun u => by rw [Bank.look_mapWith, Bank.look_mapWith, Damper.stopped_eq_without]
  rw [hunits]
  rfl

/-- Settles O21, request by request. -/
theorem runStopAndLocateTakeEffect : Obligations.RunStopAndLocateTakeEffect := by
  refine ⟨fun w p s hready hconductor => ⟨fun hend => ⟨fun hstopped => ?run, fun hmoving => ?running⟩, fun hstopped => ?stopped,
    fun hmoving => ?stop⟩, fun w p s position hready hconductor hstopped => ?locate⟩
  case run =>
    exact exec_conducted_ok (u := { s with timeline := _ }) rfl hready rfl hconductor rfl
      (decide_eq_false (Nat.not_le.2 hend)) (if_pos hstopped)
  case running =>
    exact exec_conducted_ok (u := s) rfl hready rfl hconductor rfl (decide_eq_false (Nat.not_le.2 hend)) (if_neg hmoving)
  case stopped => exact exec_conducted_ok (u := s) rfl hready rfl hconductor rfl rfl (if_pos hstopped)
  case stop =>
    refine ⟨exec_conducted_ok (u := { s with timeline := _, dampers := _ }) rfl hready rfl hconductor rfl rfl
      ((if_neg hmoving).trans ?_), fun x => ?_⟩
    · rw [State.stopTimeline_eq, Timeline.stop, Timeline.adoptPending_eq]
      rfl
    · simp [State.damper]
  case locate =>
    intro beats n passed moved located reporting ended t
    have hlocate : s.locateTo n = t := State.locateTo_eq
    have hframe : located = { s with
        timeline := moved, entries := located.entries, ports := located.ports, players := located.players } := State.passed_eq
    have hright : decide (s.timeline.state ≠ .stopped) = false := by simp [hstopped]
    have htimeline : t.timeline = moved := by
      show located.timeline = moved
      rw [hframe]
    refine ⟨?_, fun hslots => State.afterLeaving_entries _ _ _ hslots, ?_⟩
    · rw [← htimeline]
      exact exec_conducted_ok rfl hready rfl hconductor hright rfl
        ((State.locateTo_taken w p s n).trans (congrArg (State.taken w p) hlocate))
    · show ({ located with players := _, ports := _ } : State) = _
      rw [hframe]

end Sys2Proof.Machine
end

section
/-! SUPPORT. OPEN and CLOSE of a voice (R25, R26), and CHOP, CANCEL and FLUSH (R45 to R47). -/
namespace Sys2Proof.Machine

/-! ## Who may command a voice -/

section
variable {s : State} {p : PortId} {v : VoiceId}

theorem State.owns_iff : s.owns p v = true ↔ v ≠ chimeVoice ∧ (s.voice v).state = .opened ∧ (s.voice v).owner = some p := by
  simp [State.owns, and_assoc]

theorem State.commands_iff : s.commands p v = true ↔
    (v ≠ chimeVoice ∧ (s.voice v).state = .opened ∧ (s.voice v).owner = some p) ∨ (v = chimeVoice ∧ s.chimePort = some p) := by
  unfold State.commands
  split
  · next h => simp [h]
  · next h => simp [State.owns_iff, h]

variable {holds : State → VoiceId → Bool} {body : VoiceId → State → Result}

theorem forVoice_held (h : holds s v = true) : forVoice holds (BitVec.ofNat 8 v.1) body s = body v s := by
  rw [forVoice_ofNat, if_pos h]

theorem forVoice_other (h : holds s v = false) : forVoice holds (BitVec.ofNat 8 v.1) body s = refuse .owner s := by
  rw [forVoice_ofNat, h, if_neg Bool.false_ne_true]

end

/-! ## Flushing a voice (R47) -/

/-- An entry as a flush of a voice leaves it, where it stays. -/
def Entry.flushMarked (v : VoiceId) (e : Entry) : Entry :=
  if e.markable v then e.modRoll (fun r => { r with flushMark := true }) else e

theorem Entry.modRoll_eq (f : RollPart → RollPart) (e : Entry) : e.modRoll f = { e with part := (e.modRoll f).part } := by
  unfold Entry.modRoll
  split <;> rfl

theorem Entry.flushMarked_eq (v : VoiceId) (e : Entry) : e.flushMarked v = { e with part := (e.flushMarked v).part } := by
  unfold Entry.flushMarked
  split
  · exact e.modRoll_eq _
  · rfl

@[simp] theorem Entry.flushMarked_slot (v : VoiceId) (e : Entry) : (e.flushMarked v).slot = e.slot := by rw [flushMarked_eq]
@[simp] theorem Entry.flushMarked_voice (v : VoiceId) (e : Entry) : (e.flushMarked v).voice = e.voice := by rw [flushMarked_eq]
@[simp] theorem Entry.flushMarked_state (v : VoiceId) (e : Entry) : (e.flushMarked v).state = e.state := by rw [flushMarked_eq]

theorem Entry.flushable_flushMarked (u v : VoiceId) (e : Entry) : (e.flushMarked v).flushable u = e.flushable u := by
  simp [Entry.flushable]

/-- Only a ROLL can receive the flush mark. -/
theorem Entry.flushMarked_roll (v : VoiceId) (e : Entry) : e.flushMarked v = match e.part with
    | .roll r => if e.voice = v && e.state = .firing then { e with part := .roll { r with flushMark := true } } else e
    | _ => e := by
  unfold Entry.flushMarked Entry.markable Entry.modRoll
  cases h : e.part <;> simp [StrokePart.isRoll]

section
variable (s : State) (v : VoiceId)

/-- The calendar with the flush marks of a voice set. -/
def State.flushMarks (s : State) (v : VoiceId) : State := { s with entries := s.entries.map (Entry.flushMarked v) }

theorem State.flushMarks_slots : (s.flushMarks v).slotsWhere (Entry.flushable v) = s.slotsWhere (Entry.flushable v) := by
  have hfilter : Entry.flushable v ∘ Entry.flushMarked v = Entry.flushable v := funext fun e => e.flushable_flushMarked v v
  have hslot : (fun e : Entry => e.slot) ∘ Entry.flushMarked v = fun e : Entry => e.slot := funext fun e => e.flushMarked_slot v
  simp only [State.slotsWhere, State.flushMarks, List.filter_map, hfilter, List.map_map, hslot]

theorem State.flushVoice_eq : s.flushVoice v =
    ((s.flushMarks v).afterLeaving .flushed (Entry.flushable v), s.entries.countP (Entry.flushable v),
      s.entries.countP (Entry.markable v)) := by
  rw [← State.leaveAll_slotsWhere, State.flushMarks_slots, List.countP_eq_length_filter]
  simp only [State.flushVoice, State.slotsWhere, List.length_map]
  rfl

/-- A flush changes entries, ports and players alone. -/
theorem State.flushVoice_frame : (s.flushVoice v).1 = { s with
    entries := (s.flushVoice v).1.entries, ports := (s.flushVoice v).1.ports, players := (s.flushVoice v).1.players } := by
  rw [State.flushVoice_eq, ← State.leaveAll_slotsWhere]
  exact State.leaveAll_frame ..

theorem State.flushVoice_entries (h : (s.entries.map (·.slot)).Nodup) : (s.flushVoice v).1.entries =
    (s.entries.filter (fun e => !e.flushable v)).map (Entry.flushMarked v) := by
  have hslot : (fun e : Entry => e.slot) ∘ Entry.flushMarked v = fun e : Entry => e.slot := funext fun e => e.flushMarked_slot v
  have hfilter : (fun e : Entry => !e.flushable v) ∘ Entry.flushMarked v = fun e => !e.flushable v :=
    funext fun e => congrArg (!·) (e.flushable_flushMarked v v)
  rw [State.flushVoice_eq, State.afterLeaving_entries]
  · simp only [State.flushMarks, List.filter_map, hfilter]
  · simpa only [State.flushMarks, List.map_map, hslot] using h

theorem State.flushVoice_player (u : VoiceId) : (s.flushVoice v).1.player u = s.player u ∨
    ((s.player u).state = .stalled ∧ (s.flushVoice v).1.player u = { s.player u with told := true }) := by
  rw [State.flushVoice_eq, ← State.leaveAll_slotsWhere]
  exact State.leaveAll_player (s := s.flushMarks v) ..

theorem State.flushVoice_taken (w : When) (p : PortId) : (s.taken w p).flushVoice v =
    ((s.flushVoice v).1.taken w p, (s.flushVoice v).2) := by
  rw [State.flushVoice_eq, State.flushVoice_eq, ← State.leaveAll_slotsWhere, ← State.leaveAll_slotsWhere]
  show (State.leaveAll .flushed _ ((s.flushMarks v).taken w p), _, _) = _
  rw [State.leaveAll_taken]
  rfl

end

/-! ## OPEN (R25) -/

theorem find?_finRange_eq_some_iff {n : Nat} {q : Fin n → Bool} {i : Fin n} :
    (List.finRange n).find? q = some i ↔ q i = true ∧ ∀ j < i, q j = false := by
  rw [← Fin.find?_eq_find?_finRange, Fin.find?_eq_some_iff]

section
variable {s : State} {p : PortId} {v : VoiceId} {voice priority low high : Byte}

theorem openResult_range (h : (14 < voice.toNat ∧ voice ≠ 0xFF#8) ∨ 3 < priority.toNat ∨ 127 < low.toNat ∨
    127 < high.toNat ∨ high.toNat < low.toNat) : openResult p voice priority low high s = refuse .range s := by
  unfold openResult
  split
  · rfl
  · next hvoice =>
    have hnamed := not_beyondOptional_of_optionalId hvoice
    have hrest : ¬ (14 < voice.toNat ∧ voice ≠ 0xFF#8) := fun ⟨hlarge, hpresent⟩ => by
      simp [beyondOptional, hpresent] at hnamed
      omega
    exact if_pos (by simpa [or_assoc] using h.resolve_left hrest)

/-- OPEN with its argument checks passed. -/
theorem openResult_inside (named : Option (Fin 15)) (hpriority : priority.toNat ≤ 3) (hlow : low.toNat ≤ high.toNat)
    (hhigh : high.toNat ≤ 127) : openResult p (fieldOf named) priority low high s =
      match s.voiceToOpen (named.map (Fin.castLE (by omega))) with
      | .error st => refuse st s
      | .ok v => (s.openVoice p v priority.toNat low.toNat high.toNat, .ok, b1 v.1) := by
  have hpass : ¬ (3 < priority.toNat || 127 < low.toNat || 127 < high.toNat || high.toNat < low.toNat) = true := by
    simp only [Bool.or_eq_true, decide_eq_true_eq]
    omega
  unfold openResult
  rw [optionalId_fieldOf (by decide)]
  exact if_neg hpass

/-- A voice that is not the chime voice, as OPEN names it. -/
theorem exists_named_voice (h : v ≠ chimeVoice) :
    ∃ i : Fin 15, Fin.castLE (by omega) i = v ∧ fieldOf (some i) = BitVec.ofNat 8 v.1 := by
  have hlt : v.1 < 15 := by
    have hne : v.1 ≠ 15 := fun g => h (Fin.ext g)
    omega
  exact ⟨⟨v.1, hlt⟩, rfl, rfl⟩

theorem State.freeVoice_eq_some (hv : v ≠ chimeVoice) (hclosed : (s.voice v).state = .closed)
    (hbelow : ∀ u : VoiceId, u < v → (s.voice u).state = .opened) : s.freeVoice = some v := by
  unfold State.freeVoice portVoices
  rw [List.find?_filter, find?_finRange_eq_some_iff]
  exact ⟨by simp [hv, hclosed], fun u hu => by simp [hbelow u hu]⟩

theorem State.freeVoice_eq_none (h : ∀ v : VoiceId, v ≠ chimeVoice → (s.voice v).state = .opened) : s.freeVoice = none := by
  unfold State.freeVoice portVoices
  rw [List.find?_eq_none]
  intro v hv
  obtain ⟨-, hchime⟩ := List.mem_filter.1 hv
  simp [h v (by simpa using hchime)]

theorem State.voiceToOpen_closed (h : (s.voice v).state = .closed) : s.voiceToOpen (some v) = .ok v :=
  if_neg (by rw [h]; nofun)

theorem State.voiceToOpen_busy (h : (s.voice v).state = .opened) : s.voiceToOpen (some v) = .error .busy := if_pos h

theorem State.voiceToOpen_lowest (h : s.freeVoice = some v) : s.voiceToOpen none = .ok v := by
  unfold State.voiceToOpen
  rw [h]

theorem State.voiceToOpen_full (h : s.freeVoice = none) : s.voiceToOpen none = .error .full := by
  unfold State.voiceToOpen
  rw [h]

end

/-! ## CLOSE (R26) -/

section
variable (s : State) (v : VoiceId)

/-- A halted player is the same whether or not it was told before. -/
theorem State.haltPlayer_flushVoice : ((s.flushVoice v).1.haltPlayer v).players = (s.flushVoice v).1.players.put v
    { s.player v with state := .idle, nextDue := none, told := false } := by
  unfold State.haltPlayer State.modPlayer
  dsimp only
  obtain h | ⟨-, h⟩ := s.flushVoice_player v v
  · rw [h]
  · rw [h]

theorem State.closeVoice_eq : (s.closeVoice v).1 = { (s.flushVoice v).1 with
    voices := s.voices.put v { s.voice v with state := .closed, owner := none, area := none }
    players := (s.flushVoice v).1.players.put v { s.player v with state := .idle, nextDue := none, told := false }
    dampers := s.dampers.mapWith (fun _ (d : Damper) =>
      if d.holds.any (Hold.pedalOf v) then d.without s.now (Hold.pedalOf v) else d) } := by
  have hframe := s.flushVoice_frame v
  have hdampers : s.dampers.mapWith (fun _ (d : Damper) =>
      if d.holds.any (Hold.pedalOf v) then d.without s.now (Hold.pedalOf v) else d) =
      s.dampers.mapWith (fun _ d => d.drop s.now (Hold.pedalOf v)) :=
    Bank.ext_look fun u => by rw [Bank.look_mapWith, Bank.look_mapWith, Damper.drop_eq_without]
  rw [hdampers, ← s.haltPlayer_flushVoice v]
  show (((s.flushVoice v).1.haltPlayer v).dropPedals v).modVoice v
    (fun d => { d with state := .closed, owner := none, area := none }) = _
  rw [hframe]
  rfl

/-- An endless hold of a closed voice is on no unit. -/
theorem State.closeVoice_holds (u : UnitId) {h : Hold} (hmem : h ∈ ((s.closeVoice v).1.damper u).holds) (hendless : h.endTick = none) :
    h.voice ≠ v := by
  intro hvoice
  have hpedal : Hold.pedalOf v h = true := by simp [Hold.pedalOf, hendless, hvoice]
  rw [State.closeVoice_eq, State.damper, Bank.look_mapWith] at hmem
  split at hmem
  · rw [Damper.without_holds] at hmem
    simpa [hpedal] using (List.mem_filter.1 hmem).2
  · next hnone => exact hnone (List.any_eq_true.2 ⟨h, hmem, hpedal⟩)

theorem State.closeVoice_counts : (s.closeVoice v).2 = (s.entries.countP (Entry.flushable v), s.entries.countP (Entry.markable v)) :=
  congrArg Prod.snd (s.flushVoice_eq v)

end

section
variable {s : State} {p : PortId} {v : VoiceId}

theorem closeResult_owned (h : s.owns p v = true) : closeResult p (BitVec.ofNat 8 v.1) s =
    ((s.closeVoice v).1, .ok, b1 (s.entries.countP (Entry.flushable v)) ++ b1 (s.entries.countP (Entry.markable v))) := by
  unfold closeResult
  rw [forVoice_held h]
  dsimp only
  rw [State.closeVoice_counts]

/-- The calendar's entries of a closed voice, in the claims' words. -/
theorem flushMarked_funext (v : VoiceId) : Entry.flushMarked v = fun e => match e.part with
    | .roll r => if e.voice = v && e.state = .firing then { e with part := .roll { r with flushMark := true } } else e
    | _ => e := funext fun e => e.flushMarked_roll v

end

/-- Settles O22, OPEN by its checks and CLOSE by its owner. -/
theorem voicesOpenAndClose : Obligations.VoicesOpenAndClose := by
  refine ⟨fun _ _ _ => State.owns_iff, fun w p s hready => ?_⟩
  intro openedBy
  refine ⟨fun voice priority low high h => exec_refused rfl hready (openResult_range h),
    fun priority low high hpriority hlow hhigh => ⟨fun v hv => ?named, fun hopened => ?full⟩, fun v => ⟨fun hother => ?other, fun howns => ?close⟩⟩
  case named =>
    obtain ⟨i, rfl, hfield⟩ := exists_named_voice hv
    rw [← hfield]
    refine ⟨fun hclosed => ?_, fun hopened => ?_, fun hclosed hbelow => ?_⟩
    · refine exec_answers (u := { s with voices := _, players := _ }) rfl hready
        ((openResult_inside (s := s.taken w p) (some i) hpriority hlow hhigh).trans ?_)
      rw [Option.map_some, State.voiceToOpen_closed (s := s.taken w p) hclosed]
      rfl
    · refine exec_refused rfl hready ((openResult_inside (s := s.taken w p) (some i) hpriority hlow hhigh).trans ?_)
      rw [Option.map_some, State.voiceToOpen_busy (s := s.taken w p) hopened]
    · refine exec_answers (u := { s with voices := _, players := _ }) rfl hready
        ((openResult_inside (s := s.taken w p) none hpriority hlow hhigh).trans ?_)
      rw [Option.map_none, State.voiceToOpen_lowest (State.freeVoice_eq_some (s := s.taken w p) hv hclosed hbelow)]
      rfl
  case full =>
    refine exec_refused rfl hready ((openResult_inside (s := s.taken w p) none hpriority hlow hhigh).trans ?_)
    rw [Option.map_none, State.voiceToOpen_full (State.freeVoice_eq_none (s := s.taken w p) hopened)]
  case other => exact exec_refused rfl hready (forVoice_other hother)
  case close =>
    intro flushed marked rolls endless left t
    have hmarked : Entry.flushMarked v = marked := flushMarked_funext v
    have hleft : (s.flushVoice v).1 = left := by
      rw [State.flushVoice_eq, State.flushMarks, hmarked]
      rfl
    have hclose : ((s.taken w p).closeVoice v).1 = t.taken w p := by
      rw [State.closeVoice_eq, State.flushVoice_taken, hleft]
      rfl
    refine ⟨exec_answers rfl hready ((closeResult_owned (s := s.taken w p) howns).trans ?_), fun hslots => ?_, fun u h hmem hendless => ?_, ?_⟩
    · rw [hclose]
      rfl
    · rw [← hmarked]
      exact (congrArg State.entries hleft.symm).trans (s.flushVoice_entries v hslots)
    · have hunit : h ∈ (((s.taken w p).closeVoice v).1.damper u).holds := by rw [hclose]; exact hmem
      exact State.closeVoice_holds _ v u hunit hendless
    · have hframe := s.flushVoice_frame v
      rw [hleft] at hframe
      show ({ left with voices := _, players := _, dampers := _ } : State) = _
      rw [hframe]

/-! ## CHOP, CANCEL and FLUSH (R45 to R47) -/

section
variable {s : State} {p : PortId} {v : VoiceId} {tag : Byte}

/-- A ROLL that has its chop mark receives it again without a change. -/
theorem State.chop_eq : s.chop v tag = { s with entries := s.entries.map (fun (e : Entry) => match e.part with
    | .roll r => if e.voice = v ∧ e.tag = tag then { e with part := .roll { r with chopMark := true } } else e
    | _ => e) } := by
  unfold State.chop
  congr 2
  funext e
  cases h : e.part with
  | single => simp [Entry.choppable, h]
  | press q => simp [Entry.choppable, h]
  | roll r =>
    by_cases hnamed : e.voice = v ∧ e.tag = tag
    · cases hmark : r.chopMark with
      | false => simp [Entry.choppable, Entry.modRoll, h, hnamed, hmark]
      | true =>
        have hsame : { e with part := .roll { r with chopMark := true } } = e := by
          rw [← hmark, ← h]
        simpa [Entry.choppable, h, hmark, hnamed] using hsame.symm
    · have hnot : e.choppable v tag = false := by
        simp only [Entry.choppable, Bool.and_eq_false_iff, decide_eq_false_iff_not]
        tauto
      simp [hnot, hnamed]

theorem State.cancel_eq : s.cancel v tag =
    (s.afterLeaving .cancelled (fun e => e.voice = v && e.tag = tag && e.state = .waiting),
      s.entries.countP (fun e => e.voice = v && e.tag = tag && e.state = .waiting)) := by
  rw [← State.leaveAll_slotsWhere, List.countP_eq_length_filter]
  simp only [State.cancel, State.slotsWhere, List.length_map]

theorem State.afterLeaving_taken (w : When) (o : EntryOutcome) (gone : Entry → Bool) :
    (s.taken w p).afterLeaving o gone = (s.afterLeaving o gone).taken w p := by
  rw [← State.leaveAll_slotsWhere, ← State.leaveAll_slotsWhere, ← State.leaveAll_taken]
  rfl

theorem State.afterLeaving_frame (o : EntryOutcome) (gone : Entry → Bool) : s.afterLeaving o gone = { s with
    entries := (s.afterLeaving o gone).entries, ports := (s.afterLeaving o gone).ports
    players := (s.afterLeaving o gone).players } := by
  rw [← State.leaveAll_slotsWhere]
  exact State.leaveAll_frame ..

end

/-- Settles O24, request by request. -/
theorem entriesAreChoppedCancelledFlushed : Obligations.EntriesAreChoppedCancelledFlushed := by
  refine ⟨fun _ _ _ => State.commands_iff, fun w p s v tag hready => ?_⟩
  intro voice choppable cancelled flushed markable marked kept
  refine ⟨fun h => ⟨?_, ?_, ?_⟩, fun h => ?chop, fun h => ?cancel, fun h => ?flush⟩
  · exact exec_refused rfl hready (forVoice_other h)
  · exact exec_refused rfl hready (forVoice_other h)
  · exact exec_refused rfl hready (forVoice_other h)
  case chop =>
    refine exec_answers (u := { s with entries := _ }) rfl hready ((forVoice_held (s := s.taken w p) h).trans ?_)
    rw [State.chop_eq]
    rfl
  case cancel =>
    intro t
    refine ⟨?_, fun hslots => State.afterLeaving_entries _ _ _ hslots, State.afterLeaving_frame ..⟩
    refine exec_answers (u := t) rfl hready ((forVoice_held (s := s.taken w p) h).trans ?_)
    rw [State.cancel_eq, State.afterLeaving_taken]
    rfl
  case flush =>
    intro t
    have hmarked : Entry.flushMarked v = marked := by
      rw [flushMarked_funext]
      funext e
      cases hpart : e.part <;> simp [marked, markable, hpart, StrokePart.isRoll]
    have ht : (s.flushVoice v).1 = t := by
      rw [State.flushVoice_eq, State.flushMarks, hmarked]
      rfl
    refine ⟨?_, fun hslots => ?_, ?_⟩
    · refine exec_answers (u := t) rfl hready ((forVoice_held (s := s.taken w p) h).trans ?_)
      rw [State.flushVoice_taken, ht, State.flushVoice_eq]
      rfl
    · rw [← hmarked, ← ht]
      exact s.flushVoice_entries v hslots
    · have hframe := s.flushVoice_frame v
      rw [ht] at hframe
      exact hframe

end Sys2Proof.Machine
end

section
/-! SUPPORT. STRIKE, ROLL and PRESS (R31, R32): what their checks say, and what an admission leaves. -/
namespace Sys2Proof.Machine

/-! ## The checks of an ask (R31) -/

/-- A SINGLE's, a ROLL's or a PRESS's own part of check 3. -/
def StrokePart.inRange : StrokePart → Bool
  | .single => true
  | .roll r => 2 ≤ r.count && r.count ≤ 32 && 1 ≤ r.spacing && r.spacing ≤ 240
  | .press q => 5 ≤ q.holdMs && q.holdMs ≤ 400 && 1 ≤ q.duty && q.duty ≤ 255

/-- The part of checks 2 and 3 that every stroke has. -/
def AskOutside (s : State) (a : Ask) : Prop :=
  a.bar.1 < (s.voice a.voice).low ∨ (s.voice a.voice).high < a.bar.1 ∨ a.strength = 0 ∨ a.sustain = some 0

section
variable {s : State} {a : Ask} {p : PortId}

theorem Ask.inRange_eq : a.inRange = (a.strength ≠ 0 && a.sustain ≠ some 0 && a.part.inRange) := by
  unfold Ask.inRange StrokePart.inRange
  cases a.part <;> rfl

theorem askRefusal_range (h : AskOutside s a ∨ a.part.inRange = false ∨ a.inTicks = false) :
    s.askRefusal a p = some .range := by
  unfold State.askRefusal
  by_cases hbar : (a.bar.1 < (s.voice a.voice).low || (s.voice a.voice).high < a.bar.1) = true
  · rw [if_pos hbar]
  rw [if_neg hbar]
  by_cases hrange : a.inRange = true
  · rw [if_neg (by simp [hrange])]
    obtain h | h | h := h
    · simp only [Ask.inRange_eq, Bool.and_eq_true, decide_eq_true_eq] at hrange
      simp only [Bool.or_eq_true, decide_eq_true_eq, not_or] at hbar
      obtain ⟨⟨hstrength, hsustain⟩, -⟩ := hrange
      exact absurd h (by simp [AskOutside, hstrength, hsustain, hbar])
    · simp [Ask.inRange_eq, h] at hrange
    · rw [if_pos (by simp [h])]
  · rw [if_pos (by simpa using hrange)]

/-- With checks 2 to 4 passed only the calendar decides. -/
theorem askRefusal_inside (h : ¬ AskOutside s a) (hpart : a.part.inRange = true) (hticks : a.inTicks = true) :
    s.askRefusal a p = if s.calendarFull a.voice p then some .full else none := by
  simp only [AskOutside, not_or] at h
  obtain ⟨hlow, hhigh, hstrength, hsustain⟩ := h
  have hrange : a.inRange = true := by simp [Ask.inRange_eq, hstrength, hsustain, hpart]
  simp [State.askRefusal, hlow, hhigh, hrange, hticks]

theorem calendarFull_owned {v : VoiceId} (hv : v ≠ chimeVoice) : s.calendarFull v p = true ↔
    256 ≤ s.entries.length ∨ s.quotas.look p ≤ s.useCount p := by
  simp [State.calendarFull, hv]

end

/-! ## What a stroke request asks -/

/-- What the fields of STRIKE, ROLL and PRESS ask for. -/
def strokeAsk (v : VoiceId) (b : BarId) (form : Byte) (due : Quad) (strength tag : Byte) (sustain : Half) (part : StrokePart)
    (s : State) : Ask where
  voice := v
  bar := b
  due := if form.getLsbD 0 then s.timeline.position + due.toNat else due.toNat
  strength := strength.toNat
  tag := tag
  sustain := if form.getLsbD 1 then some sustain.toNat else none
  part := part

theorem fieldForm_small {form : Byte} (h : form.toNat < 4) : fieldForm form = some (form.getLsbD 0, form.getLsbD 1) := by
  revert form
  decide +kernel

/-- The form byte by its two bits. -/
theorem formByte_bits (offset sustained : Bool) : (bitByte offset ||| (bitByte sustained <<< 1)).toNat < 4 ∧
    (bitByte offset ||| (bitByte sustained <<< 1)).getLsbD 0 = offset ∧
    (bitByte offset ||| (bitByte sustained <<< 1)).getLsbD 1 = sustained := by
  revert offset sustained
  decide

theorem State.settle_of_nil {s : State} (h : s.decisions = []) : s.settle = s := by
  unfold State.settle State.settleUpTo
  rw [h]
  cases s
  cases h
  rfl

section
variable {s : State} {p : PortId} {v : VoiceId} {b : BarId} {form : Byte} {due : Quad} {strength tag : Byte} {sustain : Half}
  {part : StrokePart}

theorem strokeResult_named (hform : form.toNat < 4) :
    strokeResult p (BitVec.ofNat 8 v.1) (BitVec.ofNat 8 b.1) form due strength tag sustain part s =
      if s.owns p v then
        (match s.admitEntry (strokeAsk v b form due strength tag sustain part s) p with
          | (s, .refused st) => refuse st s
          | (s, .admitted slot seq) => (s.settle, .ok, b1 slot.1 ++ b4 seq))
      else refuse .owner s := by
  unfold strokeResult
  rw [fieldId_ofNat (by decide), fieldForm_small hform]
  exact forVoice_ofNat _ v _ s

theorem strokeResult_owner (hform : form.toNat < 4) (h : s.owns p v = false) :
    strokeResult p (BitVec.ofNat 8 v.1) (BitVec.ofNat 8 b.1) form due strength tag sustain part s = refuse .owner s := by
  rw [strokeResult_named hform, h, if_neg Bool.false_ne_true]

theorem strokeResult_refused (hform : form.toNat < 4) (h : s.owns p v = true) {st : Status}
    (hask : s.askRefusal (strokeAsk v b form due strength tag sustain part s) p = some st) :
    strokeResult p (BitVec.ofNat 8 v.1) (BitVec.ofNat 8 b.1) form due strength tag sustain part s = refuse st s := by
  rw [strokeResult_named hform, if_pos h, State.admitEntry, hask]

/-- An admission that the position does not release at once. -/
theorem strokeResult_admitted (hform : form.toNat < 4) (h : s.owns p v = true) {slot : SlotId}
    (hask : s.askRefusal (strokeAsk v b form due strength tag sustain part s) p = none) (hslot : s.freeSlot = some slot)
    (hlater : s.releasable ((strokeAsk v b form due strength tag sustain part s).entry p slot s.nextSeq) = false)
    (hdecisions : s.decisions = []) :
    strokeResult p (BitVec.ofNat 8 v.1) (BitVec.ofNat 8 b.1) form due strength tag sustain part s =
      ({ s with
        entries := placeEntry ((strokeAsk v b form due strength tag sustain part s).entry p slot s.nextSeq) s.entries
        nextSeq := s.nextSeq + 1 }, .ok, b1 slot.1 ++ b4 s.nextSeq) := by
  let e := (strokeAsk v b form due strength tag sustain part s).entry p slot s.nextSeq
  let t : State := { s with entries := placeEntry e s.entries, nextSeq := s.nextSeq + 1 }
  have hlater' : t.releasable e = false := hlater
  have hadmit : s.admitEntry (strokeAsk v b form due strength tag sustain part s) p = (t, .admitted slot s.nextSeq) := by
    rw [State.admitEntry, hask, hslot]
    show ((if t.releasable e then t.release slot else t), _) = _
    rw [hlater', if_neg Bool.false_ne_true]
    rfl
  rw [strokeResult_named hform, if_pos h, hadmit]
  show (t.settle, _) = _
  rw [State.settle_of_nil (s := t) hdecisions]

theorem strokeAsk_outside_iff : AskOutside s (strokeAsk v b form due strength tag sustain part s) ↔
    b.1 < (s.voice v).low ∨ (s.voice v).high < b.1 ∨ strength = 0#8 ∨ (form.getLsbD 1 = true ∧ sustain = 0#16) := by
  have hstrength : strength.toNat = 0 ↔ strength = 0#8 := ⟨fun h => BitVec.eq_of_toNat_eq h, fun h => by rw [h]; rfl⟩
  have hsustain : sustain.toNat = 0 ↔ sustain = 0#16 := ⟨fun h => BitVec.eq_of_toNat_eq h, fun h => by rw [h]; rfl⟩
  unfold AskOutside strokeAsk
  generalize form.getLsbD 1 = rings
  cases rings <;> simp [hstrength, hsustain]

theorem strokeAsk_inTicks_iff : (strokeAsk v b form due strength tag sustain part s).inTicks = true ↔
    (strokeAsk v b form due strength tag sustain part s).lastDue +
      (if form.getLsbD 1 then sustain.toNat else 0) ≤ 4294967295 := by
  unfold Ask.inTicks strokeAsk maxTick
  generalize form.getLsbD 1 = rings
  cases rings <;> simp

end

/-! ## The lowest free slot (R28) -/

theorem State.freeSlot_eq_some {s : State} {slot : SlotId} (hfree : ∀ e ∈ s.entries, e.slot ≠ slot)
    (hbelow : ∀ k : SlotId, k < slot → ∃ e ∈ s.entries, e.slot = k) : s.freeSlot = some slot := by
  unfold State.freeSlot
  rw [find?_finRange_eq_some_iff]
  refine ⟨by simpa using hfree, fun k hk => ?_⟩
  obtain ⟨e, he, hslot⟩ := hbelow k hk
  simpa using ⟨e, he, hslot⟩

/-! ## The parts of a stroke request -/

section
variable {count spacing duty : Byte} {hold : Half}

theorem StrokePart.roll_inRange_iff {r : RollPart} : (StrokePart.roll r).inRange = true ↔
    2 ≤ r.count ∧ r.count ≤ 32 ∧ 1 ≤ r.spacing ∧ r.spacing ≤ 240 := by
  simp [StrokePart.inRange, and_assoc]

theorem rollPart_inRange_iff : (StrokePart.roll (RollPart.asked count.toNat spacing.toNat)).inRange = true ↔
    ¬ (count.toNat < 2 ∨ 32 < count.toNat ∨ spacing = 0#8 ∨ 240 < spacing.toNat) := by
  have hzero : spacing = 0#8 ↔ spacing.toNat = 0 := ⟨fun h => by rw [h]; rfl, fun h => BitVec.eq_of_toNat_eq h⟩
  rw [StrokePart.roll_inRange_iff, hzero]
  simp only [RollPart.asked]
  omega

theorem pressPart_inRange_iff : (StrokePart.press { holdMs := hold.toNat, duty := duty.toNat }).inRange = true ↔
    ¬ (hold.toNat < 5 ∨ 400 < hold.toNat ∨ duty = 0#8) := by
  have hzero : duty = 0#8 ↔ duty.toNat = 0 := ⟨fun h => by rw [h]; rfl, fun h => BitVec.eq_of_toNat_eq h⟩
  simp only [StrokePart.inRange, Bool.and_eq_true, decide_eq_true_eq, hzero]
  omega

end

/-! ## The refusals of a stroke request, in R31's order -/

section
variable {c : Instr} {w : When} {p : PortId} {kind : Byte} {s : State} {v : VoiceId} {b : BarId} {form : Byte} {due : Quad}
  {strength tag : Byte} {sustain : Half} {part : StrokePart}

/-- A stroke request that R31's checks 2 to 4 refuse. -/
theorem exec_stroke_range (hexec : exec c s = .next (request w p kind
      (strokeResult p (BitVec.ofNat 8 v.1) (BitVec.ofNat 8 b.1) form due strength tag sustain part) s))
    (hready : s.ready p = true) (hform : form.toNat < 4) (hown : s.owns p v = true)
    (h : AskOutside s (strokeAsk v b form due strength tag sustain part s) ∨ part.inRange = false ∨
      (strokeAsk v b form due strength tag sustain part s).inTicks = false) :
    exec c s = .next (s.answering w p kind .range []) :=
  exec_refused hexec hready (strokeResult_refused (s := s.taken w p) hform hown (askRefusal_range (s := s.taken w p) h))

/-- A stroke request that passes checks 2 to 4 where the calendar or the quota is full. -/
theorem exec_stroke_full (hexec : exec c s = .next (request w p kind
      (strokeResult p (BitVec.ofNat 8 v.1) (BitVec.ofNat 8 b.1) form due strength tag sustain part) s))
    (hready : s.ready p = true) (hform : form.toNat < 4) (hown : s.owns p v = true)
    (h : ¬ AskOutside s (strokeAsk v b form due strength tag sustain part s)) (hpart : part.inRange = true)
    (hticks : (strokeAsk v b form due strength tag sustain part s).inTicks = true)
    (hfull : 256 ≤ s.entries.length ∨ s.quotas.look p ≤ s.useCount p) :
    exec c s = .next (s.answering w p kind .full []) := by
  have hcalendar : (s.taken w p).calendarFull v p = true := (calendarFull_owned (State.owns_iff.1 hown).1).2 hfull
  refine exec_refused hexec hready (strokeResult_refused (s := s.taken w p) hform hown ?_)
  exact (askRefusal_inside (s := s.taken w p) h hpart hticks).trans (if_pos hcalendar)

/-- A stroke request admitted. -/
theorem exec_stroke_admitted (hexec : exec c s = .next (request w p kind
      (strokeResult p (BitVec.ofNat 8 v.1) (BitVec.ofNat 8 b.1) form due strength tag sustain part) s))
    (hready : s.ready p = true) (hform : form.toNat < 4) (hown : s.owns p v = true)
    (h : ¬ AskOutside s (strokeAsk v b form due strength tag sustain part s)) (hpart : part.inRange = true)
    (hticks : (strokeAsk v b form due strength tag sustain part s).inTicks = true)
    (hroom : ¬ (256 ≤ s.entries.length ∨ s.quotas.look p ≤ s.useCount p)) {slot : SlotId} (hslot : s.freeSlot = some slot)
    (hlater : s.releasable ((strokeAsk v b form due strength tag sustain part s).entry p slot s.nextSeq) = false)
    (hdecisions : s.decisions = []) :
    exec c s = .next (({ s with
      entries := placeEntry ((strokeAsk v b form due strength tag sustain part s).entry p slot s.nextSeq) s.entries
      nextSeq := s.nextSeq + 1 }).answering w p kind .ok (b1 slot.1 ++ b4 s.nextSeq)) := by
  have hcalendar : ¬ (s.taken w p).calendarFull v p = true := fun g =>
    hroom ((calendarFull_owned (s := s.taken w p) (State.owns_iff.1 hown).1).1 g)
  have hask : (s.taken w p).askRefusal (strokeAsk v b form due strength tag sustain part s) p = none :=
    (askRefusal_inside (s := s.taken w p) h hpart hticks).trans (if_neg hcalendar)
  exact exec_answers (u := { s with entries := _, nextSeq := _ }) hexec hready
    (strokeResult_admitted (s := s.taken w p) hform hown hask hslot hlater hdecisions)

end

/-- Settles O23: the place of an entry, the admissions, and the refusals. -/
theorem strokesAreAdmittedOrRefused : Obligations.StrokesAreAdmittedOrRefused := by
  refine ⟨fun e l => ⟨placeEntry_perm e l, fun hl hnew => ?place⟩, ?admitted, ?refused⟩
  case place =>
    have hbefore : (fun a b : Entry => a.before b = true) = fun a b => a.due < b.due ∨ (a.due = b.due ∧ a.seq < b.seq) := by
      funext a b
      exact propext Entry.before_iff
    have hplaced := placeEntry_pairwise (e := e) (l := l)
    rw [hbefore] at hplaced
    exact hplaced hl hnew
  case admitted =>
    intro w p s v b offset sustained due strength tag sustain slot hready hdecisions hown hlow hhigh hstrength hsustain hroom
      hquota hfree hbelow form first rings entry admitted hlater fits
    obtain ⟨hform, hoffset, hsustained⟩ := formByte_bits offset sustained
    have hslot := State.freeSlot_eq_some hfree hbelow
    have hinside : ∀ part, ¬ AskOutside s (strokeAsk v b form due strength tag sustain part s) := fun part => by
      rw [strokeAsk_outside_iff, hsustained]
      rintro (h | h | h | ⟨h, g⟩)
      · omega
      · omega
      · exact hstrength h
      · exact hsustain h g
    have hspace : ¬ (256 ≤ s.entries.length ∨ s.quotas.look p ≤ s.useCount p) := by omega
    have hask : ∀ part, strokeAsk v b form due strength tag sustain part s =
        { voice := v, bar := b, due := first, strength := strength.toNat, tag, sustain := rings, part } := fun part => by
      simp only [strokeAsk, form, hoffset, hsustained]
      rfl
    have hrings : ∀ n, n + rings.getD 0 = n + if form.getLsbD 1 then sustain.toNat else 0 := fun n => by
      rw [hsustained]
      cases sustained <;> rfl
    have hticks : ∀ part, fits ((strokeAsk v b form due strength tag sustain part s).lastDue) →
        (strokeAsk v b form due strength tag sustain part s).inTicks = true := fun part h => by
      rw [strokeAsk_inTicks_iff, ← hrings]
      exact h
    have hwaits : ∀ part, s.releasable ((strokeAsk v b form due strength tag sustain part s).entry p slot s.nextSeq) = false :=
      fun part => by
        rw [hask]
        simp [State.releasable, Ask.entry]
        omega
    refine ⟨fun hfits => ?_, fun count spacing h1 h2 h3 h4 hfits => ?_, fun hold duty h1 h2 h3 hfits => ?_⟩
    · refine (exec_stroke_admitted (part := .single) rfl hready hform hown (hinside _) rfl (hticks _ ?_) hspace hslot (hwaits _)
        hdecisions).trans ?_
      · rw [hask]
        exact hfits
      · rw [hask]
        rfl
    · refine (exec_stroke_admitted (part := .roll (RollPart.asked count.toNat spacing.toNat)) rfl hready hform hown (hinside _)
        (rollPart_inRange_iff.2 ?_) (hticks _ ?_) hspace hslot (hwaits _) hdecisions).trans ?_
      · rintro (h | h | rfl | h)
        · omega
        · omega
        · simp at h3
        · omega
      · rw [hask]
        exact hfits
      · rw [hask]
        rfl
    · refine (exec_stroke_admitted (part := .press { holdMs := hold.toNat, duty := duty.toNat }) rfl hready hform hown (hinside _)
        (pressPart_inRange_iff.2 ?_) (hticks _ ?_) hspace hslot (hwaits _) hdecisions).trans ?_
      · rintro (h | h | h)
        · omega
        · omega
        · exact h3 h
      · rw [hask]
        exact hfits
      · rw [hask]
        rfl
  case refused =>
    intro w p s v b form due strength tag sustain count spacing hold duty hready hform answer strike roll press refused outside badRoll badPress first rings last full
    have houtside : ∀ part, AskOutside s (strokeAsk v b form due strength tag sustain part s) ↔ outside :=
      fun part => strokeAsk_outside_iff
    have hticks : ∀ part, (strokeAsk v b form due strength tag sustain part s).inTicks = true ↔
        (strokeAsk v b form due strength tag sustain part s).lastDue + rings ≤ 4294967295 := fun part => strokeAsk_inTicks_iff
    have hlate : ∀ part, 4294967295 < (strokeAsk v b form due strength tag sustain part s).lastDue + rings →
        (strokeAsk v b form due strength tag sustain part s).inTicks = false := fun part h => by
      rw [← Bool.not_eq_true, hticks]
      omega
    refine ⟨fun h => ⟨?_, ?_, ?_⟩, fun hown => ⟨fun h => ?range, fun h => ?badRoll, fun h => ?badPress, fun h hfull hfits => ?full⟩⟩
    · exact exec_refused rfl hready (strokeResult_owner (s := s.taken w p) hform h)
    · exact exec_refused rfl hready (strokeResult_owner (s := s.taken w p) hform h)
    · exact exec_refused rfl hready (strokeResult_owner (s := s.taken w p) hform h)
    case range =>
      have hrange : ∀ part, first ≤ (strokeAsk v b form due strength tag sustain part s).lastDue →
          AskOutside s (strokeAsk v b form due strength tag sustain part s) ∨ part.inRange = false ∨
            (strokeAsk v b form due strength tag sustain part s).inTicks = false := fun part hlast => by
        obtain h | h := h
        · exact .inl ((houtside part).2 h)
        · exact .inr (.inr (hlate part (by omega)))
      exact ⟨exec_stroke_range rfl hready hform hown (hrange .single le_rfl),
        exec_stroke_range rfl hready hform hown (hrange _ (Nat.le_add_right ..)),
        exec_stroke_range rfl hready hform hown (hrange _ le_rfl)⟩
    case badRoll =>
      refine exec_stroke_range rfl hready hform hown (.inr ?_)
      obtain h | h := h
      · exact .inl ((Bool.not_eq_true _).mp fun g => rollPart_inRange_iff.1 g h)
      · exact .inr (hlate _ h)
    case badPress =>
      exact exec_stroke_range rfl hready hform hown (.inr (.inl ((Bool.not_eq_true _).mp fun g => pressPart_inRange_iff.1 g h)))
    case full =>
      have hinside : ∀ part, ¬ AskOutside s (strokeAsk v b form due strength tag sustain part s) :=
        fun part g => h ((houtside part).1 g)
      exact ⟨exec_stroke_full rfl hready hform hown (hinside .single) rfl ((hticks _).2 hfits) hfull,
        fun hroll hlast => exec_stroke_full rfl hready hform hown (hinside _) (rollPart_inRange_iff.2 hroll)
          ((hticks _).2 hlast) hfull,
        fun hpress => exec_stroke_full rfl hready hform hown (hinside _) (pressPart_inRange_iff.2 hpress)
          ((hticks _).2 hfits) hfull⟩

end Sys2Proof.Machine
end

section
/-! SUPPORT. SEEK and LOAD (R111, R112). -/
namespace Sys2Proof.Machine

section
variable {w : When} {p : PortId} {s : State}

/-! ## The areas that a port may write -/

/-- A port may write the bytes from `first` to `last` in a voice's area. -/
def MayWrite (s : State) (p : PortId) (first last : Nat) (v : VoiceId) : Prop :=
  (v = chimeVoice ∨ s.owns p v = true) ∧ ∃ a, (s.voice v).area = some a ∧ a.first ≤ first ∧ last ≤ a.last

theorem State.areaFor_test_iff {first last : Nat} {v : VoiceId} : ((v = chimeVoice || s.owns p v) &&
    (match (s.voice v).area with | some a => a.holds first last | none => false)) = true ↔ MayWrite s p first last v := by
  rw [Bool.and_eq_true, MayWrite, Bool.or_eq_true, decide_eq_true_eq]
  refine and_congr_right fun _ => ?_
  cases (s.voice v).area <;> simp [Area.holds]

theorem State.areaFor_some {first last : Nat} {v : VoiceId} (h : s.areaFor p first last = some v) : MayWrite s p first last v := by
  have htest := List.find?_some (show List.find? _ _ = some v from h)
  exact State.areaFor_test_iff.1 htest

theorem State.areaFor_none {first last : Nat} (h : s.areaFor p first last = none) (v : VoiceId) : ¬ MayWrite s p first last v :=
  fun hmay => List.find?_eq_none.1 h v (List.mem_finRange v) (State.areaFor_test_iff.2 hmay)

/-! ## SEEK -/

theorem seekResult_range {address : Half} (h : 32767 < address.toNat) : seekResult p address s = refuse .range s := if_pos h

theorem seekResult_ok {address : Half} (h : address.toNat ≤ 32767) : seekResult p address s =
    (s.modPort p (fun q => { q with loadPointer := address.toNat }), .ok, halfBytes address) := by
  rw [seekResult, if_neg (Nat.not_lt.2 h), b2, BitVec.ofNat_toNat, BitVec.setWidth_eq]

/-! ## LOAD -/

/-- The load pointer after a LOAD, 0 past the end of the memory. -/
def pointerAfter (a n : Nat) : Nat := if 32767 < a + n then 0 else a + n

theorem loadResult_allowed {data : List Byte} (h : dataAllowed data = true) : loadResult p data s =
    match s.areaFor p (s.port p).loadPointer ((s.port p).loadPointer + data.length - 1) with
    | none => refuse .owner s
    | some v => if (s.player v).state ≠ .idle then refuse .busy s
      else (s.loadBytes p data, .ok, b2 ((s.loadBytes p data).port p).loadPointer) := by
  unfold loadResult
  exact if_neg (by simp [h])

theorem loadResult_owner {data : List Byte} (h : dataAllowed data = true)
    (harea : s.areaFor p (s.port p).loadPointer ((s.port p).loadPointer + data.length - 1) = none) :
    loadResult p data s = refuse .owner s := by
  rw [loadResult_allowed h, harea]

theorem loadResult_busy {data : List Byte} {v : VoiceId} (h : dataAllowed data = true)
    (harea : s.areaFor p (s.port p).loadPointer ((s.port p).loadPointer + data.length - 1) = some v)
    (hbusy : (s.player v).state ≠ .idle) : loadResult p data s = refuse .busy s := by
  rw [loadResult_allowed h, harea]
  exact if_pos hbusy

theorem loadResult_ok {data : List Byte} {v : VoiceId} (h : dataAllowed data = true)
    (harea : s.areaFor p (s.port p).loadPointer ((s.port p).loadPointer + data.length - 1) = some v)
    (hidle : (s.player v).state = .idle) : loadResult p data s =
      (({ s with mem := memWriteAll s.mem (s.port p).loadPointer data } : State).modPort p
        (fun q => { q with loadPointer := pointerAfter (s.port p).loadPointer data.length }), .ok,
        b2 (pointerAfter (s.port p).loadPointer data.length)) := by
  rw [loadResult_allowed h, harea]
  refine (if_neg (fun g => g hidle)).trans ?_
  rw [State.loadBytes, State.modPort_port, if_pos rfl]
  rfl

/-- A read after bytes were written at `a`: theirs within, and as before elsewhere. -/
theorem memRead_written {m : List Host.Cell} {data : List Byte} (a x : Nat) (h : memWf m = true) :
    memRead (memWriteAll m a data) x = if a ≤ x ∧ x < a + data.length then data.getD (x - a) 0#8 else memRead m x := by
  rw [memRead_memWriteAll a x data h]
  by_cases hlow : a ≤ x
  · rw [if_pos hlow]
    by_cases hhigh : x < a + data.length
    · have hindex : x - a < data.length := by omega
      simp [hlow, hhigh, hindex]
    · have hindex : data.length ≤ x - a := by omega
      simp [hhigh, hindex]
  · rw [if_neg hlow, if_neg (fun h => hlow h.1)]

theorem exec_load {data : List Byte} (h : dataAllowed data = true) :
    exec (.load w p data) s = .next (request w p 0x31#8 (loadResult p data) s) := exec_of_request h rfl rfl rfl

end

/-- Settles O25, SEEK by its range and LOAD by the area found. -/
theorem seekAndLoadTakeEffect : Obligations.SeekAndLoadTakeEffect := by
  refine ⟨fun w p s hready => ⟨fun address h => ?seek, fun address h => exec_refused rfl hready (seekResult_range h),
    fun data hsound hdata => ?load⟩, fun s p first last => ⟨fun v => State.areaFor_some, State.areaFor_none⟩⟩
  case seek =>
    refine exec_answers (u := { s with ports := _ }) rfl hready ((seekResult_ok h).trans ?_)
    rw [State.taken_modPort _ _ _ (fun _ _ => rfl)]
    rfl
  case load =>
    intro a next
    have hpointer : ((s.taken w p).port p).loadPointer = a := by
      rw [State.taken_port]
      rfl
    refine ⟨fun v harea => ⟨fun hbusy => ?_, fun hidle => ?_⟩, fun harea => ?_⟩
    · exact exec_refused (exec_load hdata) hready (loadResult_busy (s := s.taken w p) hdata (hpointer.symm ▸ harea) hbusy)
    · refine ⟨memWriteAll s.mem a data, ?_, fun x => ?_⟩
      · refine exec_answers (u := { s with mem := memWriteAll s.mem a data, ports := _ }) (exec_load hdata) hready
          ((loadResult_ok (s := s.taken w p) hdata (hpointer.symm ▸ harea) hidle).trans ?_)
        rw [hpointer]
        show ((({ s with mem := memWriteAll s.mem a data } : State).taken w p).modPort p _, _) = _
        rw [State.taken_modPort _ _ _ (fun _ _ => rfl)]
        rfl
      · exact memRead_written a x hsound
    · exact exec_refused (exec_load hdata) hready (loadResult_owner (s := s.taken w p) hdata (hpointer.symm ▸ harea))

end Sys2Proof.Machine
end

section
/-! SUPPORT. How a phrase player reads and takes its steps (R115, R118 to R124), one lemma for each thing that its next step may be. -/
namespace Sys2Proof.Machine

/-! ## A player replaced -/

/-- The state with one player replaced. -/
def State.setPlayer (v : VoiceId) (x : Player) (s : State) : State := { s with players := s.players.put v x }

section
variable (s : State) (v : VoiceId) (x : Player)

@[simp] theorem State.setPlayer_now : (s.setPlayer v x).now = s.now := rfl
@[simp] theorem State.setPlayer_timeline : (s.setPlayer v x).timeline = s.timeline := rfl
@[simp] theorem State.setPlayer_mem : (s.setPlayer v x).mem = s.mem := rfl
@[simp] theorem State.setPlayer_entries : (s.setPlayer v x).entries = s.entries := rfl
@[simp] theorem State.setPlayer_decisions : (s.setPlayer v x).decisions = s.decisions := rfl
@[simp] theorem State.setPlayer_voice (u : VoiceId) : (s.setPlayer v x).voice u = s.voice u := rfl
@[simp] theorem State.setPlayer_reportPort (u : VoiceId) : (s.setPlayer v x).reportPort u = s.reportPort u := rfl

@[simp] theorem State.setPlayer_player : (s.setPlayer v x).player v = x := Bank.look_put_same ..

theorem State.setPlayer_player_ne {u : VoiceId} (h : u ≠ v) : (s.setPlayer v x).player u = s.player u := Bank.look_put_ne _ h _

@[simp] theorem State.setPlayer_setPlayer (y : Player) : (s.setPlayer v x).setPlayer v y = s.setPlayer v y := by
  simp [State.setPlayer]

@[simp] theorem State.setPlayer_self : s.setPlayer v (s.player v) = s := by
  simp [State.setPlayer, State.player]

theorem State.modPlayer_eq (f : Player → Player) : s.modPlayer v f = s.setPlayer v (f (s.player v)) := rfl

@[simp] theorem State.modPlayer_setPlayer (f : Player → Player) : (s.setPlayer v x).modPlayer v f = s.setPlayer v (f x) := by
  rw [State.modPlayer_eq, State.setPlayer_player, State.setPlayer_setPlayer]

theorem State.setPlayer_taken (w : When) (p : PortId) : (s.taken w p).setPlayer v x = (s.setPlayer v x).taken w p := rfl

end

/-! ## What a player reads next (R119, R122, R124) -/

section
variable {s : State} {v : VoiceId} {a : Area}

theorem State.nextStep_phrase (harea : (s.voice v).area = some a) (hmode : (s.player v).mode ≠ .stream)
    (hin : (s.player v).nextAddress + 7 ≤ a.last) : s.nextStep v = some (decodeStep s.mem (s.player v).nextAddress) := by
  unfold State.nextStep
  rw [harea]
  dsimp only
  cases h : (s.player v).mode with
  | stream => exact absurd h hmode
  | once => exact if_pos hin
  | loop => exact if_pos hin

/-- An address past the area is read as END. -/
theorem State.nextStep_past (harea : (s.voice v).area = some a) (hmode : (s.player v).mode ≠ .stream)
    (hpast : a.last < (s.player v).nextAddress + 7) : s.nextStep v = some { delta := 0, body := .ended } := by
  unfold State.nextStep
  rw [harea]
  dsimp only
  cases h : (s.player v).mode with
  | stream => exact absurd h hmode
  | once => exact if_neg (Nat.not_le.2 hpast)
  | loop => exact if_neg (Nat.not_le.2 hpast)

theorem State.nextStep_empty (harea : (s.voice v).area = some a) (hmode : (s.player v).mode = .stream) (hempty : a.retained = 0) :
    s.nextStep v = none := by
  unfold State.nextStep
  rw [harea]
  dsimp only
  rw [hmode]
  exact if_pos hempty

theorem State.nextStep_stream (harea : (s.voice v).area = some a) (hmode : (s.player v).mode = .stream) (hsome : a.retained ≠ 0) :
    s.nextStep v = some (decodeStep s.mem a.read) := by
  unfold State.nextStep
  rw [harea]
  dsimp only
  rw [hmode]
  exact if_neg hsome

theorem State.stepAddress_phrase (hmode : (s.player v).mode ≠ .stream) : s.stepAddress v = (s.player v).nextAddress := by
  unfold State.stepAddress
  cases h : (s.player v).mode with
  | stream => exact absurd h hmode
  | once => rfl
  | loop => rfl

end

/-! ## Taking steps, by what the next one is -/

section
variable {s : State} {v : VoiceId} {o : Interleaving} {p : PortId} {n : Nat}

theorem State.takeStepsUpTo_idle (h : (s.player v).state ≠ .running) : State.takeStepsUpTo o v p n s = s := by
  cases n with
  | zero => rfl
  | succ n => exact if_pos h

theorem State.takeStepsUpTo_starves (h : (s.player v).state = .running) (hstep : s.nextStep v = none) :
    State.takeStepsUpTo o v p (n + 1) s = s.setPlayer v { s.player v with state := .starved, nextDue := none } := by
  rw [State.takeStepsUpTo, if_neg (fun g => g h), hstep]
  rfl

variable {x : Step}

theorem State.takeStepsUpTo_range (h : (s.player v).state = .running) (hstep : s.nextStep v = some x)
    (hdue : maxTick < (s.player v).previousDue + x.delta) :
    State.takeStepsUpTo o v p (n + 1) s = s.endPhrase v .range := by
  rw [State.takeStepsUpTo, if_neg (fun g => g h), hstep]
  exact if_pos hdue

theorem State.takeStepsUpTo_waits (h : (s.player v).state = .running) (hstep : s.nextStep v = some x)
    (hdue : (s.player v).previousDue + x.delta ≤ maxTick)
    (hfar : s.timeline.position + (s.player v).horizon < (s.player v).previousDue + x.delta) :
    State.takeStepsUpTo o v p (n + 1) s =
      s.setPlayer v { s.player v with nextDue := some ((s.player v).previousDue + x.delta) } := by
  rw [State.takeStepsUpTo, if_neg (fun g => g h), hstep]
  exact (if_neg (Nat.not_lt.2 hdue)).trans (if_pos hfar)

theorem State.takeStepsUpTo_acts (h : (s.player v).state = .running) (hstep : s.nextStep v = some x)
    (hdue : (s.player v).previousDue + x.delta ≤ maxTick)
    (hnear : (s.player v).previousDue + x.delta ≤ s.timeline.position + (s.player v).horizon) :
    State.takeStepsUpTo o v p (n + 1) s = State.takeStepsUpTo o v p n
      (s.actOnStep o v p ((s.player v).previousDue + x.delta) (s.stepAddress v) x.body) := by
  rw [State.takeStepsUpTo, if_neg (fun g => g h), hstep]
  exact (if_neg (Nat.not_lt.2 hdue)).trans (if_neg (Nat.not_lt.2 hnear))

theorem State.takeSteps_stopped (h : s.timeline.state = .stopped) : s.takeSteps o v = s := if_pos h

/-- The bound leaves room for two steps and more. -/
theorem State.takeSteps_moving (h : s.timeline.state ≠ .stopped) (hport : s.reportPort v = some p) :
    ∃ n, s.takeSteps o v = State.takeStepsUpTo o v p (n + 2) s := by
  refine ⟨(s.timeline.position + (s.player v).horizon + 2) * 4098 - 2, ?_⟩
  unfold State.takeSteps
  rw [if_neg h, hport, Nat.sub_add_cancel (by omega)]

/-! ## The ARMED test and a start (R117, R118) -/

theorem State.armedTest_waits (h : s.timeline.state = .stopped ∨
    s.timeline.position + (s.player v).horizon < (s.player v).start) : s.armedTest o v = s := by
  refine if_neg ?_
  simp only [Bool.and_eq_true, decide_eq_true_eq]
  rintro ⟨⟨hmoving, -⟩, hsoon⟩
  obtain h | h := h
  · exact hmoving h
  · omega

theorem State.armedTest_runs (hmoving : s.timeline.state ≠ .stopped) (harmed : (s.player v).state = .armed)
    (hsoon : (s.player v).start ≤ s.timeline.position + (s.player v).horizon) :
    s.armedTest o v = (s.setPlayer v { s.player v with state := .running }).takeSteps o v :=
  if_pos (by simp [hmoving, harmed, hsoon])

end

/-! ## A step taken, and the end of a phrase (R115, R122, R124, R128) -/

section
variable {s : State} {v : VoiceId} {a : Area}

theorem State.stepTaken_phrase (hmode : (s.player v).mode ≠ .stream) (due : Nat) : s.stepTaken v due =
    s.setPlayer v { s.player v with
      previousDue := due, nextDue := none, nextAddress := (s.player v).nextAddress + 8 } := by
  unfold State.stepTaken
  dsimp only
  split
  · next h => exact absurd h hmode
  · rfl

theorem State.stepTaken_stream (hmode : (s.player v).mode = .stream) (due : Nat) : s.stepTaken v due =
    (s.setPlayer v { s.player v with previousDue := due, nextDue := none }).modVoice v (fun x =>
      { x with area := x.area.map Area.taken }) := by
  unfold State.stepTaken
  dsimp only
  split
  · rfl
  · next h => exact absurd hmode h

/-- A player whose phrase has ended. -/
def Player.ended (why : EndReason) (x : Player) : Player :=
  { x with state := .idle, endReason := why, nextDue := none, told := false }

theorem State.endPhrase_reporting {p : PortId} (h : s.reportPort v = some p) (why : EndReason) :
    s.endPhrase v why = (s.setPlayer v ((s.player v).ended why)).raise .phraseEnd p := by
  have hport : (s.setPlayer v ((s.player v).ended why)).reportPort v = some p := h
  show (match (s.setPlayer v ((s.player v).ended why)).reportPort v with
    | some p => (s.setPlayer v ((s.player v).ended why)).raise .phraseEnd p
    | none => s.setPlayer v ((s.player v).ended why)) = _
  rw [hport]

theorem State.endPhrase_state (why : EndReason) : ((s.endPhrase v why).player v).state = .idle := by
  rw [State.endPhrase_eq, State.player, Bank.look_put_same]

theorem State.phraseEnd_once (hmode : (s.player v).mode ≠ .loop) (due : Nat) : s.phraseEnd v due = s.endPhrase v .ended := by
  unfold State.phraseEnd
  split
  · next h => exact absurd h hmode
  · rfl

end

/-! ## Running players, by what they read first -/

section
variable {s : State} {v : VoiceId} {o : Interleaving} {p : PortId} {x : Step} (hmoving : s.timeline.state ≠ .stopped)
  (hport : s.reportPort v = some p) (hrunning : (s.player v).state = .running)
include hmoving hport hrunning

theorem State.takeSteps_starves (hstep : s.nextStep v = none) :
    s.takeSteps o v = s.setPlayer v { s.player v with state := .starved, nextDue := none } := by
  obtain ⟨n, h⟩ := State.takeSteps_moving (o := o) hmoving hport
  rw [h, State.takeStepsUpTo_starves hrunning hstep]

theorem State.takeSteps_range (hstep : s.nextStep v = some x) (hdue : maxTick < (s.player v).previousDue + x.delta) :
    s.takeSteps o v = s.endPhrase v .range := by
  obtain ⟨n, h⟩ := State.takeSteps_moving (o := o) hmoving hport
  rw [h, State.takeStepsUpTo_range hrunning hstep hdue]

theorem State.takeSteps_waits (hstep : s.nextStep v = some x) {due : Nat} (hdue : due = (s.player v).previousDue + x.delta)
    (hmax : due ≤ maxTick) (hfar : s.timeline.position + (s.player v).horizon < due) :
    s.takeSteps o v = s.setPlayer v { s.player v with nextDue := some due } := by
  subst hdue
  obtain ⟨n, h⟩ := State.takeSteps_moving (o := o) hmoving hport
  rw [h, State.takeStepsUpTo_waits hrunning hstep hmax hfar]

/-- A step acted on that leaves the player in another state than RUNNING is the last one taken. -/
theorem State.takeSteps_acts_halts (hstep : s.nextStep v = some x) {due : Nat} (hdue : due = (s.player v).previousDue + x.delta)
    (hmax : due ≤ maxTick) (hnear : due ≤ s.timeline.position + (s.player v).horizon) {t : State}
    (hact : s.actOnStep o v p due (s.stepAddress v) x.body = t) (hhalts : (t.player v).state ≠ .running) :
    s.takeSteps o v = t := by
  subst hdue hact
  obtain ⟨n, h⟩ := State.takeSteps_moving (o := o) hmoving hport
  rw [h, State.takeStepsUpTo_acts hrunning hstep hmax hnear, State.takeStepsUpTo_idle hhalts]

/-- A step acted on, after which the player computes the next one and waits. -/
theorem State.takeSteps_acts_waits (hstep : s.nextStep v = some x) {due : Nat} (hdue : due = (s.player v).previousDue + x.delta)
    (hmax : due ≤ maxTick) (hnear : due ≤ s.timeline.position + (s.player v).horizon) {t : State}
    (hact : s.actOnStep o v p due (s.stepAddress v) x.body = t) (ht : (t.player v).state = .running) {y : Step}
    (hnext : t.nextStep v = some y) {later : Nat} (hlater : later = (t.player v).previousDue + y.delta)
    (hlaterMax : later ≤ maxTick) (hfar : t.timeline.position + (t.player v).horizon < later) :
    s.takeSteps o v = t.setPlayer v { t.player v with nextDue := some later } := by
  subst hdue hact hlater
  obtain ⟨n, h⟩ := State.takeSteps_moving (o := o) hmoving hport
  rw [h, State.takeStepsUpTo_acts hrunning hstep hmax hnear, State.takeStepsUpTo_waits ht hnext hlaterMax hfar]

/-- A step acted on, after which a stream is empty. -/
theorem State.takeSteps_acts_starves (hstep : s.nextStep v = some x) {due : Nat} (hdue : due = (s.player v).previousDue + x.delta)
    (hmax : due ≤ maxTick) (hnear : due ≤ s.timeline.position + (s.player v).horizon) {t : State}
    (hact : s.actOnStep o v p due (s.stepAddress v) x.body = t) (ht : (t.player v).state = .running)
    (hnext : t.nextStep v = none) :
    s.takeSteps o v = t.setPlayer v { t.player v with state := .starved, nextDue := none } := by
  subst hdue hact
  obtain ⟨n, h⟩ := State.takeSteps_moving (o := o) hmoving hport
  rw [h, State.takeStepsUpTo_acts hrunning hstep hmax hnear, State.takeStepsUpTo_starves ht hnext]

end

end Sys2Proof.Machine
end

section
/-! SUPPORT. Starting and halting a player (R117, R118, R126, R129). -/
namespace Sys2Proof.Machine

theorem State.setPlayer_endPhrase {s : State} {v : VoiceId} {p : PortId} {y : Player} (hport : s.reportPort v = some p)
    (why : EndReason) : (s.setPlayer v y).endPhrase v why = (s.setPlayer v (y.ended why)).raise .phraseEnd p := by
  rw [State.endPhrase_reporting (s := s.setPlayer v y) hport, State.setPlayer_player, State.setPlayer_setPlayer]

/-! ## A player that has just been set running, by what it reads first -/

section
variable {s : State} {v : VoiceId} {o : Interleaving} {p : PortId} {y : Player} {a : Area} (hmoving : s.timeline.state ≠ .stopped)
  (hport : s.reportPort v = some p) (hrunning : y.state = .running) (harea : (s.voice v).area = some a)
include hmoving hport hrunning harea

theorem State.setPlayer_waits_phrase (hmode : y.mode ≠ .stream) (hin : y.nextAddress + 7 ≤ a.last) {due : Nat}
    (hdue : due = y.previousDue + (decodeStep s.mem y.nextAddress).delta) (hmax : due ≤ maxTick)
    (hfar : s.timeline.position + y.horizon < due) :
    (s.setPlayer v y).takeSteps o v = s.setPlayer v { y with nextDue := some due } := by
  have hplayer := s.setPlayer_player v y
  have hstep : (s.setPlayer v y).nextStep v = some (decodeStep s.mem y.nextAddress) := by
    rw [State.nextStep_phrase (s := s.setPlayer v y) harea (by rwa [hplayer]) (by rwa [hplayer]), hplayer]
    rfl
  rw [State.takeSteps_waits (s := s.setPlayer v y) (due := due) hmoving hport (by rwa [hplayer]) hstep (by rwa [hplayer]) hmax (by rwa [hplayer]), hplayer,
    State.setPlayer_setPlayer]

theorem State.setPlayer_waits_stream (hmode : y.mode = .stream) (hsome : a.retained ≠ 0) {due : Nat}
    (hdue : due = y.previousDue + (decodeStep s.mem a.read).delta) (hmax : due ≤ maxTick)
    (hfar : s.timeline.position + y.horizon < due) :
    (s.setPlayer v y).takeSteps o v = s.setPlayer v { y with nextDue := some due } := by
  have hplayer := s.setPlayer_player v y
  have hstep : (s.setPlayer v y).nextStep v = some (decodeStep s.mem a.read) :=
    State.nextStep_stream (s := s.setPlayer v y) harea (by rwa [hplayer]) hsome
  rw [State.takeSteps_waits (s := s.setPlayer v y) (due := due) hmoving hport (by rwa [hplayer]) hstep (by rwa [hplayer]) hmax (by rwa [hplayer]), hplayer,
    State.setPlayer_setPlayer]

theorem State.setPlayer_starves (hmode : y.mode = .stream) (hempty : a.retained = 0) :
    (s.setPlayer v y).takeSteps o v = s.setPlayer v { y with state := .starved, nextDue := none } := by
  have hplayer := s.setPlayer_player v y
  have hstep : (s.setPlayer v y).nextStep v = none := State.nextStep_empty (s := s.setPlayer v y) harea (by rwa [hplayer]) hempty
  rw [State.takeSteps_starves (s := s.setPlayer v y) hmoving hport (by rwa [hplayer]) hstep, hplayer, State.setPlayer_setPlayer]

/-- END ends a phrase that does not loop (R122). -/
theorem State.setPlayer_ends_once (hmode : y.mode = .once) (hin : y.nextAddress + 7 ≤ a.last)
    (hbody : (decodeStep s.mem y.nextAddress).body = .ended) {due : Nat}
    (hdue : due = y.previousDue + (decodeStep s.mem y.nextAddress).delta) (hmax : due ≤ maxTick)
    (hnear : due ≤ s.timeline.position + y.horizon) :
    (s.setPlayer v y).takeSteps o v = (s.setPlayer v
      ({ y with previousDue := due, nextDue := none, nextAddress := y.nextAddress + 8 }.ended .ended)).raise .phraseEnd p := by
  have hplayer := s.setPlayer_player v y
  have hphrase : y.mode ≠ .stream := by rw [hmode]; nofun
  have hstep : (s.setPlayer v y).nextStep v = some (decodeStep s.mem y.nextAddress) := by
    rw [State.nextStep_phrase (s := s.setPlayer v y) harea (by rwa [hplayer]) (by rwa [hplayer]), hplayer]
    rfl
  have htaken : (s.setPlayer v y).stepTaken v due =
      s.setPlayer v { y with previousDue := due, nextDue := none, nextAddress := y.nextAddress + 8 } := by
    rw [State.stepTaken_phrase (by rwa [hplayer]), hplayer, State.setPlayer_setPlayer]
  refine State.takeSteps_acts_halts (s := s.setPlayer v y) (due := due) hmoving hport (by rwa [hplayer]) hstep (by rwa [hplayer]) hmax (by rwa [hplayer])
    ?_ ?_
  · rw [hbody]
    show ((s.setPlayer v y).stepTaken v due).phraseEnd v due = _
    rw [htaken, State.phraseEnd_once (by rw [State.setPlayer_player, hmode]; nofun), State.setPlayer_endPhrase hport]
  · show ((s.setPlayer v _).player v).state ≠ _
    rw [State.setPlayer_player]
    nofun

end

/-! ## A start (R117) -/

/-- A player that CUE or CHIME has armed. -/
def Player.cued (mode : PlayerMode) (loops start horizon address : Nat) (q : Player) : Player := { q with
  state := .armed
  mode := mode
  loops := loops
  passes := 0
  start := start
  horizon := horizon
  startAddress := if mode = .stream then q.startAddress else address
  nextAddress := if mode = .stream then q.nextAddress else address
  returnPoint := none
  passDue := start
  previousDue := start
  refused := 0
  endReason := .none
  nextDue := none
  told := false }

section
variable {s : State} {v : VoiceId} {o : Interleaving} {mode : PlayerMode} {loops start horizon address : Nat}

theorem State.startPlayer_eq : s.startPlayer o v mode loops start horizon address =
    (s.setPlayer v ((s.player v).cued mode loops start horizon address)).armedTest o v := rfl

theorem State.startPlayer_later (h : s.timeline.state = .stopped ∨ s.timeline.position + horizon < start) :
    s.startPlayer o v mode loops start horizon address =
      s.setPlayer v ((s.player v).cued mode loops start horizon address) := by
  refine State.armedTest_waits ?_
  rw [State.modPlayer_eq, State.setPlayer_player]
  exact h

theorem State.startPlayer_soon (hmoving : s.timeline.state ≠ .stopped) (hsoon : start ≤ s.timeline.position + horizon) :
    s.startPlayer o v mode loops start horizon address =
      (s.setPlayer v { (s.player v).cued mode loops start horizon address with state := .running }).takeSteps o v := by
  rw [State.startPlayer_eq, State.armedTest_runs (s := s.setPlayer v _) hmoving]
  · rw [State.setPlayer_player, State.setPlayer_setPlayer]
  · rw [State.setPlayer_player]
    rfl
  · rw [State.setPlayer_player]
    exact hsoon

end

/-! ## CUE (R117) -/

@[simp] theorem fieldMode_code (m : PlayerMode) : fieldMode (BitVec.ofNat 8 m.code) = some m := by
  cases m <;> rfl

theorem cueInRange_iff {start horizon : Nat} : cueInRange start horizon = true ↔
    240 ≤ horizon ∧ horizon ≤ 1920 ∧ start ≤ 4294967295 := by
  simp only [cueInRange, Bool.and_eq_true, decide_eq_true_eq, and_assoc]
  rfl

section
variable {s : State} {w : When} {o : Interleaving} {p : PortId} {v : VoiceId} {mode : PlayerMode} {loops : Byte} {nextBar : Bool}
  {start : Quad} {horizon : Half} {a : Area}

theorem cueResult_named : cueResult o p (BitVec.ofNat 8 v.1) (BitVec.ofNat 8 mode.code) loops (bitByte nextBar) start horizon s =
    if s.owns p v then
      (match (s.voice v).area with
      | none => refuse .state s
      | some area =>
        if !cueInRange (s.timeline.resolveStart nextBar start) (fieldHorizon horizon) then refuse .range s
        else if (s.player v).state ≠ .idle then refuse .busy s
        else ((s.startPlayer o v mode loops.toNat (s.timeline.resolveStart nextBar start) (fieldHorizon horizon) area.first).settle, .ok,
          b4 (s.timeline.resolveStart nextBar start) ++ b1 ((s.startPlayer o v mode loops.toNat
            (s.timeline.resolveStart nextBar start) (fieldHorizon horizon) area.first).settle.player v).state.code))
    else refuse .owner s := by
  unfold cueResult
  rw [fieldMode_code, fieldBool_bitByte]
  exact forVoice_ofNat _ v _ s

theorem cueResult_owner (h : s.owns p v = false) :
    cueResult o p (BitVec.ofNat 8 v.1) (BitVec.ofNat 8 mode.code) loops (bitByte nextBar) start horizon s = refuse .owner s := by
  rw [cueResult_named, h, if_neg Bool.false_ne_true]

theorem cueResult_state (h : s.owns p v = true) (harea : (s.voice v).area = none) :
    cueResult o p (BitVec.ofNat 8 v.1) (BitVec.ofNat 8 mode.code) loops (bitByte nextBar) start horizon s = refuse .state s := by
  rw [cueResult_named, if_pos h, harea]

theorem cueResult_range (h : s.owns p v = true) (harea : (s.voice v).area = some a)
    (hrange : ¬ cueInRange (s.timeline.resolveStart nextBar start) (fieldHorizon horizon) = true) :
    cueResult o p (BitVec.ofNat 8 v.1) (BitVec.ofNat 8 mode.code) loops (bitByte nextBar) start horizon s = refuse .range s := by
  rw [cueResult_named, if_pos h, harea]
  exact if_pos (by simpa using hrange)

theorem cueResult_busy (h : s.owns p v = true) (harea : (s.voice v).area = some a)
    (hrange : cueInRange (s.timeline.resolveStart nextBar start) (fieldHorizon horizon) = true)
    (hbusy : (s.player v).state ≠ .idle) :
    cueResult o p (BitVec.ofNat 8 v.1) (BitVec.ofNat 8 mode.code) loops (bitByte nextBar) start horizon s = refuse .busy s := by
  rw [cueResult_named, if_pos h, harea]
  exact (if_neg (by simp [hrange])).trans (if_pos hbusy)

theorem cueResult_ok {t : State} (h : s.owns p v = true) (harea : (s.voice v).area = some a)
    (hrange : cueInRange (s.timeline.resolveStart nextBar start) (fieldHorizon horizon) = true)
    (hidle : (s.player v).state = .idle)
    (hstart : s.startPlayer o v mode loops.toNat (s.timeline.resolveStart nextBar start) (fieldHorizon horizon) a.first = t)
    (hsettled : t.decisions = []) :
    cueResult o p (BitVec.ofNat 8 v.1) (BitVec.ofNat 8 mode.code) loops (bitByte nextBar) start horizon s =
      (t, .ok, b4 (s.timeline.resolveStart nextBar start) ++ b1 (t.player v).state.code) := by
  subst hstart
  rw [cueResult_named, if_pos h, harea]
  refine ((if_neg (by simp [hrange])).trans (if_neg (fun g => g hidle))).trans ?_
  rw [State.settle_of_nil hsettled]

/-- A CUE that leaves the state `u`. -/
theorem exec_cue_ok {u : State} (hready : s.ready p = true) (h : s.owns p v = true) (harea : (s.voice v).area = some a)
    (hrange : cueInRange (s.timeline.resolveStart nextBar start) (fieldHorizon horizon) = true)
    (hidle : (s.player v).state = .idle)
    (hstart : (s.taken w p).startPlayer w.order v mode loops.toNat (s.timeline.resolveStart nextBar start) (fieldHorizon horizon)
      a.first = u.taken w p) (hsettled : u.decisions = []) :
    exec (.cue w p (BitVec.ofNat 8 v.1) (BitVec.ofNat 8 mode.code) loops (bitByte nextBar) start horizon) s =
      .next (u.answering w p 0x34#8 .ok (b4 (s.timeline.resolveStart nextBar start) ++ b1 (u.player v).state.code)) :=
  exec_answers rfl hready (cueResult_ok (s := s.taken w p) h harea hrange hidle hstart hsettled)

/-! ## CHIME (R129) -/

theorem chimeResult_range {address : Half} (h : address.toNat % 8 ≠ 0 ∨ 4088 < address.toNat ∨
    ¬ cueInRange (s.timeline.resolveStart nextBar start) (fieldHorizon horizon) = true) :
    chimeResult o p address loops (bitByte nextBar) start horizon s = refuse .range s := by
  unfold chimeResult
  rw [fieldBool_bitByte]
  exact if_pos (by simpa [or_assoc] using h)

theorem chimeResult_inside {address : Half} (haligned : address.toNat % 8 = 0) (hlow : address.toNat ≤ 4088)
    (hrange : cueInRange (s.timeline.resolveStart nextBar start) (fieldHorizon horizon) = true) :
    chimeResult o p address loops (bitByte nextBar) start horizon s =
      if (s.player chimeVoice).state ≠ .idle then refuse .busy s
      else
        let t := ({ s with chimePort := some p }.startPlayer o chimeVoice .loop loops.toNat (s.timeline.resolveStart nextBar start)
          (fieldHorizon horizon) address.toNat).settle
        (t, .ok, b4 (s.timeline.resolveStart nextBar start) ++ b1 (t.player chimeVoice).state.code ++ oId t.chimePort) := by
  unfold chimeResult
  rw [fieldBool_bitByte]
  exact if_neg (by simp [haligned, hlow, hrange])

/-- A CHIME that leaves the state `u`. -/
theorem exec_chime_ok {address : Half} {u : State} (hready : s.ready p = true) (haligned : address.toNat % 8 = 0)
    (hlow : address.toNat ≤ 4088)
    (hrange : cueInRange (s.timeline.resolveStart nextBar start) (fieldHorizon horizon) = true)
    (hidle : (s.player chimeVoice).state = .idle)
    (hstart : ({ s.taken w p with chimePort := some p } : State).startPlayer w.order chimeVoice .loop loops.toNat
      (s.timeline.resolveStart nextBar start) (fieldHorizon horizon) address.toNat = u.taken w p) (hsettled : u.decisions = [])
    (hport : u.chimePort = some p) :
    exec (.chime w p address loops (bitByte nextBar) start horizon) s = .next (u.answering w p 0x35#8 .ok
      (b4 (s.timeline.resolveStart nextBar start) ++ b1 (u.player chimeVoice).state.code ++ b1 p.1)) := by
  refine exec_answers rfl hready ((chimeResult_inside (s := s.taken w p) haligned hlow hrange).trans
    ((if_neg (fun g => g hidle)).trans ?_))
  dsimp only
  rw [show ({ s.taken w p with chimePort := some p } : State).startPlayer w.order chimeVoice .loop loops.toNat
      ((s.taken w p).timeline.resolveStart nextBar start) (fieldHorizon horizon) address.toNat = u.taken w p from hstart,
    State.settle_of_nil (s := u.taken w p) hsettled]
  have hoId : oId (u.taken w p).chimePort = b1 p.1 := by
    show oId u.chimePort = _
    rw [hport]
    rfl
  rw [hoId]
  rfl

/-! ## HALT (R126) -/

theorem haltResult_owner (flush : Bool) (h : s.commands p v = false) :
    haltResult p (BitVec.ofNat 8 v.1) (bitByte flush) s = refuse .owner s := by
  unfold haltResult
  rw [fieldBool_bitByte]
  exact forVoice_other h

theorem haltResult_commanded (flush : Bool) (h : s.commands p v = true) :
    haltResult p (BitVec.ofNat 8 v.1) (bitByte flush) s =
      let x := if flush then (s.haltPlayer v).flushVoice v else (s.haltPlayer v, 0, 0)
      (x.1, .ok, b1 (s.player v).state.code ++ b1 x.2.1 ++ b1 x.2.2) := by
  unfold haltResult
  rw [fieldBool_bitByte]
  exact forVoice_held h

theorem haltResult_flushed (h : s.commands p v = true) : haltResult p (BitVec.ofNat 8 v.1) (bitByte true) s =
    (((s.haltPlayer v).flushVoice v).1, .ok, b1 (s.player v).state.code ++ b1 (s.entries.countP (Entry.flushable v)) ++
      b1 (s.entries.countP (Entry.markable v))) := by
  rw [haltResult_commanded true h, if_pos rfl, State.flushVoice_eq]
  rfl

/-- A halted player's flush leaves it halted. -/
theorem State.haltPlayer_flushed : ((s.haltPlayer v).flushVoice v).1.player v =
    { s.player v with state := .idle, nextDue := none, told := false } := by
  have hhalted : (s.haltPlayer v).player v = { s.player v with state := .idle, nextDue := none, told := false } :=
    Bank.look_put_same ..
  obtain h | ⟨hstalled, -⟩ := (s.haltPlayer v).flushVoice_player v v
  · rw [h, hhalted]
  · rw [hhalted] at hstalled
    cases hstalled

end

/-- Settles O27: the refusals, and a start by what the player reads first. -/
theorem playersStartAndHalt : Obligations.PlayersStartAndHalt := by
  intro w p s loops nextBar start horizon hready hdecisions reach tickInBar at_ inRange later soon beyond cued
  have hinRange : cueInRange (s.timeline.resolveStart nextBar start) (fieldHorizon horizon) = true ↔ inRange := cueInRange_iff
  refine ⟨fun v mode a hown harea hrange => ?cue, fun v mode => ?cueRefused, fun address h => ?chimeRange,
    fun address haligned hlow hrange => ?chime, fun v => ?halt⟩
  case cue =>
    intro command started x
    have hport : s.reportPort v = some p := by
      obtain ⟨hne, -, howner⟩ := State.owns_iff.1 hown
      rw [State.reportPort_eq, if_neg hne, howner]
    have hstarted : ∀ {u : State}, (s.player v).state = .idle →
        (s.taken w p).startPlayer w.order v mode loops.toNat at_ reach a.first = u.taken w p → u.decisions = [] →
        exec command s = .next (u.answering w p 0x34#8 .ok (b4 at_ ++ b1 (u.player v).state.code)) :=
      fun hidle hstart hsettled => exec_cue_ok hready hown harea (hinRange.2 hrange) hidle hstart hsettled
    have hplaced : ∀ y : Player, ((s.setPlayer v y).player v).state = y.state := fun y => by rw [State.setPlayer_player]
    refine ⟨fun hbusy => ?_, fun hidle hlater => ?_, fun hidle ⟨hmoving, hsoon⟩ => ⟨fun due hmode hin hdue hbeyond => ?_,
      fun hmode hempty => ?_, fun due hmode hsome hdue hbeyond => ?_, fun due hmode hin hbody hdue hmax hnear => ?_⟩⟩
    · exact exec_refused rfl hready (cueResult_busy (s := s.taken w p) hown harea (hinRange.2 hrange) hbusy)
    · exact (hstarted (u := s.setPlayer v x) hidle (State.startPlayer_later (s := s.taken w p) hlater) hdecisions).trans
        (by rw [hplaced]; rfl)
    · have hnext : x.nextAddress = a.first := if_neg hmode
      refine (hstarted (u := s.setPlayer v { x with state := .running, nextDue := some due }) hidle ?_ hdecisions).trans
        (by rw [hplaced]; rfl)
      exact (State.startPlayer_soon (s := s.taken w p) hmoving hsoon).trans (State.setPlayer_waits_phrase (s := s.taken w p)
        (y := { x with state := .running }) hmoving hport rfl harea hmode (by rwa [hnext]) (by rw [hnext]; exact hdue)
        hbeyond.1 hbeyond.2)
    · refine (hstarted (u := s.setPlayer v { x with state := .starved }) hidle ?_ hdecisions).trans (by rw [hplaced]; rfl)
      exact (State.startPlayer_soon (s := s.taken w p) hmoving hsoon).trans (State.setPlayer_starves (s := s.taken w p)
        (y := { x with state := .running }) hmoving hport rfl harea hmode hempty)
    · refine (hstarted (u := s.setPlayer v { x with state := .running, nextDue := some due }) hidle ?_ hdecisions).trans
        (by rw [hplaced]; rfl)
      exact (State.startPlayer_soon (s := s.taken w p) hmoving hsoon).trans (State.setPlayer_waits_stream (s := s.taken w p)
        (y := { x with state := .running }) hmoving hport rfl harea hmode hsome hdue hbeyond.1 hbeyond.2)
    · have hnext : x.nextAddress = a.first := if_neg (by rw [hmode]; nofun)
      have hends := State.setPlayer_ends_once (s := s.taken w p) (o := w.order) (y := { x with state := .running }) hmoving hport rfl
        harea hmode (by rwa [hnext]) (by rw [hnext]; exact hbody) (due := due) (by rw [hnext]; exact hdue) hmax hnear
      rw [← hnext]
      refine (hstarted (u := (s.setPlayer v { x with
        state := .idle, endReason := .ended, previousDue := due, nextAddress := x.nextAddress + 8 }).raise .phraseEnd p) hidle ?_
        hdecisions).trans ?_
      · exact ((State.startPlayer_soon (s := s.taken w p) hmoving hsoon).trans hends).trans
          (State.raise_taken w p (s.setPlayer v _) .phraseEnd p)
      · rw [show ((s.setPlayer v { x with
          state := .idle, endReason := .ended, previousDue := due, nextAddress := x.nextAddress + 8 }).raise .phraseEnd p).player v =
          _ from State.setPlayer_player ..]
        rfl
  case cueRefused =>
    refine ⟨fun h => exec_refused rfl hready (cueResult_owner (s := s.taken w p) h),
      fun h harea => exec_refused rfl hready (cueResult_state (s := s.taken w p) h harea), fun h harea hrange => ?_⟩
    obtain ⟨a, harea⟩ := Option.ne_none_iff_exists'.1 harea
    exact exec_refused rfl hready (cueResult_range (s := s.taken w p) h harea (fun g => hrange (hinRange.1 g)))
  case chimeRange =>
    rw [← hinRange] at h
    exact exec_refused rfl hready (chimeResult_range (s := s.taken w p) h)
  case chime =>
    intro command
    refine ⟨fun hbusy => exec_refused rfl hready ((chimeResult_inside (s := s.taken w p) haligned hlow (hinRange.2 hrange)).trans
      (if_pos hbusy)), ?_⟩
    intro x started
    have hstarted : ∀ y : Player, (s.player chimeVoice).state = .idle →
        ({ s.taken w p with chimePort := some p } : State).startPlayer w.order chimeVoice .loop loops.toNat at_ reach address.toNat =
          (State.setPlayer chimeVoice y { s with chimePort := some p }).taken w p →
        exec command s = .next ((State.setPlayer chimeVoice y { s with chimePort := some p }).answering w p 0x35#8 .ok
          (b4 at_ ++ b1 y.state.code ++ b1 p.1)) := fun y hidle hstart => by
      refine (exec_chime_ok hready haligned hlow (hinRange.2 hrange) hidle hstart hdecisions rfl).trans ?_
      rw [State.setPlayer_player]
      rfl
    refine ⟨fun hidle hlater => ?_, fun a due hidle ⟨hmoving, hsoon⟩ harea hin hdue hbeyond => ?_⟩
    · exact hstarted { x with state := .armed } hidle
        (State.startPlayer_later (s := { s.taken w p with chimePort := some p }) hlater)
    · refine hstarted { x with state := .running, nextDue := some due } hidle ?_
      exact (State.startPlayer_soon (s := { s.taken w p with chimePort := some p }) hmoving hsoon).trans
        (State.setPlayer_waits_phrase (s := { s.taken w p with chimePort := some p }) (y := { x with state := .running }) hmoving rfl
          rfl harea nofun hin hdue hbeyond.1 hbeyond.2)
  case halt =>
    intro halted
    refine ⟨fun h flush => exec_refused rfl hready (haltResult_owner (s := s.taken w p) flush h), fun h => ⟨?_, ?_⟩⟩
    · exact exec_answers (u := { s with players := _ }) rfl hready (haltResult_commanded (s := s.taken w p) false h)
    · intro flushed rolls marked t
      have hmarked : Entry.flushMarked v = marked := by
        rw [flushMarked_funext]
        funext e
        cases hpart : e.part <;> simp [marked, rolls, hpart, StrokePart.isRoll]
      have ht : ((s.haltPlayer v).flushVoice v).1 = t := by
        rw [State.flushVoice_eq, State.flushMarks, hmarked]
        rfl
      refine ⟨?_, fun hslots => ?_, ?_, ?_⟩
      · refine exec_answers (u := t) rfl hready ((haltResult_flushed (s := s.taken w p) h).trans ?_)
        rw [← ht]
        exact congrArg (fun x => (x.1, Status.ok, _)) ((s.haltPlayer v).flushVoice_taken v w p)
      · rw [← hmarked, ← ht]
        exact (s.haltPlayer v).flushVoice_entries v hslots
      · rw [← ht]
        exact State.haltPlayer_flushed
      · have hframe := (s.haltPlayer v).flushVoice_frame v
        rw [ht] at hframe
        exact hframe

end Sys2Proof.Machine
end

section
/-! SUPPORT. PUSH and CLEAR (R123, R125): the places of a ring, and what the requests do. -/
namespace Sys2Proof.Machine

/-! ## The places of a ring (R123) -/

/-- An area whose ring is a whole number of steps, its write position on one of them. -/
structure RingForm (a : Area) : Prop where
  low : a.first ≤ a.write
  high : a.write ≤ a.last
  size : (a.last + 1 - a.first) % 8 = 0
  aligned : (a.write - a.first) % 8 = 0

/-- The `i`-th step place from the write position on, past the last one on to the first. -/
def Area.place (a : Area) (i : Nat) : Nat := a.first + (a.write - a.first + 8 * i) % (a.last + 1 - a.first)

/-- An area with one more step written. -/
def Area.stepped (a : Area) : Area := { a with write := a.following a.write, retained := a.retained + 8 }

section
variable {a : Area} (h : RingForm a)
include h

theorem Area.place_eq {i : Nat} (hi : 8 * i ≤ a.last + 1 - a.first) : a.place i =
    if a.write + 8 * i ≤ a.last then a.write + 8 * i else a.write + 8 * i - (a.last + 1 - a.first) := by
  obtain ⟨hlow, hhigh, -, -⟩ := h
  unfold Area.place
  split
  · rw [Nat.mod_eq_of_lt (by omega)]
    omega
  · rw [Nat.mod_eq_sub_mod (by omega), Nat.mod_eq_of_lt (by omega)]
    omega

theorem Area.place_zero : a.place 0 = a.write := by
  rw [Area.place_eq h (Nat.zero_le _)]
  exact if_pos h.high

theorem Area.stepped_write : a.stepped.write = a.place 1 := by
  obtain ⟨hlow, hhigh, hsize, haligned⟩ := h
  rw [Area.place_eq ⟨hlow, hhigh, hsize, haligned⟩ (by omega)]
  show (if a.last < a.write + 15 then a.first else a.write + 8) = _
  split <;> split <;> omega

theorem RingForm.stepped : RingForm a.stepped := by
  obtain ⟨hlow, hhigh, hsize, haligned⟩ := h
  refine ⟨?_, ?_, hsize, ?_⟩
  all_goals unfold Area.stepped Area.following
  all_goals dsimp only
  all_goals split <;> omega

/-- The places after one step are those from the next place on. -/
theorem Area.stepped_place {i : Nat} : a.stepped.place i = a.place (i + 1) := by
  have hwrite := Area.stepped_write h
  unfold Area.place at *
  rw [hwrite]
  show a.first + (a.first + (a.write - a.first + 8 * 1) % (a.last + 1 - a.first) - a.first + 8 * i) % (a.last + 1 - a.first) = _
  rw [Nat.add_sub_cancel_left, Nat.mod_add_mod]
  congr 2
  omega

/-- Two different places of a ring do not share a byte. -/
theorem Area.write_apart_place {i : Nat} (hi : 8 * (i + 1) < a.last + 1 - a.first) :
    a.write + 8 ≤ a.place (i + 1) ∨ a.place (i + 1) + 8 ≤ a.write := by
  rw [Area.place_eq h (by omega)]
  obtain ⟨hlow, hhigh, hsize, haligned⟩ := h
  split <;> omega

end

/-! ## Steps pushed (R123) -/

section
variable {m : List Host.Cell} {a : Area}

theorem memBytes_ext {m : List Host.Cell} {b : Nat} {l : List Byte} (hlength : l.length = 8)
    (h : ∀ k < 8, memRead m (b + k) = l.getD k 0#8) : memBytes m b 8 = l := by
  refine List.ext_getElem (by simp [memBytes, hlength]) fun k hk hk' => ?_
  have hlt : k < 8 := by omega
  have hread := h k hlt
  rw [List.getD_eq_getElem _ _ hk'] at hread
  simpa [memBytes] using hread

/-- A list of a whole number of steps is empty or begins with one. -/
theorem whole_steps_cases {l : List Byte} (h : l.length % 8 = 0) :
    l = [] ∨ ∃ b0 b1 b2 b3 b4 b5 b6 b7 rest, l = b0 :: b1 :: b2 :: b3 :: b4 :: b5 :: b6 :: b7 :: rest ∧ rest.length % 8 = 0 := by
  match l, h with
  | [], _ => exact .inl rfl
  | [_], h | [_, _], h | [_, _, _], h | [_, _, _, _], h | [_, _, _, _, _], h | [_, _, _, _, _, _], h
  | [_, _, _, _, _, _, _], h => simp at h
  | b0 :: b1 :: b2 :: b3 :: b4 :: b5 :: b6 :: b7 :: rest, h =>
    exact .inr ⟨b0, b1, b2, b3, b4, b5, b6, b7, rest, rfl, by simp only [List.length_cons] at h; omega⟩

/-- What a push leaves of the area, whatever the ring: the read position, the bounds and the count. -/
theorem pushSteps_frame {l : List Byte} (hl : l.length % 8 = 0) : (pushSteps m a l).2 =
    { a with write := (pushSteps m a l).2.write, retained := a.retained + l.length } := by
  induction h : l.length using Nat.strong_induction_on generalizing m a l with
  | _ n ih =>
    obtain rfl | ⟨b0, b1, b2, b3, b4, b5, b6, b7, rest, rfl, hrest⟩ := whole_steps_cases hl
    · subst h
      rfl
    · subst h
      have hnext := @ih rest.length (by simp only [List.length_cons]; omega)
        (memWriteAll m a.write [b0, b1, b2, b3, b4, b5, b6, b7]) a.stepped rest hrest rfl
      show (pushSteps _ a.stepped rest).2 = _
      rw [hnext]
      show ({ a with write := _, retained := a.retained + 8 + rest.length } : Area) = _
      rw [Nat.add_assoc, Nat.add_comm 8]
      rfl

/-- Steps pushed to a ring with room: where they go, and what they leave. -/
structure Pushed (m : List Host.Cell) (a : Area) (l : List Byte) : Prop where
  write : (pushSteps m a l).2.write = a.place (l.length / 8)
  bytes : ∀ i, 8 * i < l.length → memBytes (pushSteps m a l).1 (a.place i) 8 = (l.drop (8 * i)).take 8
  other : ∀ x, (∀ i, 8 * i < l.length → x < a.place i ∨ a.place i + 8 ≤ x) → memRead (pushSteps m a l).1 x = memRead m x

theorem pushSteps_pushed {l : List Byte} (hm : memWf m = true) (hl : l.length % 8 = 0) (h : RingForm a)
    (hroom : l.length ≤ a.last + 1 - a.first) : Pushed m a l := by
  induction hlength : l.length using Nat.strong_induction_on generalizing m a l with
  | _ n ih =>
    obtain rfl | ⟨b0, b1, b2, b3, b4, b5, b6, b7, rest, rfl, hrest⟩ := whole_steps_cases hl
    · exact ⟨(Area.place_zero h).symm, nofun, fun _ _ => rfl⟩
    · let chunk := [b0, b1, b2, b3, b4, b5, b6, b7]
      have hlong : (b0 :: b1 :: b2 :: b3 :: b4 :: b5 :: b6 :: b7 :: rest).length = rest.length + 8 := rfl
      rw [hlong] at hroom hlength
      obtain ⟨hwrite, hbytes, hother⟩ := @ih rest.length (by omega) (memWriteAll m a.write chunk) a.stepped rest
        (memWf_memWriteAll _ _ hm) hrest h.stepped (show rest.length ≤ a.last + 1 - a.first by omega) rfl
      have hpush : pushSteps m a (b0 :: b1 :: b2 :: b3 :: b4 :: b5 :: b6 :: b7 :: rest) =
          pushSteps (memWriteAll m a.write chunk) a.stepped rest := rfl
      have hfirst : ∀ x, memRead (memWriteAll m a.write chunk) x =
          if a.write ≤ x ∧ x < a.write + 8 then chunk.getD (x - a.write) 0#8 else memRead m x := fun x => memRead_written _ x hm
      refine ⟨?_, fun i hi => ?_, fun x hx => ?_⟩
      · rw [hpush, hwrite, Area.stepped_place h, hlong, Nat.add_div_right _ (by decide)]
      · rw [hpush]
        rw [hlong] at hi
        cases i with
        | zero =>
          rw [Area.place_zero h]
          refine memBytes_ext rfl fun k hk => ?_
          rw [hother, hfirst, if_pos (by omega), Nat.add_sub_cancel_left]
          · rfl
          · intro i hi'
            rw [Area.stepped_place h]
            have hapart := Area.write_apart_place h (i := i) (by omega)
            omega
        | succ i =>
          rw [← Area.stepped_place h, hbytes i (by omega), Nat.mul_add]
          rfl
      · rw [hpush, hother, hfirst, if_neg]
        · have hzero := hx 0 (by rw [hlong]; omega)
          rw [Area.place_zero h] at hzero
          omega
        · intro i hi
          rw [Area.stepped_place h]
          exact hx (i + 1) (by rw [hlong]; omega)

end

/-! ## PUSH (R123) -/

theorem Player.streamBusy_iff {q : Player} : q.streamBusy = true ↔ q.state ≠ .idle ∧ q.mode ≠ .stream := by
  simp [Player.streamBusy]

/-- The state with the steps of a PUSH in the ring of a voice's area. -/
def State.withSteps (v : VoiceId) (a : Area) (steps : List Byte) (s : State) : State :=
  { s with
    mem := (pushSteps s.mem a steps).1
    voices := s.voices.put v { s.voice v with area := some (pushSteps s.mem a steps).2 } }

section
variable {s : State} {w : When} {o : Interleaving} {p : PortId} {v : VoiceId} {a : Area} {steps : List Byte}

theorem pushResult_owner (hsteps : stepsAllowed steps = true) (h : s.owns p v = false) :
    pushResult o p (BitVec.ofNat 8 v.1) steps s = refuse .owner s := by
  unfold pushResult
  exact (if_neg (by simp [hsteps])).trans (forVoice_other h)

theorem pushResult_area (hsteps : stepsAllowed steps = true) (h : s.owns p v = true) (harea : (s.voice v).area = some a) :
    pushResult o p (BitVec.ofNat 8 v.1) steps s =
      if (s.player v).streamBusy then refuse .busy s
      else if a.free < steps.length then refuse .full s
      else (s.pushed o v a steps, .ok, b2 ((s.pushed o v a steps).retained v) ++ (s.pushed o v a steps).ringReport v) := by
  unfold pushResult
  refine ((if_neg (by simp [hsteps])).trans (forVoice_held h)).trans ?_
  rw [harea]

theorem pushResult_state (hsteps : stepsAllowed steps = true) (h : s.owns p v = true) (harea : (s.voice v).area = none) :
    pushResult o p (BitVec.ofNat 8 v.1) steps s = refuse .state s := by
  unfold pushResult
  refine ((if_neg (by simp [hsteps])).trans (forVoice_held h)).trans ?_
  rw [harea]

theorem exec_push (hsteps : stepsAllowed steps = true) (voice : Byte) :
    exec (.push w p voice steps) s = .next (request w p 0x37#8 (pushResult w.order p voice steps) s) :=
  exec_of_request hsteps rfl rfl rfl

theorem State.withSteps_area : ((s.withSteps v a steps).voice v).area = some (pushSteps s.mem a steps).2 := by
  unfold State.withSteps State.voice
  dsimp only
  rw [Bank.look_put_same]

/-- What PUSH replies, once the player is known. -/
theorem State.withSteps_report (hsteps : stepsAllowed steps = true) (x : Player) :
    b2 (((s.withSteps v a steps).setPlayer v x).retained v) ++ ((s.withSteps v a steps).setPlayer v x).ringReport v =
      b2 (a.retained + steps.length) ++ b2 (a.last + 1 - a.first - (a.retained + steps.length)) ++ b1 x.state.code := by
  have hwhole : steps.length % 8 = 0 := by
    simp only [stepsAllowed, Bool.and_eq_true, beq_iff_eq] at hsteps
    exact hsteps.2
  unfold State.retained State.ringReport
  rw [State.setPlayer_voice, State.withSteps_area, pushSteps_frame hwhole, State.setPlayer_player, List.append_assoc]
  rfl

/-- A PUSH to the ring of a voice whose player is not STARVED. -/
theorem State.pushed_rests (h : (s.player v).state ≠ .starved) :
    s.pushed o v a steps = (s.withSteps v a steps).setPlayer v (s.player v) :=
  (if_neg h).trans (State.setPlayer_self (s := s.withSteps v a steps) v).symm

/-- A STARVED player told by a PUSH takes steps. -/
theorem State.pushed_starved {t : State} (h : (s.player v).state = .starved)
    (htaken : ((s.withSteps v a steps).setPlayer v { s.player v with state := .running, told := false }).takeSteps o v = t)
    (hsettled : t.decisions = []) : s.pushed o v a steps = t := by
  subst htaken
  exact (if_pos h).trans (State.settle_of_nil hsettled)

/-- A PUSH that leaves the player `x`. -/
theorem exec_push_ok {x : Player} (hready : s.ready p = true) (hsteps : stepsAllowed steps = true) (h : s.owns p v = true)
    (harea : (s.voice v).area = some a) (hfree : (s.player v).streamBusy = false) (hroom : steps.length ≤ a.free)
    (hpushed : (s.taken w p).pushed w.order v a steps = ((s.withSteps v a steps).setPlayer v x).taken w p) :
    exec (.push w p (BitVec.ofNat 8 v.1) steps) s = .next (((s.withSteps v a steps).setPlayer v x).answering w p 0x37#8 .ok
      (b2 (a.retained + steps.length) ++ b2 (a.last + 1 - a.first - (a.retained + steps.length)) ++ b1 x.state.code)) := by
  refine exec_answers (exec_push hsteps _) hready ((pushResult_area (s := s.taken w p) hsteps h harea).trans ?_)
  refine ((if_neg (Bool.eq_false_iff.1 hfree)).trans (if_neg (Nat.not_lt.2 hroom))).trans ?_
  rw [hpushed, ← State.withSteps_report (s := s) (v := v) (a := a) hsteps x]
  rfl

/-! ## CLEAR (R125) -/

theorem clearResult_area (h : s.owns p v = true) (harea : (s.voice v).area = some a) :
    clearResult p (BitVec.ofNat 8 v.1) s =
      if (s.player v).streamBusy then refuse .busy s else (s.clearRing v a, .ok, (s.clearRing v a).ringReport v) := by
  refine (forVoice_held h).trans ?_
  rw [harea]

theorem clearResult_state (h : s.owns p v = true) (harea : (s.voice v).area = none) :
    clearResult p (BitVec.ofNat 8 v.1) s = refuse .state s := by
  refine (forVoice_held h).trans ?_
  rw [harea]

end

/-- A player after CLEAR. -/
def Player.cleared (q : Player) : Player :=
  if q.state = PlayerState.running ∨ q.state = PlayerState.stalled then { q with state := .starved, nextDue := none, told := false } else q

theorem Player.cleared_code (q : Player) : q.cleared.state.code =
    if q.state = PlayerState.running ∨ q.state = PlayerState.stalled then 4 else q.state.code := by
  unfold Player.cleared
  split <;> rfl

theorem State.clearRing_eq (s : State) (v : VoiceId) (a : Area) : s.clearRing v a =
    ({ s with voices := s.voices.put v { s.voice v with area := some { a with read := a.first, write := a.first, retained := 0 } } } :
      State).setPlayer v (s.player v).cleared := by
  have hcleared : (s.player v).cleared = if (s.player v).state = .running || (s.player v).state = .stalled then
      { s.player v with state := .starved, nextDue := none, told := false } else s.player v := by
    unfold Player.cleared
    simp only [Bool.or_eq_true, decide_eq_true_eq]
  rw [hcleared]
  rfl

theorem State.clearRing_report (s : State) (v : VoiceId) (a : Area) : (s.clearRing v a).ringReport v =
    b2 (a.last + 1 - a.first) ++ b1 (if (s.player v).state = PlayerState.running ∨ (s.player v).state = PlayerState.stalled then 4
      else (s.player v).state.code) := by
  unfold State.ringReport
  rw [State.clearRing_eq, State.setPlayer_player, Player.cleared_code, State.setPlayer_voice, State.voice, Bank.look_put_same]
  rfl

/-- Settles O28: the refusals, the player by its state before, and the ring by its places. -/
theorem streamRequestsTakeEffect : Obligations.StreamRequestsTakeEffect := by
  refine ⟨fun w p s v steps hready hsteps => ⟨fun h => ⟨?_, ?_⟩, fun h harea => ⟨?_, ?_⟩, fun a h harea => ?area⟩,
    ?ring⟩
  · exact exec_refused (exec_push hsteps _) hready (pushResult_owner (s := s.taken w p) hsteps h)
  · exact exec_refused rfl hready (forVoice_other (s := s.taken w p) h)
  · exact exec_refused (exec_push hsteps _) hready (pushResult_state (s := s.taken w p) hsteps h harea)
  · exact exec_refused rfl hready (clearResult_state (s := s.taken w p) h harea)
  case area =>
    intro size pushed answered
    have hfree : ∀ {q : Player}, ¬ (q.state ≠ .idle ∧ q.mode ≠ .stream) → q.streamBusy = false :=
      fun hnot => Bool.eq_false_iff.2 fun hbusy => hnot (Player.streamBusy_iff.1 hbusy)
    refine ⟨fun hbusy => ⟨?_, ?_⟩, fun hnot hfull => ?_, fun hnot hroom => ⟨fun hrests => ?_,
      fun hstarved hdecisions => ⟨fun hstopped => ?_, fun due hmoving hdue hmax hfar => ?_⟩⟩, fun hnot => ?_⟩
    · exact exec_refused (exec_push hsteps _) hready ((pushResult_area (s := s.taken w p) hsteps h harea).trans
        (if_pos (Player.streamBusy_iff.2 hbusy)))
    · exact exec_refused rfl hready ((clearResult_area (s := s.taken w p) h harea).trans (if_pos (Player.streamBusy_iff.2 hbusy)))
    · exact exec_refused (exec_push hsteps _) hready ((pushResult_area (s := s.taken w p) hsteps h harea).trans
        ((if_neg (Bool.eq_false_iff.1 (hfree hnot))).trans (if_pos hfull)))
    · exact exec_push_ok hready hsteps h harea (hfree hnot) hroom (State.pushed_rests (s := s.taken w p) hrests)
    · exact exec_push_ok hready hsteps h harea (hfree hnot) hroom (State.pushed_starved (s := s.taken w p) hstarved
        (State.takeSteps_stopped hstopped) hdecisions)
    · have hport : ((s.taken w p).withSteps v a steps).reportPort v = some p := by
        obtain ⟨hne, -, howner⟩ := State.owns_iff.1 h
        rw [State.reportPort_eq, if_neg hne, ← howner]
        unfold State.withSteps State.voice
        dsimp only
        rw [Bank.look_put_same]
        rfl
      have hwhole : steps.length % 8 = 0 ∧ 1 ≤ steps.length := by
        simp only [stepsAllowed, Bool.and_eq_true, beq_iff_eq, decide_eq_true_eq] at hsteps
        exact ⟨hsteps.2, hsteps.1.1⟩
      have hframe := pushSteps_frame (m := s.mem) (a := a) hwhole.1
      have hstream : (s.player v).mode = .stream := not_not.1 fun hmode => hnot ⟨by rw [hstarved]; nofun, hmode⟩
      refine exec_push_ok hready hsteps h harea (hfree hnot) hroom (State.pushed_starved (s := s.taken w p) hstarved
        (State.setPlayer_waits_stream (s := (s.taken w p).withSteps v a steps)
          (y := { s.player v with state := .running, told := false }) (due := due) hmoving hport rfl State.withSteps_area hstream
          ?_ ?_ hmax hfar) hdecisions)
      · show (pushSteps s.mem a steps).2.retained ≠ 0
        rw [hframe]
        show a.retained + steps.length ≠ 0
        omega
      · show due = _ + (decodeStep (pushSteps s.mem a steps).1 (pushSteps s.mem a steps).2.read).delta
        rw [hframe]
        exact hdue
    · refine exec_answers (u := { s with voices := _, players := _ }) rfl hready ((clearResult_area (s := s.taken w p) h harea).trans
        ((if_neg (Bool.eq_false_iff.1 (hfree hnot))).trans ?_))
      rw [State.clearRing_report, State.clearRing_eq]
      rfl
  case ring =>
    intro m a steps hm hwhole size place hlow hhigh hsize haligned hroom
    obtain ⟨hwrite, hbytes, hother⟩ := pushSteps_pushed (l := steps) hm hwhole ⟨hlow, hhigh, hsize, haligned⟩ hroom
    refine ⟨?_, hbytes, hother⟩
    show (pushSteps m a steps).2 = _
    rw [pushSteps_frame hwhole, hwrite]
    rfl

end Sys2Proof.Machine
end

section
/-! SUPPORT. The press hold's segments and the outputs that follow the state (R55, R91, R93, R148, R20, R171). -/
namespace Sys2Proof.Machine

/-! ## The segments of a hold (R91) -/

theorem countP_or_of_disjoint {α : Type} {p q : α → Bool} {l : List α} (h : ∀ x ∈ l, p x = true → q x = false) :
    l.countP (fun x => p x || q x) = l.countP p + l.countP q := by
  induction l with
  | nil => rfl
  | cons x l ih =>
    have hx := h x (List.mem_cons_self ..)
    have hrest := ih fun y hy => h y (List.mem_cons_of_mem _ hy)
    cases hp : p x <;> cases hq : q x <;> simp_all <;> omega

theorem countP_and_const {α : Type} (b : Bool) (p : α → Bool) (l : List α) :
    l.countP (fun x => b && p x) = b.toNat * l.countP p := by
  cases b <;> simp

/-- The segments of a weight: one in every period that divides the 256. -/
theorem countP_segments {m k : Nat} (hk : k < m) (hm : 256 % m = 0) :
    (List.range 256).countP (fun i => i % m == k) = 256 / m := by
  have hcount := Nat.count_modEq_card (256) (r := m) (by omega) k
  rw [hm, if_neg (Nat.not_lt_zero _), Nat.add_zero] at hcount
  rw [← hcount, Nat.count]
  refine List.countP_congr fun i _ => ?_
  rw [beq_iff_eq, decide_eq_true_eq, Nat.ModEq, Nat.mod_eq_of_lt hk]

theorem countP_last_weight : (List.range 256).countP (fun i => i == 127) = 1 :=
  List.count_eq_one_of_mem List.nodup_range (List.mem_range.2 (by decide))

/-- As many of the 256 segments are on as the duty says. -/
theorem segmentOn_count {duty : Nat} (h : duty < 256) : ((List.range 256).filter (segmentOn duty)).length = duty := by
  have hdisjoint : ∀ {p q : Nat → Bool}, (∀ i, p i = true → q i = false) →
      (List.range 256).countP (fun i => p i || q i) = (List.range 256).countP p + (List.range 256).countP q :=
    fun h => countP_or_of_disjoint fun i _ => h i
  have hsum : (List.range 256).countP (segmentOn duty) = (duty.testBit 7).toNat * 128 + (duty.testBit 6).toNat * 64 +
      (duty.testBit 5).toNat * 32 + (duty.testBit 4).toNat * 16 + (duty.testBit 3).toNat * 8 + (duty.testBit 2).toNat * 4 +
      (duty.testBit 1).toNat * 2 + (duty.testBit 0).toNat * 1 := by
    unfold segmentOn
    repeat rw [hdisjoint]
    · simp only [countP_and_const, countP_last_weight]
      repeat rw [countP_segments (by decide) (by decide)]
    all_goals
      intro i hi
      simp only [Bool.or_eq_true, Bool.and_eq_true, beq_iff_eq] at hi
      rw [Bool.and_eq_false_iff, beq_eq_false_iff_ne]
      omega
  rw [← List.countP_eq_length_filter, hsum]
  simp only [Nat.toNat_testBit]
  omega

/-- The segments that the bit `7 − j` of the duty owns. -/
theorem segmentOn_owned {duty i j : Nat} (hi : i < 256) (hj : j < 8) (h : i % 2 ^ (j + 1) = 2 ^ j - 1) :
    segmentOn duty i = duty.testBit (7 - j) := by
  have hclear : ∀ {b : Bool} {m k : Nat}, i % m ≠ k → (b && i % m == k) = false := fun hne => by
    rw [Bool.and_eq_false_iff, beq_eq_false_iff_ne]
    exact .inr hne
  have hlast : ∀ {b : Bool}, (b && i == 127) = (b && i % 256 == 127) := by
    rw [Nat.mod_eq_of_lt hi]
    exact fun {_} => rfl
  unfold segmentOn
  rw [hlast]
  obtain rfl | rfl | rfl | rfl | rfl | rfl | rfl | rfl : j = 0 ∨ j = 1 ∨ j = 2 ∨ j = 3 ∨ j = 4 ∨ j = 5 ∨ j = 6 ∨ j = 7 := by omega
  all_goals
    norm_num at h
    simp (disch := omega) only [hclear, h, beq_self_eq_true, Bool.and_true, Bool.or_false, Bool.false_or, Nat.sub_zero,
      Nat.reduceSub]

/-- A number that does not end in `n` ones has its lowest zero among its `n` lowest bits. -/
theorem exists_owner_of_not_ones {i : Nat} : ∀ {n : Nat}, i % 2 ^ n ≠ 2 ^ n - 1 → ∃ j, j < n ∧ i % 2 ^ (j + 1) = 2 ^ j - 1
  | 0, h => absurd (Nat.mod_one i) h
  | n + 1, h => by
    by_cases hones : i % 2 ^ n = 2 ^ n - 1
    · refine ⟨n, Nat.lt_succ_self n, ?_⟩
      have hpos : 0 < 2 ^ n := Nat.two_pow_pos n
      rw [Nat.mod_pow_succ, hones] at h ⊢
      obtain hzero | hone : i / 2 ^ n % 2 = 0 ∨ i / 2 ^ n % 2 = 1 := by omega
      · rw [hzero, Nat.mul_zero, Nat.add_zero]
      · rw [hone, Nat.pow_succ] at h
        omega
    · obtain ⟨j, hj, howner⟩ := exists_owner_of_not_ones hones
      exact ⟨j, Nat.lt_succ_of_lt hj, howner⟩

theorem exists_owner_of_segment {i : Nat} (hi : i < 255) : ∃ j, j < 8 ∧ i % 2 ^ (j + 1) = 2 ^ j - 1 :=
  exists_owner_of_not_ones (by norm_num; omega)

theorem segmentOn_last (duty : Nat) : segmentOn duty 255 = false := by
  simp [segmentOn]

/-! ## The outputs -/

section
variable {s : State} {n : StrikerId} (hreset : s.power.inReset = false)
include hreset

theorem State.permission_iff : s.permission = true ↔ s.stage.stage = .playing := by
  simp [State.permission, hreset]

theorem State.gateOn_not_playing (h : s.stage.stage ≠ .playing) : s.gateOn n = false := by
  have hpermission : s.permission = false := Bool.eq_false_iff.2 fun g => h ((State.permission_iff hreset).1 g)
  simp [State.gateOn, hpermission]

theorem State.gateOn_drive (h : s.stage.stage = .playing) (hdrive : (s.striker n).state = .drive) : s.gateOn n = true := by
  simp [State.gateOn, (State.permission_iff hreset).2 h, hdrive]

omit hreset in
theorem State.gateOn_rests (h : (s.striker n).state = .idle ∨ (s.striker n).state = .recover ∨ (s.striker n).state = .locked) :
    s.gateOn n = false := by
  unfold State.gateOn
  dsimp only
  obtain h | h | h := h <;> rw [h, Bool.and_false]

theorem State.gateOn_hold {slot : SlotId} {e : Entry} {q : PressPart} {began : Nat} (h : s.stage.stage = .playing)
    (hhold : (s.striker n).state = .hold) (hplaying : (s.striker n).playing = some slot) (he : s.entryAt slot = some e)
    (hpart : e.part = .press q) (hend : (s.striker n).holdEnd = some (began + q.holdMs * 1000)) :
    s.gateOn n = segmentOn q.duty ((s.now - began) % 256) := by
  have hpress : s.pressPart (s.striker n).playing = some q := by
    unfold State.pressPart
    simp only [hplaying, Option.bind_some, he, hpart]
  unfold State.gateOn
  dsimp only
  simp only [hhold, hpress, hend, (State.permission_iff hreset).2 h, Bool.true_and, Nat.add_sub_cancel]

theorem State.railEnable_iff (r : RailId) : s.railEnable r = true ↔ (s.rail r).fitted = true ∧
    (s.stage.stage = .charging ∨ s.stage.stage = .standby ∨ s.stage.stage = .playing ∨ s.stage.stage = .guarded) := by
  simp [State.railEnable, hreset, or_assoc]

theorem State.alert_iff : s.alert = true ↔ s.stage.stage = .guarded ∨ s.stage.stage = .fault := by
  simp [State.alert, hreset]

theorem State.damperDrive_iff (u : UnitId) : s.damperDrive u = true ↔
    (s.damper u).state = .lifting ∨ (s.damper u).state = .opened := by
  simp [State.damperDrive, hreset]

theorem State.syncOut_iff : s.syncOut = true ↔ ∃ t, s.timeline.syncOutEnd = some t := by
  simp [State.syncOut, hreset, Option.isSome_iff_exists]

end

theorem Port.noticeLine_iff {q : Port} : q.noticeLine = true ↔
    ∃ i, i < 8 ∧ q.pendingNotices.getLsbD i = true ∧ q.enables.getLsbD i = true := by
  have hzero : (q.pendingNotices &&& q.enables = 0#8) ↔ ∀ i, i < 8 → (q.pendingNotices &&& q.enables).getLsbD i = false := by
    refine ⟨fun h i hi => by rw [h, BitVec.getLsbD_zero], fun h => BitVec.eq_of_getLsbD_eq fun i hi => ?_⟩
    rw [h i hi, BitVec.getLsbD_zero]
  unfold Port.noticeLine
  rw [bne_iff_ne, ne_eq, hzero]
  simp only [BitVec.getLsbD_and, not_forall, Bool.not_eq_false, Bool.and_eq_true, exists_prop]

/-- Settles O51, the segments by the bit that owns them and each output by its definition. -/
theorem holdDutySpreadsItsSegments : Obligations.HoldDutySpreadsItsSegments := by
  refine ⟨fun duty hduty => ⟨segmentOn_count hduty, segmentOn_last duty, fun i hi => ?_⟩, fun s hreset => ?_⟩
  · obtain ⟨j, hj, howner⟩ := exists_owner_of_segment hi
    exact ⟨j, hj, howner, segmentOn_owned (by omega) hj howner⟩
  · exact ⟨fun n => ⟨State.gateOn_not_playing hreset, State.gateOn_drive hreset, State.gateOn_rests,
      fun slot e q began hg hk hslot he hpart hend _ => State.gateOn_hold hreset hg hk hslot he hpart hend⟩,
      State.railEnable_iff hreset, State.alert_iff hreset, State.damperDrive_iff hreset, State.syncOut_iff hreset,
      fun p => Port.noticeLine_iff⟩

end Sys2Proof.Machine
end

section
/-! SUPPORT. The stage controller's requests, guard edges, charges and discharges (R149 to R159). -/
namespace Sys2Proof.Machine

/-! ## Events outside RESET -/

section
variable {s : State} (hreset : s.power.inReset = false)
include hreset

theorem event_open (t : Nat) (f : State → State) : event t f s = f (s.reach t) := by
  rw [event, hreset, if_neg Bool.false_ne_true]

theorem timerEvent_open (w : When) (due : Nat) (f : State → State) :
    timerEvent w (some due) f s = f (s.reach (max due w.time)) := event_open hreset _ f

end

section
variable (s : State)

/-! ## Guard edges (R158) -/

theorem State.guardMoved_standby (h : s.stage.stage = .standby) : s.guardMoved false =
    (s.modStage (fun c => { c with guardClosed := false })).enterStage .guarded := by
  unfold State.guardMoved
  simp only [State.modStage, h]

theorem State.guardMoved_guarded (h : s.stage.stage = .guarded) : s.guardMoved true =
    (s.modStage (fun c => { c with guardClosed := true })).enterStage .standby := by
  unfold State.guardMoved
  simp only [State.modStage, h]

theorem State.guardMoved_still (closed : Bool) (h : s.stage.stage = .dormant ∨ s.stage.stage = .charging ∨
    s.stage.stage = .discharging ∨ s.stage.stage = .fault) :
    s.guardMoved closed = s.modStage (fun c => { c with guardClosed := closed }) := by
  unfold State.guardMoved
  obtain h | h | h | h := h <;> simp only [State.modStage, h]

end

theorem exec_guardEdge {s : State} (w : When) {closed : Bool} (hreset : s.power.inReset = false)
    (hedge : s.stage.guardClosed ≠ closed) :
    exec (.guardEdge w closed) s = .next (((s.guardLevel closed).reach w.time).guardMoved closed) := by
  show Host.Outcome.next (event w.time _ (s.guardLevel closed)) = _
  rw [event_open (s := s.guardLevel closed) hreset]
  exact congrArg Host.Outcome.next (if_neg hedge)

/-- Settles O34, by the stage. -/
theorem guardEdgesMoveTheStage : Obligations.GuardEdgesMoveTheStage := by
  intro w s closed hreset hedge seen announced
  refine ⟨fun hstage hopen => ?_, fun hstage hclosed => ?_, fun hstage => ?_⟩
  · subst hopen
    refine ⟨?_, (State.alert_iff (s := announced .guarded) hreset).2 (.inl rfl)⟩
    rw [exec_guardEdge w hreset hedge, State.guardMoved_standby ((s.guardLevel false).reach w.time) hstage]
    rfl
  · subst hclosed
    refine ⟨?_, Bool.eq_false_iff.2 fun halert => ?_⟩
    · rw [exec_guardEdge w hreset hedge, State.guardMoved_guarded ((s.guardLevel true).reach w.time) hstage]
      rfl
    · obtain h | h := (State.alert_iff (s := announced .standby) hreset).1 halert <;> cases h
  · rw [exec_guardEdge w hreset hedge, State.guardMoved_still ((s.guardLevel closed).reach w.time) closed hstage]
    rfl

/-! ## Stage requests (R149) -/

section
variable {s : State}

theorem State.anyFitted_iff : s.anyFitted = true ↔ ∃ r, (s.rail r).fitted = true := Bank.any_toList ..

theorem State.upRefusal_busy (h : s.stage.stage = .discharging) : s.upRefusal = some .busy := if_pos h

theorem State.upRefusal_stage (h : s.stage.stage = .guarded ∨ s.stage.stage = .fault) : s.upRefusal = some .stage := by
  unfold State.upRefusal
  obtain h | h := h <;> rw [h] <;> rfl

theorem State.upRefusal_open (h : s.stage.stage ≠ .discharging) (hopen : s.stage.guardClosed = false) :
    s.upRefusal = some .stage := by
  simp [State.upRefusal, h, hopen]

theorem State.upRefusal_empty (h : s.stage.stage = .dormant) (hclosed : s.stage.guardClosed = true)
    (hempty : ¬ ∃ r, (s.rail r).fitted = true) : s.upRefusal = some .state := by
  have hany : s.anyFitted = false := Bool.eq_false_iff.2 fun g => hempty (State.anyFitted_iff.1 g)
  simp [State.upRefusal, h, hclosed, hany]

theorem State.upRefusal_none (hclosed : s.stage.guardClosed = true)
    (h : s.stage.stage = .dormant ∧ (∃ r, (s.rail r).fitted = true) ∨ s.stage.stage = .charging ∨ s.stage.stage = .standby ∨
      s.stage.stage = .playing) : s.upRefusal = none := by
  unfold State.upRefusal
  obtain ⟨h, hfitted⟩ | h | h | h := h
  · simp [h, hclosed, State.anyFitted_iff.2 hfitted]
  all_goals simp [h, hclosed]

/-- STAGE_CHANGE to every port may come before or after the taking. -/
theorem State.raiseAll_taken (w : When) (p : PortId) (n : Notice) : (s.taken w p).raiseAll n = (s.raiseAll n).taken w p := by
  unfold State.raiseAll State.taken State.modPort State.port
  congr 1
  refine Bank.ext_look fun q => ?_
  by_cases h : q = p
  · subst h
    simp only [Bank.look_mapWith, Bank.look_put_same, State.reach_ports]
    rfl
  · simp only [Bank.look_mapWith, Bank.look_put_ne _ h, State.reach_ports]

variable {w : When} {p : PortId} {c : Instr} {kind : Byte} {refusal : State → Option Status} {f : State → State}
  (hexec : exec c s = .next (request w p kind (fun s => stageResult (refusal s) f s) s)) (hready : s.ready p = true)
include hexec hready

theorem exec_stage_refused {st : Status} (h : refusal (s.taken w p) = some st) :
    exec c s = .next (s.answering w p kind st (b1 s.stage.stage.code ++ b1 (targetCode s.stage.target))) :=
  exec_answers hexec hready (by
    rw [h]
    rfl)

theorem exec_stage_ok {u : State} (h : refusal (s.taken w p) = none) (hf : f (s.taken w p) = u.taken w p) :
    exec c s = .next (u.answering w p kind .ok (b1 u.stage.stage.code ++ b1 (targetCode u.stage.target))) :=
  exec_answers hexec hready (by
    rw [h, stageResult, hf]
    rfl)

end

/-- Settles O32, each request by the stage. -/
theorem stageRequestsFollowTheTable : Obligations.StageRequestsFollowTheTable := by
  intro w p s hready answer same charging aimed discharging fitted
  have hup : exec (.up w p) s = .next (request w p 0x41#8 (fun s => stageResult s.upRefusal State.stageUp s) s) := rfl
  have hplay : exec (.play w p) s = .next (request w p 0x42#8 (fun s => stageResult s.upRefusal State.stagePlay s) s) := rfl
  have hrest : exec (.rest w p) s = .next (request w p 0x43#8 (fun s => stageResult none State.stageRest s) s) := rfl
  have hdown : exec (.down w p) s = .next (request w p 0x44#8 (fun s => stageResult none State.stageDown s) s) := rfl
  have hrefused : ∀ {st : Status}, (s.taken w p).upRefusal = some st →
      exec (.up w p) s = same 0x41#8 st ∧ exec (.play w p) s = same 0x42#8 st :=
    fun h => ⟨exec_stage_refused (refusal := State.upRefusal) hup hready h,
      exec_stage_refused (refusal := State.upRefusal) hplay hready h⟩
  have hupOk := fun {u : State} => exec_stage_ok (u := u) (refusal := State.upRefusal) hup hready
  have hplayOk := fun {u : State} => exec_stage_ok (u := u) (refusal := State.upRefusal) hplay hready
  have hrestOk := fun {u : State} => exec_stage_ok (u := u) (refusal := fun _ => none) hrest hready rfl
  have hdownOk := fun {u : State} => exec_stage_ok (u := u) (refusal := fun _ => none) hdown hready rfl
  refine ⟨fun h => hrefused (State.upRefusal_busy h), fun h => hrefused (State.upRefusal_stage h),
    fun h hopen => hrefused (State.upRefusal_open h hopen), fun hclosed => ⟨fun h hnone => hrefused (State.upRefusal_empty h hclosed hnone),
      fun h hfitted => ?dormant, fun h => ?charging, fun h => ?standby, fun h => ?playing⟩, fun h => ?rest, fun h hplaying => ?restStill,
    fun h => ?downStill, fun h => ?down⟩
  case dormant =>
    have hnone := State.upRefusal_none (s := s.taken w p) hclosed (.inl ⟨h, hfitted⟩)
    refine ⟨hupOk (u := charging .standby) hnone (if_pos h), hplayOk (u := charging .playing) hnone ?_⟩
    unfold State.stagePlay
    rw [show (s.taken w p).stage.stage = .dormant from h]
    rfl
  case charging =>
    have hnone := State.upRefusal_none (s := s.taken w p) hclosed (.inr (.inl h))
    refine ⟨hupOk (u := s) hnone (if_neg fun g => by cases h.symm.trans g), (hplayOk (u := aimed .playing) hnone ?_).trans ?_⟩
    · unfold State.stagePlay
      rw [show (s.taken w p).stage.stage = .charging from h]
      rfl
    · exact congrArg (fun g : Stage => answer 0x42#8 .ok g (some .playing) (aimed .playing)) h
  case standby =>
    have hnone := State.upRefusal_none (s := s.taken w p) hclosed (.inr (.inr (.inl h)))
    refine ⟨hupOk (u := s) hnone (if_neg fun g => by cases h.symm.trans g), hplayOk hnone ?_⟩
    unfold State.stagePlay
    rw [show (s.taken w p).stage.stage = .standby from h]
    exact State.raiseAll_taken (s := s.modStage (fun c => { c with stage := .playing })) w p .stageChange
  case playing =>
    have hnone := State.upRefusal_none (s := s.taken w p) hclosed (.inr (.inr (.inr h)))
    refine ⟨hupOk (u := s) hnone (if_neg fun g => by cases h.symm.trans g), hplayOk (u := s) hnone ?_⟩
    unfold State.stagePlay
    rw [show (s.taken w p).stage.stage = .playing from h]
  case rest =>
    refine (hrestOk (u := aimed .standby) ?_).trans (congrArg (fun g : Stage => answer 0x43#8 .ok g (some .standby) (aimed .standby)) h)
    unfold State.stageRest
    rw [show (s.taken w p).stage.stage = .charging from h]
    rfl
  case restStill =>
    refine hrestOk (u := s) ?_
    unfold State.stageRest
    split
    · next g => exact absurd g h
    · next g => exact absurd g hplaying
    · rfl
  case downStill =>
    refine hdownOk (u := s) ?_
    unfold State.stageDown
    obtain h | h := h <;> rw [show (s.taken w p).stage.stage = _ from h]
  case down =>
    refine hdownOk (u := discharging) ?_
    have hleft : (s.taken w p).stage.stage ≠ .playing := fun g : s.stage.stage = .playing => by simp [g] at h
    have hstart : (s.taken w p).stageDown = (s.taken w p).startDischarge := by
      unfold State.stageDown
      obtain h | h | h | h := h <;> rw [show (s.taken w p).stage.stage = _ from h]
    rw [hstart]
    unfold State.startDischarge
    rw [if_neg hleft]
    rfl

/-! ## Charges and discharges (R151 to R153, R157, R159) -/

/-- A rail has stood at its charge threshold for the settle time. -/
theorem Rail.settled_iff {now settleMs : Nat} {r : Rail} : r.settled now settleMs = true ↔
    ∃ t, r.settleSince = some t ∧ t + settleMs * 1000 ≤ now := by
  unfold Rail.settled
  split
  · next t h => simp [h]
  · next h => simp [h]

section
variable {s : State}

theorem State.allFitted_iff {test : Rail → Bool} : s.allFitted test = true ↔
    ∀ r, (s.rail r).fitted = true → test (s.rail r) = true := by
  unfold State.allFitted
  rw [Bank.all_toList]
  refine forall_congr' fun r => ?_
  show (!(s.rail r).fitted || test (s.rail r)) = true ↔ _
  cases (s.rail r).fitted <;> simp

/-- A FAULT entered from another stage than PLAYING. -/
theorem State.enterFault_outside (h : s.stage.stage ≠ .playing) (cause : FaultCause) : s.enterFault cause =
    ((s.fittedRails (fun r => { r with state := if r.state = .fault then .fault else .off })).modStage
      (fun c => { c with target := none, chargeDue := none, cause := cause })).enterStage .fault := by
  rw [State.enterFault_eq, State.faulted, State.left, if_neg h]

/-- The state that a failed charge leaves. -/
theorem State.chargeFailed_eq (h : s.stage.stage = .charging) : s.chargeFailed =
    (((s.fittedRails (fun r => if r.settled s.now s.stage.settleMs then r else { r with state := .fault })).fittedRails
      (fun r => { r with state := if r.state = .fault then .fault else .off })).modStage
      (fun c => { c with target := none, chargeDue := none, cause := .chargeTimeout })).enterStage .fault :=
  State.enterFault_outside (s := s.fittedRails fun r => if r.settled s.now s.stage.settleMs then r else { r with state := .fault })
    (fun g : s.stage.stage = .playing => by cases h.symm.trans g) .chargeTimeout

/-- The rails as a failed charge leaves them. -/
theorem State.chargeFailed_rail (h : s.stage.stage = .charging) (r : RailId) : s.chargeFailed.rail r =
    if (s.rail r).fitted then
      (if (s.rail r).settled s.now s.stage.settleMs then
        { s.rail r with state := if (s.rail r).state = .fault then .fault else .off }
      else { s.rail r with state := .fault })
    else s.rail r := by
  rw [State.chargeFailed_eq h]
  show ((s.fittedRails _).fittedRails _).rail r = _
  rw [State.fittedRails_rail, State.fittedRails_rail]
  cases hfitted : (s.rail r).fitted
  · simp [hfitted]
  · cases (s.rail r).settled s.now s.stage.settleMs <;> simp [hfitted]

/-- A sample that neither raises a rail from LOW nor breaks it reaches the stage controller at once. -/
theorem State.railSample_quiet {r : RailId} {sample : Nat}
    (hlow : (s.rail r).state = .low → ((s.rail r).sampled sample).state ≠ .up)
    (hfault : (s.rail r).state ≠ .fault → ((s.rail r).sampled sample).state ≠ .fault) :
    s.railSample r sample = (s.modRail r (Rail.sampled sample)).sampleInStage r sample := by
  have hafter : (s.modRail r (Rail.sampled sample)).rail r = (s.rail r).sampled sample := Bank.look_put_same ..
  unfold State.railSample
  dsimp only
  rw [hafter, if_neg (by simpa using hfault), if_neg (by simpa using hlow)]

/-- A sample on a rail that is OFF or charging changes its sample and its run alone, and reaches the stage controller. -/
theorem State.railSample_rests {r : RailId} {sample : Nat} (h : (s.rail r).state = .charging ∨ (s.rail r).state = .off) :
    s.railSample r sample = State.sampleInStage r sample
      (s.modRail r (fun x => { x with lastSample := some sample, lowRun := 0 })) := by
  have hsampled : (s.rail r).sampled sample = { s.rail r with lastSample := some sample, lowRun := 0 } := by
    unfold Rail.sampled
    obtain h | h := h <;> simp [h]
  rw [State.railSample_quiet]
  · exact congrArg (fun x => State.sampleInStage r sample { s with rails := s.rails.put r x }) hsampled
  · rw [hsampled]
    obtain h | h := h <;> simp [h]
  · rw [hsampled]
    obtain h | h := h <;> simp [h]

/-! ## What a sample is to the stage controller -/

variable {r : RailId} {sample : Nat} (hfitted : (s.rail r).fitted = true)
include hfitted

theorem State.sampleInStage_charging (h : s.stage.stage = .charging) : s.sampleInStage r sample =
    if (s.modRail r (Rail.settle s.now sample)).allFitted (Rail.settled s.now s.stage.settleMs) then
      (s.modRail r (Rail.settle s.now sample)).chargeComplete
    else s.modRail r (Rail.settle s.now sample) := by
  unfold State.sampleInStage
  simp only [hfitted, h]
  rfl

theorem State.sampleInStage_discharging (h : s.stage.stage = .discharging) : s.sampleInStage r sample =
    if (s.modRail r (fun x => { x with bled := sample < 200 })).allFitted (·.bled) then
      (s.modRail r (fun x => { x with bled := sample < 200 })).dischargeComplete
    else s.modRail r (fun x => { x with bled := sample < 200 }) := by
  unfold State.sampleInStage
  simp only [hfitted, h]
  rfl

omit hfitted

variable {w : When} {c : Conversion} {level : Half} (hreset : s.power.inReset = false)
  (hconv : s.sense.conv = some c) (hinput : c.input = .rail r) (hwaiting : s.sense.waiting = [])

/-- The state in which the sample of a rail conversion is delivered, with no other conversion waiting. -/
def State.railDelivered (t : Nat) (s : State) : State := { s.reach t with sense := { s.sense with conv := none } }

include hreset hconv hinput hwaiting in
theorem exec_railConversion : exec (.railConversionComplete w level) s =
    .next ((s.railDelivered (max c.done w.time)).railSample r (level.toNat / 10)).settle := by
  have hdue : s.sense.railDone = some c.done := by
    unfold Sense.railDone
    simp only [hconv, hinput]
  have hnext : s.sense.next (max s.now (max c.done w.time)) = { s.sense with conv := none } := by
    have hfirst : firstWaiting s.sense.waiting = none := by
      rw [hwaiting]
      rfl
    unfold Sense.next
    rw [hfirst]
  show Host.Outcome.next (timerEvent w s.sense.railDone _ s) = _
  rw [hdue, timerEvent_open hreset]
  unfold State.railConverted
  simp only [State.reach_sense, hconv, hinput, State.modSense]
  rw [State.reach_now, hnext]
  rfl

theorem State.modRail_modRail (r : RailId) (f g : Rail → Rail) : (s.modRail r f).modRail r g = s.modRail r (fun x => g (f x)) := by
  simp [State.modRail, State.rail]

/-- The rail as a sample in CHARGING leaves it (R151). -/
def Rail.settling (now sample : Nat) (x : Rail) : Rail := { x with
  lastSample := some sample
  lowRun := 0
  settleSince := if sample < x.nominal * 90 / 100 then none else some (x.settleSince.getD now) }

/-- The rail as a sample in DISCHARGING leaves it (R157). -/
def Rail.bleeding (sample : Nat) (x : Rail) : Rail := { x with lastSample := some sample, lowRun := 0, bled := sample < 200 }

theorem Rail.settle_sampled (now sample : Nat) (x : Rail) :
    Rail.settle now sample { x with lastSample := some sample, lowRun := 0 } = x.settling now sample := by
  unfold Rail.settle Rail.settling Rail.chargeThreshold
  dsimp only
  split <;> rfl

section
variable (hfitted : (s.rail r).fitted = true) (hrests : (s.rail r).state = .charging ∨ (s.rail r).state = .off)
include hfitted hrests

theorem State.railSample_charging (hstage : s.stage.stage = .charging) (sample : Nat) : s.railSample r sample =
    if (s.modRail r (Rail.settling s.now sample)).allFitted (Rail.settled s.now s.stage.settleMs) then
      (s.modRail r (Rail.settling s.now sample)).chargeComplete
    else s.modRail r (Rail.settling s.now sample) := by
  have hmod : (s.modRail r (fun x => { x with lastSample := some sample, lowRun := 0 })).modRail r (Rail.settle s.now sample) =
      s.modRail r (Rail.settling s.now sample) := by
    rw [State.modRail_modRail]
    exact congrArg (s.modRail r) (funext fun x => x.settle_sampled s.now sample)
  rw [State.railSample_rests hrests, State.sampleInStage_charging (by simpa [State.modRail, State.rail] using hfitted)
    (by exact hstage), State.modRail_now, State.modRail_stage, hmod]

theorem State.railSample_discharging (hstage : s.stage.stage = .discharging) (sample : Nat) : s.railSample r sample =
    if (s.modRail r (Rail.bleeding sample)).allFitted (·.bled) then (s.modRail r (Rail.bleeding sample)).dischargeComplete
    else s.modRail r (Rail.bleeding sample) := by
  have hmod : (s.modRail r (fun x => { x with lastSample := some sample, lowRun := 0 })).modRail r
      (fun x => { x with bled := sample < 200 }) = s.modRail r (Rail.bleeding sample) := s.modRail_modRail ..
  rw [State.railSample_rests hrests, State.sampleInStage_discharging (by simpa [State.modRail, State.rail] using hfitted)
    (by exact hstage), hmod]

end

theorem State.sampleInStage_decisions (r : RailId) (sample : Nat) : (s.sampleInStage r sample).decisions = s.decisions := by
  have hcharge : ∀ t : State, t.chargeComplete.decisions = t.decisions := fun t => rfl
  have hdischarge : ∀ t : State, t.dischargeComplete.decisions = t.decisions := fun t => rfl
  unfold State.sampleInStage
  split
  · rfl
  · split
    · dsimp only
      split
      · rw [hcharge, State.modRail_decisions]
      · rw [State.modRail_decisions]
    · dsimp only
      split
      · rw [hdischarge, State.modRail_decisions]
      · rw [State.modRail_decisions]
    · rfl

theorem State.railSample_decisions_nil {sample : Nat} (hdecisions : s.decisions = [])
    (hrests : (s.rail r).state = .charging ∨ (s.rail r).state = .off) : (s.railSample r sample).decisions = [] := by
  rw [State.railSample_rests hrests, State.sampleInStage_decisions]
  exact hdecisions

include hreset hconv hinput hwaiting in
/-- A rail conversion that leaves the state `u`. -/
theorem exec_railConversion_rests {u : State} (hdecisions : s.decisions = [])
    (hrests : (s.rail r).state = .charging ∨ (s.rail r).state = .off)
    (hsample : (s.railDelivered (max c.done w.time)).railSample r (level.toNat / 10) = u) :
    exec (.railConversionComplete w level) s = .next u := by
  rw [exec_railConversion hreset hconv hinput hwaiting, State.settle_of_nil, hsample]
  exact State.railSample_decisions_nil (s := s.railDelivered _) hdecisions hrests

end

/-- Settles O35: the expiries, and a sample by the stage and by whether it is the last one needed. -/
theorem chargesAndDischargesEnd : Obligations.ChargesAndDischargesEnd := by
  intro w s due hreset now announced stood
  have hstood : ∀ {q : Rail}, q.settled now s.stage.settleMs = true ↔ stood q := Rail.settled_iff
  refine ⟨fun hstage hdue => ?failed, fun hstage hdue => ?discharged,
    fun c r level hconv hinput hdone hwaiting hdecisions hstage hfitted hstate hlevel hall => ?complete,
    fun c r level hconv hinput hdone hwaiting hdecisions hfitted hrests => ?sampled⟩
  case failed =>
    have hexec : exec (.chargeExpiry w) s = .next (s.reach (max due w.time)).chargeFailed := by
      show Host.Outcome.next (timerEvent w s.stage.chargeDue _ s) = _
      rw [hdue, timerEvent_open hreset]
    refine ⟨_, hexec, ?_, fun r => ?_⟩
    · rw [State.chargeFailed_eq (s := s.reach _) hstage]
      rfl
    · rw [State.chargeFailed_rail (s := s.reach _) hstage r]
      refine ⟨fun h => if_neg (by simp [h]), fun h hsettled hfault => ?_, fun h hsettled => ?_⟩
      · refine (if_pos h).trans ((if_pos (hstood.2 hsettled)).trans ?_)
        rw [State.reach_rail, if_neg hfault]
      · exact (if_pos h).trans (if_neg fun g => hsettled (hstood.1 g))
  case discharged =>
    show Host.Outcome.next (timerEvent w s.stage.dischargeDue _ s) = _
    rw [hdue, timerEvent_open hreset]
    rfl
  case complete =>
    subst hdone
    have hsettling : ∀ q, ((s.modRail r (Rail.settling now (level.toNat / 10))).rail q).fitted = true →
        Rail.settled now s.stage.settleMs ((s.modRail r (Rail.settling now (level.toNat / 10))).rail q) = true := by
      intro q
      rw [State.modRail_rail]
      split
      · obtain ⟨since, hsince, hpassed⟩ := hall r hfitted
        refine fun _ => hstood.2 ⟨since, ?_, hpassed⟩
        unfold Rail.settling
        dsimp only
        rw [if_neg (Nat.not_lt.2 hlevel), hsince, Option.getD_some]
      · exact fun h => hstood.2 (hall q h)
    refine exec_railConversion_rests hreset hconv hinput hwaiting hdecisions (.inl hstate)
      ((State.railSample_charging (s := s.railDelivered _) hfitted (.inl hstate) hstage _).trans
        ((if_pos (State.allFitted_iff (s := (s.railDelivered _).modRail r (Rail.settling now _)).2 hsettling)).trans ?_))
    have hup : ((s.rails.put r ((s.rail r).settling now (level.toNat / 10))).mapWith
        (fun _ (x : Rail) => if x.fitted then { x with state := .up, settleSince := none } else x)) =
        (s.rails.put r { s.rail r with lastSample := some (level.toNat / 10), lowRun := 0 }).mapWith
          (fun _ (x : Rail) => if x.fitted then { x with state := .up, settleSince := none } else x) := by
      refine Bank.ext_look fun q => ?_
      rw [Bank.look_mapWith, Bank.look_mapWith]
      by_cases hq : q = r
      · subst hq
        rw [Bank.look_put_same, Bank.look_put_same]
        exact (if_pos hfitted).trans (if_pos hfitted).symm
      · rw [Bank.look_put_ne _ hq, Bank.look_put_ne _ hq]
    have hstages : (if !s.stage.guardClosed then Stage.guarded else match s.stage.target with
        | some .playing => Stage.playing
        | _ => Stage.standby) = if s.stage.guardClosed then
          (if s.stage.target = some ChainTarget.playing then Stage.playing else Stage.standby) else Stage.guarded := by
      cases s.stage.guardClosed
      · rfl
      · obtain h | h | h : s.stage.target = none ∨ s.stage.target = some .standby ∨ s.stage.target = some .playing := by
          cases h : s.stage.target with
          | none => exact .inl rfl
          | some g => cases g <;> simp
        all_goals
          rw [h]
          rfl
    rw [← hup, ← hstages]
    rfl
  case sampled =>
    subst hdone
    intro sample sampled settling bleeding
    have hexec := fun {u : State} => exec_railConversion_rests (w := w) (level := level) (u := u) hreset hconv hinput hwaiting hdecisions hrests
    refine ⟨fun hstage hnot => hexec ?_, fun hstage hnot => hexec ?_, fun hstage hall => hexec ?_⟩
    · refine (State.railSample_charging (s := s.railDelivered _) hfitted hrests hstage _).trans ((if_neg fun h => ?_).trans rfl)
      obtain ⟨q, hq, hunsettled⟩ := hnot
      exact hunsettled (hstood.1 (State.allFitted_iff.1 h q hq))
    · refine (State.railSample_discharging (s := s.railDelivered _) hfitted hrests hstage _).trans ((if_neg fun h => ?_).trans rfl)
      obtain ⟨q, hq, hunbled⟩ := hnot
      exact Bool.false_ne_true (hunbled.symm.trans (State.allFitted_iff.1 h q hq))
    · exact (State.railSample_discharging (s := s.railDelivered _) hfitted hrests hstage _).trans
        ((if_pos (State.allFitted_iff (s := (s.railDelivered _).modRail r (Rail.bleeding sample)).2 hall)).trans rfl)

end Sys2Proof.Machine
end

section
/-! SUPPORT. The counter's expiry and the SYNC mode (R4 to R7, R11, R16 to R20): a tick's own update field by field, and what comes
after it. -/
namespace Sys2Proof.Machine

/-! ## The order of the neighbours -/

theorem arrange_perm {α : Type} (n : Nat) (l : List α) : (arrange n l).Perm l := by
  induction l generalizing n with
  | nil => exact List.Perm.refl _
  | cons a l ih =>
    have hrest := ih (n / (l.length + 1))
    have hindex : n % (l.length + 1) ≤ (arrange (n / (l.length + 1)) l).length := by
      rw [hrest.length_eq]
      exact Nat.le_of_lt_succ (Nat.mod_lt _ (Nat.succ_pos _))
    exact (List.perm_insertIdx a _ hindex).trans (hrest.cons a)

theorem mem_arrange {α : Type} {n : Nat} {l : List α} {a : α} : a ∈ arrange n l ↔ a ∈ l := (arrange_perm n l).mem_iff

/-! ## The class times at a tick -/

/-- The flight leads and slips stand. -/
def Timeline.SameTimes (t u : Timeline) : Prop := ∀ c, (u.times c).lead = (t.times c).lead ∧ (u.times c).slip = (t.times c).slip

namespace Timeline

theorem SameTimes.rfl' {t : Timeline} : t.SameTimes t := fun _ => ⟨rfl, rfl⟩

theorem SameTimes.trans {t u v : Timeline} (h : t.SameTimes u) (g : u.SameTimes v) : t.SameTimes v :=
  fun c => ⟨(g c).1.trans (h c).1, (g c).2.trans (h c).2⟩

theorem SameTimes.of_eq {t u : Timeline} (h : u.marimba = t.marimba ∧ u.vibes = t.vibes ∧ u.perc = t.perc) : t.SameTimes u := by
  obtain ⟨hmarimba, hvibes, hperc⟩ := h
  intro c
  cases c <;> simp only [times, hmarimba, hvibes, hperc, and_self]

variable (t : Timeline) (now : Nat) (measured : Option Nat)

theorem adopt_sameTimes (p : Nat) : t.SameTimes (t.adopt p) := by
  intro c
  cases c <;> exact ⟨rfl, rfl⟩

theorem advanced_sameTimes : t.SameTimes t.advanced := by
  have hpending : t.SameTimes t.adoptPending := by
    unfold adoptPending
    split
    · exact (t.adopt_sameTimes _).trans (.of_eq ⟨rfl, rfl, rfl⟩)
    · exact .rfl'
  exact hpending.trans (.of_eq ⟨rfl, rfl, rfl⟩)

theorem onBeat_sameTimes : t.SameTimes (t.onBeat now measured) := by
  have hramp : t.SameTimes t.rampStep := by
    unfold rampStep
    split
    · exact .rfl'
    · exact (t.adopt_sameTimes _).trans (.of_eq ⟨rfl, rfl, rfl⟩)
  have hpulse : t.SameTimes { t.rampStep with syncOutEnd := some (now + 1000) } := hramp.trans (.of_eq ⟨rfl, rfl, rfl⟩)
  unfold onBeat
  cases measured with
  | none => exact hpulse
  | some p => exact hpulse.trans (adopt_sameTimes _ p)

theorem tick_sameTimes : t.SameTimes (t.tick now measured).1 := by
  have hbeat := t.advanced_sameTimes.trans (t.advanced.onBeat_sameTimes now measured)
  rw [tick_eq]
  split
  · exact t.advanced_sameTimes
  · split <;> exact hbeat.trans (.of_eq ⟨rfl, rfl, rfl⟩)

/-- A pending period or a ramp's step recomputes the lead ticks (R23). -/
theorem tick_leads_of (h : t.pendingPeriod ≠ none ∨ ((t.position + 1) % 240 = 0 ∧ t.ramp ≠ none)) :
    (t.tick now none).1.Leads := by
  have hadvanced : t.pendingPeriod ≠ none → t.advanced.Leads := by
    intro hpending
    unfold advanced adoptPending
    split
    · exact (t.adopt_leads _).of_eq rfl rfl rfl rfl
    · exact absurd ‹_› hpending
  have hbeat : (t.advanced.onBeat now none).Leads := by
    obtain hpending | ⟨-, hramp⟩ := h
    · exact t.advanced.onBeat_leads now none (hadvanced hpending)
    · have hramp' : t.advanced.ramp ≠ none := by simpa [advanced] using hramp
      unfold onBeat rampStep
      dsimp only
      split
      · exact absurd ‹_› hramp'
      · exact (t.advanced.adopt_leads _).of_eq rfl rfl rfl rfl
  rw [tick_eq]
  split
  · next hoff =>
    obtain hpending | ⟨hon, -⟩ := h
    · exact hadvanced hpending
    · exact absurd hon hoff
  · split <;> exact hbeat.of_eq rfl rfl rfl rfl

/-! ## A tick by its kind -/

variable {t}

theorem advanced_period : t.advanced.period = t.pendingPeriod.getD t.period := by
  unfold advanced adoptPending
  cases t.pendingPeriod <;> rfl

/-- An advance leaves all but the position, the period with its lead ticks and the pending period. -/
theorem advanced_frame : t.advanced = { t with
    position := t.position + 1, period := t.advanced.period, marimba := t.advanced.marimba, vibes := t.advanced.vibes
    perc := t.advanced.perc, pendingPeriod := none } := by
  unfold advanced
  rw [adoptPending_frame]

variable {now measured}

theorem tick_offBeat (h : (t.position + 1) % 240 ≠ 0) : t.tick now measured = (t.advanced, { beat := false, barLine := false }) := by
  exact (t.tick_eq now measured).trans (if_pos h)

variable (h : (t.position + 1) % 240 = 0)
include h

theorem tick_inBar (hbar : t.beatInBar + 1 < t.beatsPerBar) : t.tick now measured =
    ({ t.advanced.onBeat now measured with beatInBar := t.beatInBar + 1 }, { beat := true, barLine := false }) := by
  have hbeat : (t.advanced.onBeat now measured).beatInBar = t.beatInBar ∧
      (t.advanced.onBeat now measured).beatsPerBar = t.beatsPerBar := by
    rw [onBeat_frame, advanced_frame]
    exact ⟨rfl, rfl⟩
  rw [tick_eq, if_neg (fun g => g h), hbeat.1, hbeat.2, if_pos hbar]

theorem tick_atBarLine (hbar : t.beatsPerBar ≤ t.beatInBar + 1) : t.tick now measured =
    ((t.advanced.onBeat now measured).barLine, { beat := true, barLine := true }) := by
  have hbeat : (t.advanced.onBeat now measured).beatInBar = t.beatInBar ∧
      (t.advanced.onBeat now measured).beatsPerBar = t.beatsPerBar := by
    rw [onBeat_frame, advanced_frame]
    exact ⟨rfl, rfl⟩
  rw [tick_eq, if_neg (fun g => g h), hbeat.1, hbeat.2, if_neg (Nat.not_lt.2 hbar)]

/-- The tempo, the period, the ramp and the pulse's end at a beat boundary. -/
theorem tick_onBeat : (t.tick now measured).1.tempo = (t.advanced.onBeat now measured).tempo ∧
    (t.tick now measured).1.period = (t.advanced.onBeat now measured).period ∧
    (t.tick now measured).1.ramp = (t.advanced.onBeat now measured).ramp ∧
    (t.tick now measured).1.syncOutEnd = (t.advanced.onBeat now measured).syncOutEnd := by
  rw [tick_eq, if_neg (fun g => g h)]
  split <;> exact ⟨rfl, rfl, rfl, rfl⟩

omit h

theorem onBeat_syncOutEnd : (t.onBeat now measured).syncOutEnd = some (now + 1000) := by
  unfold onBeat
  cases measured <;> rfl

/-- A tick leaves the conductor and what SYNC mode has noted. -/
theorem tick_rest : (t.tick now measured).1.conductor = t.conductor ∧ (t.tick now measured).1.lastPulse = t.lastPulse ∧
    (t.tick now measured).1.lastInterval = t.lastInterval := by
  rw [tick_eq]
  split
  · rw [advanced_frame]
    exact ⟨rfl, rfl, rfl⟩
  · split
    · rw [onBeat_frame, advanced_frame]
      exact ⟨rfl, rfl, rfl⟩
    · rw [onBeat_frame, advanced_frame]
      exact ⟨rfl, rfl, rfl⟩

end Timeline

/-! ## A tick expiry, as the other blocks have it -/

theorem CurveTable.transfer_transfer (c : CurveTable) :
    (if (if c.commitPending then c.transfer else c).commitPending then (if c.commitPending then c.transfer else c).transfer
      else (if c.commitPending then c.transfer else c)) = if c.commitPending then c.transfer else c := by
  cases h : c.commitPending
  · simp [h]
  · rfl

section
variable (s : State) (o : Interleaving) (kind : TickKind)

/-- A tick expiry's parts other than the shaper's leave the blocks that Kept names. -/
theorem State.neighbourTick_kept (x : Neighbour) :
    Kept { s with shaper := (s.neighbourTick o kind x).shaper } (s.neighbourTick o kind x) := by
  have hshaper : ∀ {t : State}, Kept s t → Kept { s with shaper := t.shaper } t := fun h =>
    ⟨h.now, h.power, h.timeline, h.chimePort, h.quotas, h.bars, rfl, h.mem, h.stage, h.pending⟩
  cases x with
  | shaper =>
    unfold State.neighbourTick
    dsimp only
    split <;> exact ⟨rfl, rfl, rfl, rfl, rfl, rfl, rfl, rfl, rfl, rfl⟩
  | calendar => exact hshaper (s.releaseAll_kept o _)
  | players => exact hshaper (s.playersTick_kept o _)
  | dampers => exact ⟨rfl, rfl, rfl, rfl, rfl, rfl, rfl, rfl, rfl, rfl⟩

theorem State.neighboursTick_kept (l : List Neighbour) :
    Kept { s with shaper := (State.neighboursTick o kind l s).shaper } (State.neighboursTick o kind l s) := by
  induction l generalizing s with
  | nil => exact ⟨rfl, rfl, rfl, rfl, rfl, rfl, rfl, rfl, rfl, rfl⟩
  | cons x rest ih =>
    have hfirst := s.neighbourTick_kept o kind x
    have hsettled := State.settleAtBlock_kept (s.neighbourTick o kind x) o
    have hrest := ih ((s.neighbourTick o kind x).settleAtBlock o)
    exact ⟨hrest.now.trans (hsettled.now.trans hfirst.now), hrest.power.trans (hsettled.power.trans hfirst.power),
      hrest.timeline.trans (hsettled.timeline.trans hfirst.timeline),
      hrest.chimePort.trans (hsettled.chimePort.trans hfirst.chimePort), hrest.quotas.trans (hsettled.quotas.trans hfirst.quotas),
      hrest.bars.trans (hsettled.bars.trans hfirst.bars), rfl, hrest.mem.trans (hsettled.mem.trans hfirst.mem),
      hrest.stage.trans (hsettled.stage.trans hfirst.stage), hrest.pending.trans (hsettled.pending.trans hfirst.pending)⟩

/-- A table after the bar lines' transfer. -/
def CurveTable.taken (c : CurveTable) : CurveTable := if c.commitPending then c.transfer else c

theorem State.transferCurves_table (c : TableId) : s.transferCurves.table c = (s.table c).taken := Bank.look_mapWith ..

theorem State.neighbourTick_table (x : Neighbour) (c : TableId) : (s.neighbourTick o kind x).table c =
    if kind.barLine ∧ x = .shaper then (s.table c).taken else s.table c := by
  have hkept : ∀ {t : State}, Kept s t → t.table c = s.table c := fun h => by rw [State.table, h.shaper, State.table]
  cases x with
  | shaper =>
    unfold State.neighbourTick
    dsimp only
    split
    · next h => simp [h, State.transferCurves_table]
    · next h => simp [h]
  | calendar => exact (hkept (s.releaseAll_kept o _)).trans (if_neg (by simp)).symm
  | players => exact (hkept (s.playersTick_kept o _)).trans (if_neg (by simp)).symm
  | dampers => exact (if_neg (by simp)).symm

/-- The marked tables are transferred once at a bar line, in whatever order the neighbours take it. -/
theorem State.neighboursTick_table (l : List Neighbour) (c : TableId) : (State.neighboursTick o kind l s).table c =
    if kind.barLine ∧ Neighbour.shaper ∈ l then (s.table c).taken else s.table c := by
  induction l generalizing s with
  | nil => simp [State.neighboursTick]
  | cons x rest ih =>
    have hsettled : ((s.neighbourTick o kind x).settleAtBlock o).table c = (s.neighbourTick o kind x).table c := by
      rw [State.table, (State.settleAtBlock_kept _ o).shaper, State.table]
    have htwice : (s.table c).taken.taken = (s.table c).taken := CurveTable.transfer_transfer _
    refine (ih _).trans ?_
    rw [hsettled, State.neighbourTick_table]
    by_cases hbar : kind.barLine = true <;> by_cases hx : x = .shaper <;> by_cases hmem : Neighbour.shaper ∈ rest <;>
      simp [hbar, hx, hmem, htwice, eq_comm (a := Neighbour.shaper)]

variable (measured : Option Nat)

theorem State.expire_kept : Kept { s with timeline := (s.timeline.tick s.now measured).1, shaper := (s.expire o measured).shaper }
    (s.expire o measured) := by
  unfold State.expire
  have hsettled := State.settle_kept (State.neighboursTick o (s.timeline.tick s.now measured).2
    (arrange o.blocks [.shaper, .calendar, .players, .dampers])
    (if (s.timeline.tick s.now measured).2.barLine then
      ({ s with timeline := (s.timeline.tick s.now measured).1 } : State).raiseAll .barLine
    else { s with timeline := (s.timeline.tick s.now measured).1 }))
  rw [hsettled.shaper]
  refine Kept.trans (.trans ?_ (State.neighboursTick_kept _ _ _ _)) hsettled
  split <;> exact ⟨rfl, rfl, rfl, rfl, rfl, rfl, rfl, rfl, rfl, rfl⟩

theorem State.expire_table (c : TableId) : (s.expire o measured).table c =
    if (s.timeline.tick s.now measured).2.barLine then (s.table c).taken else s.table c := by
  unfold State.expire
  rw [State.table, (State.settle_kept _).shaper, ← State.table, State.neighboursTick_table]
  have hmem : Neighbour.shaper ∈ arrange o.blocks [.shaper, .calendar, .players, .dampers] := mem_arrange.2 (by simp)
  cases (s.timeline.tick s.now measured).2.barLine <;> simp [hmem] <;> rfl

/-- BAR_LINE stands in every port's pending set after a bar line. -/
theorem State.expire_barLine (h : (s.timeline.tick s.now measured).2.barLine = true) (q : PortId) :
    ((s.expire o measured).port q).pendingNotices.getLsbD 1 = true := by
  unfold State.expire
  rw [if_pos h]
  refine ((State.neighboursTick_link _ o _ _).trans (State.settle_link _)).notices q 1 ?_
  rw [State.raiseAll_port, Port.raise, BitVec.getLsbD_or]
  exact Bool.or_true _

/-- A tick expiry that does not reach the end of the range. -/
theorem State.tick_below (h : s.timeline.position + 1 < maxTick) : s.tick o measured = s.expire o measured := by
  have hposition : (s.expire o measured).timeline.position = s.timeline.position + 1 := by
    rw [State.expire_timeline]
    exact (s.timeline.tick_frame s.now measured).2.1
  rw [State.tick_eq, if_neg]
  rw [hposition]
  exact Nat.not_le.2 h

/-- The tick expiry that reaches the end of the range. -/
theorem State.tick_end (h : s.timeline.position + 1 = maxTick) : s.tick o measured = (s.expire o measured).stopTimeline .rangeEnd := by
  have hposition : (s.expire o measured).timeline.position = s.timeline.position + 1 := by
    rw [State.expire_timeline]
    exact (s.timeline.tick_frame s.now measured).2.1
  rw [State.tick_eq, if_pos]
  rw [hposition, h]

end

/-- The timeline that the end of the tick range has stopped (R13), with every hold gone. -/
structure State.RangeEnded (t : State) : Prop where
  position : t.timeline.position = maxTick
  state : t.timeline.state = .stopped
  reason : t.timeline.stopReason = .rangeEnd
  tickDue : t.timeline.tickDue = none
  lossDue : t.timeline.lossDue = none
  lastPulse : t.timeline.lastPulse = none
  pendingPeriod : t.timeline.pendingPeriod = none
  holds : ∀ u, (t.damper u).holds = []

section
variable {s : State} {o : Interleaving} {measured : Option Nat}

theorem State.tick_rangeEnded (h : s.timeline.position + 1 = maxTick) : (s.tick o measured).RangeEnded := by
  have hposition := (s.timeline.tick_frame s.now measured).2.1
  rw [State.tick_end s o measured h]
  refine ⟨?_, rfl, rfl, rfl, rfl, rfl, ?_, fun u => ?_⟩
  · show ((s.expire o measured).timeline.stop .rangeEnd).position = maxTick
    rw [State.expire_timeline, Timeline.stop]
    exact (Timeline.adoptPending_position _).trans (hposition.trans h)
  · exact Timeline.adoptPending_pendingPeriod _
  · rw [State.stopTimeline, State.allDampers_damper, Damper.stopped_holds]

/-! ## Crossing a beat boundary (R17) -/

theorem State.catchUp_rangeEnded {n : Nat} (hstate : s.timeline.state = .running) (hlt : s.timeline.position < maxTick)
    (hend : maxTick ≤ s.timeline.position + n) : (State.catchUp o measured n s).RangeEnded := by
  induction n generalizing s with
  | zero => omega
  | succ n ih =>
    have hmoving : s.timeline.state ≠ .stopped := by
      rw [hstate]
      nofun
    rw [State.catchUp, if_neg hmoving]
    by_cases hlast : s.timeline.position + 1 = maxTick
    · have hended := State.tick_rangeEnded (o := o) (measured := if n = 0 then measured else none) hlast
      cases n with
      | zero => exact hended
      | succ n =>
        rw [State.catchUp, if_pos hended.state]
        exact hended
    · obtain ⟨fstate, fposition, -⟩ := s.timeline.tick_frame s.now (if n = 0 then measured else none)
      have hbelow := State.tick_below s o (if n = 0 then measured else none) (by omega)
      have htimeline : (s.tick o (if n = 0 then measured else none)).timeline =
          (s.timeline.tick s.now (if n = 0 then measured else none)).1 := by rw [hbelow, State.expire_timeline]
      refine ih ?_ ?_ ?_ <;> rw [htimeline]
      · exact fstate.trans hstate
      · omega
      · omega

theorem State.catchUp_now (n : Nat) : (State.catchUp o measured n s).now = s.now := by
  induction n generalizing s with
  | zero => rfl
  | succ n ih =>
    unfold State.catchUp
    split
    · rfl
    · rw [ih, State.tick_now]

/-- The crossing's timeline: the ticks before the boundary advance it, and the last takes the measured period. -/
theorem State.catchUp_timeline {n : Nat} (hmoving : s.timeline.state ≠ .stopped)
    (hboundary : s.timeline.position % 240 + n + 1 ≤ 240) (hlt : s.timeline.position + n + 1 < maxTick) :
    (State.catchUp o measured (n + 1) s).timeline =
      (({ s.timeline.adoptPending with position := s.timeline.position + n } : Timeline).tick s.now measured).1 := by
  induction n generalizing s with
  | zero =>
    have hadopted : ({ s.timeline.adoptPending with position := s.timeline.position + 0 } : Timeline).advanced = s.timeline.advanced := by
      unfold Timeline.advanced
      rw [Timeline.adoptPending]
      simp
    have htick : ({ s.timeline.adoptPending with position := s.timeline.position + 0 } : Timeline).tick s.now measured =
        s.timeline.tick s.now measured := by rw [Timeline.tick_eq, hadopted, Timeline.tick_eq]
    rw [State.catchUp, if_neg hmoving, htick]
    show (State.catchUp o measured 0 (s.tick o measured)).timeline = _
    rw [State.catchUp, State.tick_below s o measured hlt, State.expire_timeline]
  | succ n ih =>
    have hoff : s.timeline.tick s.now none = (s.timeline.advanced, { beat := false, barLine := false }) :=
      Timeline.tick_offBeat (by omega)
    have htimeline : (s.tick o none).timeline = s.timeline.advanced := by
      rw [State.tick_below s o none (by omega), State.expire_timeline, hoff]
    have hposition : s.timeline.advanced.position = s.timeline.position + 1 := rfl
    have hadopted : s.timeline.advanced.adoptPending = s.timeline.advanced := by
      rw [Timeline.adoptPending]
      simp [Timeline.advanced]
    rw [State.catchUp, if_neg hmoving]
    show (State.catchUp o measured (n + 1) (s.tick o none)).timeline = _
    rw [ih (s := s.tick o none)]
    · rw [htimeline, State.tick_now, hadopted, hposition, Nat.add_assoc, Nat.add_comm 1 n]
      rfl
    · rw [htimeline]
      exact fun h => hmoving ((Timeline.adoptPending_state _).symm.trans h)
    · rw [htimeline, hposition]
      omega
    · rw [htimeline, hposition]
      omega

end

/-! ## The counter's expiry (R2, R18) -/

section
variable {s : State} {w : When} {due : Nat}

/-- The counter's expiry taken as a tick expiry. -/
theorem exec_tickExpiry_ticks (hreset : s.power.inReset = false) (hdue : s.timeline.tickDue = some due)
    (hticks : s.timeline.source = .internal ∨ s.timeline.position % 240 ≠ 239) :
    exec (.tickExpiry w) s = .next ((s.reach (max ((due + 4) / 8) w.time)).counterTick w.order due) := by
  have hexpiry : s.timeline.expiryTime = some ((due + 4) / 8) := by
    unfold Timeline.expiryTime
    rw [hdue]
    rfl
  have hnot : (s.timeline.source = .sync && s.timeline.tickInBeat = 239) = false := by
    obtain h | h := hticks
    · simp [h]
    · simp [Timeline.tickInBeat, h]
  show Host.Outcome.next (timerEvent w s.timeline.expiryTime _ s) = _
  rw [hexpiry, timerEvent_open hreset]
  unfold State.counterExpires
  simp only [State.reach_timeline, hdue]
  exact congrArg Host.Outcome.next (if_neg (Bool.eq_false_iff.1 hnot))

variable {o : Interleaving}

theorem State.counterTick_below (hstate : s.timeline.state = .running) (hlt : s.timeline.position + 1 < maxTick) :
    s.counterTick o due = (s.expire o none).modTimeline (fun t => { t with tickDue := some (due + t.period) }) := by
  have hrunning : (s.expire o none).timeline.state = .running := by
    rw [State.expire_timeline]
    exact (s.timeline.tick_frame s.now none).1.trans hstate
  unfold State.counterTick
  dsimp only
  rw [State.tick_below s o none hlt, if_pos hrunning]

theorem State.counterTick_end (hlast : s.timeline.position + 1 = maxTick) : (s.counterTick o due).RangeEnded := by
  have hended := State.tick_rangeEnded (s := s) (o := o) (measured := none) hlast
  unfold State.counterTick
  dsimp only
  rw [if_neg]
  · exact hended
  · rw [hended.state]
    nofun

end

/-! ## A pulse on SYNC_IN (R16, R17) -/

section
variable {s : State} {o : Interleaving}

theorem State.syncPulse_ignored (h : s.timeline.source = .internal ∨ s.timeline.state = .stopped) : s.syncPulse o = s :=
  if_pos (by simpa using h)

/-- A pulse within 100,000 µs of the last. -/
theorem State.syncPulse_close (hsync : s.timeline.source = .sync) (hmoving : s.timeline.state ≠ .stopped) {last : Nat}
    (hlast : s.timeline.lastPulse = some last) (hclose : s.now - last < 100000) : s.syncPulse o = s := by
  unfold State.syncPulse
  rw [if_neg (by simp [hsync, hmoving]), hlast]
  exact if_pos hclose

/-- A pulse that is not ignored is noted, and the timeline crosses with the period it measures. -/
theorem State.syncPulse_crosses (hsync : s.timeline.source = .sync) (hmoving : s.timeline.state ≠ .stopped)
    (hapart : ∀ last, s.timeline.lastPulse = some last → 100000 ≤ s.now - last) : s.syncPulse o =
      (s.modTimeline (fun t => { t with
        lastPulse := some s.now
        lastInterval := s.timeline.lastPulse.elim t.lastInterval (fun last => min 4000000 (s.now - last)) })).crossBeat o
        (s.timeline.lastPulse.map (fun last => measuredPeriod (s.now - last))) := by
  unfold State.syncPulse
  rw [if_neg (by simp [hsync, hmoving])]
  cases hlast : s.timeline.lastPulse with
  | none => rfl
  | some last => exact if_neg (Nat.not_lt.2 (hapart last hlast))

/-- A crossing that the end of the range stops. -/
theorem State.crossBeat_rangeEnded {measured : Option Nat} (hmoving : s.timeline.state ≠ .held)
    (hlt : s.timeline.position < maxTick) (hend : maxTick ≤ s.timeline.position + (240 - s.timeline.position % 240)) :
    (s.crossBeat o measured).RangeEnded := by
  have hended : (s.crossed o measured).RangeEnded := by
    unfold State.crossed
    rw [if_neg hmoving]
    exact State.catchUp_rangeEnded rfl hlt hend
  rw [State.crossBeat_eq, if_neg]
  · exact hended
  · rw [hended.state]
    nofun

/-- A crossing below the end of the range: the last tick's own update, and the counter started with a full period. -/
theorem State.crossBeat_timeline {measured : Option Nat} (hheld : s.timeline.state = .held → s.timeline.position % 240 = 239)
    (hend : s.timeline.position - s.timeline.position % 240 + 240 < maxTick) :
    ∃ y : Timeline, y = { s.timeline.adoptPending with
        position := s.timeline.position - s.timeline.position % 240 + 239, state := .running, tickDue := none, lossDue := none } ∧
      (s.crossBeat o measured).timeline =
        { (y.tick s.now measured).1 with tickDue := some (s.now * 8 + (y.tick s.now measured).1.period) } := by
  let u := s.modTimeline (fun t => { t with state := .running, tickDue := none, lossDue := none })
  have hmod := Nat.mod_lt s.timeline.position (show 0 < 240 by decide)
  have hle := Nat.mod_le s.timeline.position 240
  have hsub : 240 - s.timeline.position % 240 = 239 - s.timeline.position % 240 + 1 := by omega
  have hcount : (if s.timeline.state = .held then 1 else 240 - s.timeline.tickInBeat) = 239 - s.timeline.position % 240 + 1 := by
    split
    · next h => rw [hheld h]
    · exact hsub
  have hcrossed : (s.crossed o measured).timeline = (({ u.timeline.adoptPending with
      position := u.timeline.position + (239 - u.timeline.position % 240) } : Timeline).tick u.now measured).1 := by
    unfold State.crossed
    rw [hcount]
    have hboundary : s.timeline.position % 240 + (239 - s.timeline.position % 240) + 1 ≤ 240 := by omega
    have hbelow : s.timeline.position + (239 - s.timeline.position % 240) + 1 < maxTick := by omega
    exact State.catchUp_timeline (s := u) (by nofun) hboundary hbelow
  have hy : ({ u.timeline.adoptPending with position := u.timeline.position + (239 - u.timeline.position % 240) } : Timeline) =
      { s.timeline.adoptPending with
        position := s.timeline.position - s.timeline.position % 240 + 239, state := .running, tickDue := none, lossDue := none } := by
    have hposition : s.timeline.position + (239 - s.timeline.position % 240) =
        s.timeline.position - s.timeline.position % 240 + 239 := by omega
    show ({ ({ s.timeline with state := .running, tickDue := none, lossDue := none } : Timeline).adoptPending with
      position := s.timeline.position + (239 - s.timeline.position % 240) } : Timeline) = _
    rw [hposition]
    unfold Timeline.adoptPending
    dsimp only
    split <;> rfl
  rw [hy] at hcrossed
  have hrunning : (s.crossed o measured).timeline.state = .running := by
    rw [hcrossed]
    exact (Timeline.tick_frame _ _ _).1
  refine ⟨_, rfl, ?_⟩
  have hnow : (s.crossed o measured).now = s.now := by
    unfold State.crossed
    rw [State.catchUp_now]
    rfl
  rw [State.crossBeat_eq, if_pos hrunning, State.startCounter, State.modTimeline_timeline, hcrossed, hnow]
  rfl

end

/-- Settles O38: the tick's own update by its kind, and the end of the range. -/
theorem tickExpiryAdvancesTheTimeline : Obligations.TickExpiryAdvancesTheTimeline := by
  refine ⟨fun w s due hreset hstate hdue hticks hlt => ?tick, fun w s => ?ends⟩
  case tick =>
    intro x now beat
    let u := s.reach (max ((due + 4) / 8) w.time)
    let y := (x.tick now none).1
    have htimeline : (u.expire w.order none).timeline = y := u.expire_timeline w.order none
    have hkept := u.expire_kept w.order none
    obtain ⟨fstate, fposition, fsource, -, -, fpending⟩ := x.tick_frame now none
    obtain ⟨fconductor, -⟩ := Timeline.tick_rest (t := x) (now := now) (measured := none)
    have hexec := (exec_tickExpiry_ticks (w := w) hreset hdue hticks).trans
      (congrArg Host.Outcome.next (State.counterTick_below (s := u) (o := w.order) (due := due) hstate hlt))
    refine ⟨_, hexec, hkept.now, ?_⟩
    rw [State.modTimeline_timeline, htimeline]
    refine ⟨fposition, fstate.trans hstate, fpending, rfl, fsource, fconductor, fun c => ⟨?_, ?_, fun h => ?_⟩, fun h => ?_,
      fun r hbeat hr => ?_, fun hoff => ?_, fun hbeat => ?_, fun hbeat hbar => ?_, fun hbeat hbar => ?_, hkept.mem, hkept.stage,
      hkept.quotas, hkept.bars⟩
    · exact (x.tick_sameTimes now none c).1
    · exact (x.tick_sameTimes now none c).2
    · have hleads : (y.times c).leadTicks = leadTicksOf (y.times c).lead y.period :=
        Timeline.tick_leads_of x now (h.imp_right fun h => h) c
      show (y.times c).leadTicks = ((x.times c).lead * 8 + y.period - 1) / y.period
      rw [hleads, (x.tick_sameTimes now none c).1]
      rfl
    · have hperiod : y.period = x.pendingPeriod.getD x.period ∧ y.tempo = x.tempo ∧ y.ramp = x.ramp := by
        by_cases hbeat : beat
        · have hnone : x.ramp = none := h.resolve_right fun hoff => hoff hbeat
          obtain ⟨htempo, hperiod⟩ := Timeline.tick_without_ramp (t := x) now hnone
          refine ⟨hperiod, htempo, (Timeline.tick_onBeat hbeat).2.2.1.trans ?_⟩
          rw [Timeline.onBeat_ramp_none _ _ _ (by rw [Timeline.advanced_frame]; exact hnone), hnone]
        · show (x.tick now none).1.period = _ ∧ (x.tick now none).1.tempo = _ ∧ (x.tick now none).1.ramp = _
          rw [Timeline.tick_offBeat hbeat, ← Timeline.advanced_period, Timeline.advanced_frame]
          exact ⟨rfl, rfl, rfl⟩
      exact hperiod
    · have hramp : x.advanced.ramp = some r := by
        rw [Timeline.advanced_frame]
        exact hr
      have hstep : (x.advanced.onBeat now none) = { x.advanced.adopt (tempoPeriod (r.tempoAt (r.done + 1))) with
          tempo := r.tempoAt (r.done + 1)
          ramp := if r.length ≤ r.done + 1 then none else some { r with done := r.done + 1 }
          syncOutEnd := some (now + 1000) } := by
        unfold Timeline.onBeat Timeline.rampStep
        rw [hramp]
      obtain ⟨htempo, hperiod, hnext, -⟩ := Timeline.tick_onBeat (now := now) (measured := none) hbeat
      rw [hstep] at htempo hperiod hnext
      exact ⟨htempo, hperiod, hnext⟩
    · show (x.tick now none).1.beatInBar = _ ∧ (x.tick now none).1.barNumber = _ ∧ (x.tick now none).1.beatsPerBar = _ ∧
        (x.tick now none).1.pendingMeter = _ ∧ (x.tick now none).1.syncOutEnd = _
      rw [Timeline.tick_offBeat hoff, Timeline.advanced_frame]
      exact ⟨rfl, rfl, rfl, rfl, rfl⟩
    · exact (Timeline.tick_onBeat hbeat).2.2.2.trans Timeline.onBeat_syncOutEnd
    · show (x.tick now none).1.beatInBar = _ ∧ (x.tick now none).1.barNumber = _ ∧ (x.tick now none).1.beatsPerBar = _ ∧
        (x.tick now none).1.pendingMeter = _
      rw [Timeline.tick_inBar hbeat hbar, Timeline.onBeat_frame, Timeline.advanced_frame]
      exact ⟨rfl, rfl, rfl, rfl⟩
    · have hline := Timeline.tick_atBarLine (now := now) (measured := none) hbeat hbar
      have hfields : y.beatInBar = 0 ∧ y.barNumber = (x.barNumber + 1) % 65536 ∧ y.beatsPerBar = x.pendingMeter.getD x.beatsPerBar ∧
          y.pendingMeter = none := by
        show (x.tick now none).1.beatInBar = _ ∧ (x.tick now none).1.barNumber = _ ∧ (x.tick now none).1.beatsPerBar = _ ∧
          (x.tick now none).1.pendingMeter = _
        rw [hline, Timeline.onBeat_frame, Timeline.advanced_frame]
        exact ⟨rfl, rfl, rfl, rfl⟩
      obtain ⟨hbeatInBar, hbarNumber, hbeats, hmeter⟩ := hfields
      have hbarLine : (u.timeline.tick u.now none).2.barLine = true := congrArg (fun k : Timeline × TickKind => k.2.barLine) hline
      refine ⟨hbeatInBar, hbarNumber, hbeats, hmeter, fun q => ?_, fun c => ?_⟩
      · have hbit := u.expire_barLine w.order none hbarLine q
        intro hzero
        have hclear := congrArg (fun b : Byte => b.getLsbD 1) hzero
        simp only [BitVec.getLsbD_and] at hclear
        rw [show (State.port (State.modTimeline _ (u.expire w.order none)) q) = (u.expire w.order none).port q from rfl, hbit] at hclear
        cases hclear
      · exact (u.expire_table w.order none c).trans (if_pos hbarLine)
  case ends =>
    intro ends hreset hstate
    refine ⟨fun due hdue hlast => ?_, fun hsync hnear hlt hapart => ?_⟩
    · have hexec := exec_tickExpiry_ticks (w := w) hreset hdue (.inr (by omega))
      obtain ⟨h1, h2, h3, h4, h5, h6, h7, h8⟩ := State.counterTick_end (s := s.reach (max ((due + 4) / 8) w.time)) (o := w.order) (due := due)
        (show s.timeline.position + 1 = maxTick by rw [hlast]; rfl)
      exact ⟨_, hexec, h1, h2, h3, h4, h5, h6, h7, h8⟩
    · have hmoving : s.timeline.state ≠ .stopped := by
        rw [hstate]
        nofun
      have hexec : exec (.syncInPulse w) s = .next ((s.reach w.time).syncPulse w.order) :=
        congrArg Host.Outcome.next (event_open hreset _ _)
      rw [State.syncPulse_crosses (s := s.reach w.time) hsync hmoving hapart] at hexec
      obtain ⟨h1, h2, h3, h4, h5, h6, h7, h8⟩ := State.crossBeat_rangeEnded (o := w.order)
        (s := (s.reach w.time).modTimeline (fun t => { t with
          lastPulse := some (s.reach w.time).now
          lastInterval := (s.reach w.time).timeline.lastPulse.elim t.lastInterval
            (fun last => min 4000000 ((s.reach w.time).now - last)) }))
        (measured := (s.reach w.time).timeline.lastPulse.map (fun last => measuredPeriod ((s.reach w.time).now - last)))
        (fun h => by cases hstate.symm.trans h) hlt (show 4294967295 ≤ s.timeline.position + (240 - s.timeline.position % 240) by omega)
      exact ⟨_, hexec, h1, h2, h3, h4, h5, h6, h7, h8⟩

section
variable {s : State} {w : When} {due : Nat}

/-- The counter's expiry at the last tick of a beat in SYNC mode. -/
theorem exec_tickExpiry_held (hreset : s.power.inReset = false) (hdue : s.timeline.tickDue = some due)
    (hsync : s.timeline.source = .sync) (hlast : s.timeline.position % 240 = 239) :
    exec (.tickExpiry w) s = .next (s.reach (max ((due + 4) / 8) w.time)).enterHeld := by
  have hexpiry : s.timeline.expiryTime = some ((due + 4) / 8) := by
    unfold Timeline.expiryTime
    rw [hdue]
    rfl
  have hheld : (s.timeline.source = .sync && s.timeline.tickInBeat = 239) = true := by
    simp [hsync, Timeline.tickInBeat, hlast]
  show Host.Outcome.next (timerEvent w s.timeline.expiryTime _ s) = _
  rw [hexpiry, timerEvent_open hreset]
  unfold State.counterExpires
  simp only [State.reach_timeline, hdue]
  exact congrArg Host.Outcome.next (if_pos hheld)

end

/-- What a crossing leaves of a timeline without a ramp, below the end of the range. -/
theorem State.crossBeat_facts {s : State} (o : Interleaving) (measured : Option Nat) (hramp : s.timeline.ramp = none)
    (hheld : s.timeline.state = .held → s.timeline.position % 240 = 239)
    (hend : s.timeline.position - s.timeline.position % 240 + 240 < maxTick) :
    let x := (s.crossBeat o measured).timeline
    x.position = s.timeline.position - s.timeline.position % 240 + 240 ∧ x.state = .running ∧ x.source = s.timeline.source ∧
    x.lastPulse = s.timeline.lastPulse ∧ x.lastInterval = s.timeline.lastInterval ∧ x.lossDue = none ∧
    x.syncOutEnd = some (s.now + 1000) ∧ x.tickDue = some (s.now * 8 + x.period) ∧
    x.period = measured.getD (s.timeline.pendingPeriod.getD s.timeline.period) := by
  obtain ⟨y, hy, hx⟩ := State.crossBeat_timeline (o := o) (measured := measured) hheld hend
  have hmod := Nat.mod_lt s.timeline.position (show 0 < 240 by decide)
  have hle := Nat.mod_le s.timeline.position 240
  have hboundary : (y.position + 1) % 240 = 0 := by
    rw [hy]
    show (s.timeline.position - s.timeline.position % 240 + 239 + 1) % 240 = 0
    omega
  have hyramp : y.ramp = none := by
    rw [hy]
    exact (Timeline.adoptPending_ramp _).trans hramp
  have hyperiod : y.pendingPeriod.getD y.period = s.timeline.pendingPeriod.getD s.timeline.period := by
    rw [hy]
    show s.timeline.adoptPending.pendingPeriod.getD s.timeline.adoptPending.period = _
    rw [Timeline.adoptPending_pendingPeriod, ← Timeline.advanced_period]
    rfl
  have hperiod : (y.tick s.now measured).1.period = measured.getD (s.timeline.pendingPeriod.getD s.timeline.period) := by
    cases measured with
    | none => exact (Timeline.tick_without_ramp s.now hyramp).2.trans hyperiod
    | some p =>
      rw [(Timeline.tick_onBeat hboundary).2.1]
      rfl
  have hrest : y.source = s.timeline.source ∧ y.lastPulse = s.timeline.lastPulse ∧ y.lastInterval = s.timeline.lastInterval := by
    rw [hy, Timeline.adoptPending_frame]
    exact ⟨rfl, rfl, rfl⟩
  obtain ⟨hsource, hpulse, hinterval⟩ := hrest
  obtain ⟨fstate, fposition, fsource, -, floss, -⟩ := y.tick_frame s.now measured
  obtain ⟨-, fpulse, finterval⟩ := Timeline.tick_rest (t := y) (now := s.now) (measured := measured)
  intro x
  have hxeq : x = { (y.tick s.now measured).1 with tickDue := some (s.now * 8 + (y.tick s.now measured).1.period) } := hx
  rw [hxeq]
  refine ⟨fposition.trans ?_, fstate.trans ?_, fsource.trans hsource, fpulse.trans hpulse, finterval.trans hinterval,
    floss.trans ?_, (Timeline.tick_onBeat hboundary).2.2.2.trans Timeline.onBeat_syncOutEnd, rfl, hperiod⟩
  all_goals rw [hy]

/-- Settles O39, event by event. -/
theorem syncModeFollowsThePulses : Obligations.SyncModeFollowsThePulses := by
  intro w s hreset x now
  have hpulse : exec (.syncInPulse w) s = .next ((s.reach w.time).syncPulse w.order) :=
    congrArg Host.Outcome.next (event_open hreset _ _)
  refine ⟨fun due hdue hsync hlast => ?_, fun h => ?_, fun last hsync hmoving hlast hclose => ?_,
    fun hsync hmoving hsound hapart hend => ?cross, fun due hdue hheld hsound hend => ?lost, fun due hdue => ?_⟩
  · exact exec_tickExpiry_held hreset hdue hsync hlast
  · rw [hpulse, State.syncPulse_ignored (s := s.reach w.time) h]
    rfl
  · rw [hpulse, State.syncPulse_close (s := s.reach w.time) hsync hmoving hlast hclose]
    rfl
  case cross =>
    have hramp : x.ramp = none := (State.timelineSound_iff.1 hsound).ramp hsync
    let u := (s.reach w.time).modTimeline (fun t => { t with
      lastPulse := some now, lastInterval := x.lastPulse.elim t.lastInterval (fun last => min 4000000 (now - last)) })
    obtain ⟨hposition, hstate, hsource, hlast, hinterval, hloss, hsyncOut, htick, hperiod⟩ :=
      State.crossBeat_facts (s := u) w.order (x.lastPulse.map (fun last => measuredPeriod (now - last))) hramp
        (fun h => ((State.timelineSound_iff.1 hsound).held h).2) hend
    rw [State.syncPulse_crosses (s := s.reach w.time) hsync hmoving hapart] at hpulse
    refine ⟨_, hpulse, hposition, hstate, hsource.trans hsync, hlast, hloss, hsyncOut, htick, fun last h => ⟨?_, ?_⟩, fun h => ⟨?_, ?_⟩⟩
    · exact hinterval.trans (congrArg (fun l : Option Nat => l.elim x.lastInterval (fun last => min 4000000 (now - last))) h)
    · exact hperiod.trans (congrArg (fun l : Option Nat => (l.map (fun last => measuredPeriod (now - last))).getD
        (x.pendingPeriod.getD x.period)) h)
    · exact hinterval.trans (congrArg (fun l : Option Nat => l.elim x.lastInterval (fun last => min 4000000 (now - last))) h)
    · exact hperiod.trans (congrArg (fun l : Option Nat => (l.map (fun last => measuredPeriod (now - last))).getD
        (x.pendingPeriod.getD x.period)) h)
  case lost =>
    obtain ⟨hranges, -, -, hboundary, -⟩ := State.timelineSound_iff.1 hsound
    obtain ⟨hsync, hlast⟩ := hboundary hheld
    let v := s.reach (max due w.time)
    let u := v.modTimeline Timeline.toInternal
    have hexec : exec (.lossTimerExpiry w) s = .next ((u.crossBeat w.order none).raiseAll .syncLost) := by
      show Host.Outcome.next (timerEvent w s.timeline.lossDue _ s) = _
      rw [hdue, timerEvent_open hreset]
      exact congrArg (fun t : State => Host.Outcome.next (t.raiseAll .syncLost)) (if_pos hheld)
    have hbeat : x.position - x.position % 240 + 240 = x.position + 1 := by
      have hmod : x.position % 240 = 239 := hlast
      omega
    have hramp : u.timeline.ramp = none := hranges.ramp hsync
    have htempo := (Timeline.tick_without_ramp (t := { u.timeline with state := .running, tickDue := none, lossDue := none }) u.now hramp).1
    have hpending := (Timeline.tick_frame (t := { u.timeline with state := .running, tickDue := none, lossDue := none }) u.now none).2.2.2.2.2
    have htimeline := u.crossBeat_held w.order none hheld hend
    obtain ⟨hposition, hstate, hsource, hpulse, -, hloss, -, htick, hperiod⟩ :=
      State.crossBeat_facts (s := u) w.order none hramp (fun _ => hlast)
        (hbeat.trans_lt hend)
    refine ⟨_, hexec, hsource, hstate, ?_, hperiod, ?_, hpulse, ?_, hloss, htick, fun q => ?_⟩
    · show (u.crossBeat w.order none).timeline.tempo = _
      rw [htimeline]
      exact htempo
    · show (u.crossBeat w.order none).timeline.pendingPeriod = _
      rw [htimeline]
      exact hpending
    · exact hposition.trans hbeat
    · rw [State.raiseAll_port]
      intro hzero
      have hclear := congrArg (fun b : Byte => b.getLsbD 4) hzero
      simp [Port.raise, Notice.mask] at hclear
  · show Host.Outcome.next (timerEvent w s.timeline.syncOutEnd _ s) = _
    rw [show s.timeline.syncOutEnd = some due from hdue, timerEvent_open hreset]
    rfl

end Sys2Proof.Machine
end

section
/-! SUPPORT. The damper units (R95 to R106): holds that arrive and leave, the units' timers, and a tick expiry that finds no stroke
and no phrase. -/
namespace Sys2Proof.Machine

/-! ## Holds that arrive and leave (R95, R97, R101) -/

/-- An endless hold stands last. -/
theorem admitHold_endless {h : Hold} (hend : h.endTick = none) (l : List Hold) :
    admitHold h l = (if l.length < 16 then l else l.drop 1) ++ [h] := by
  have hinsert : ∀ l : List Hold, insertHold h l = l ++ [h] := by
    intro l
    induction l with
    | nil => rfl
    | cons a rest ih =>
      have hbefore : h.before a = false := by
        unfold Hold.before
        rw [hend]
      rw [insertHold, hbefore, if_neg Bool.false_ne_true, ih]
      rfl
  unfold admitHold
  rw [hinsert]
  by_cases hlong : l.length < 16
  · rw [if_pos hlong, if_neg (Nat.not_le.2 hlong)]
  · rw [if_neg hlong, if_pos (Nat.not_lt.1 hlong)]

theorem Damper.arrive_eq (now : Nat) (h : Hold) (d : Damper) : d.arrive now h = { d with
    holds := admitHold h d.holds
    state := if d.state = .clamped then .lifting else d.state
    liftEnd := if d.state = .clamped then some (now + d.lift) else d.liftEnd } := by
  unfold Damper.arrive
  dsimp only
  split <;> rfl

/-- A unit that begins CLAMPING. -/
def Damper.clamping (now : Nat) (d : Damper) : Damper :=
  { d with state := .clamping, clampEnd := some (now + d.clamp), liftEnd := none, openSince := none, minPassed := false }

theorem Damper.settleOpen_eq (now : Nat) (d : Damper) :
    d.settleOpen now = if d.state = .opened && d.holds.isEmpty && d.minDone now then d.clamping now else d := rfl

theorem Damper.drop_eq (now : Nat) (gone : Hold → Bool) (d : Damper) : d.drop now gone =
    let left := d.holds.filter (fun h => !gone h)
    if d.holds.any gone then
      (if d.state = .opened && left.isEmpty && d.minDone now then { d with holds := left }.clamping now else { d with holds := left })
    else d := rfl

/-- Holds dropped once are dropped. -/
theorem Damper.drop_drop (now : Nat) (gone : Hold → Bool) (d : Damper) : (d.drop now gone).drop now gone = d.drop now gone := by
  have hnone : ∀ x : Damper, x.holds = d.holds.filter (fun h => !gone h) → x.drop now gone = x := by
    intro x hx
    have hany : x.holds.any gone = false := by
      rw [hx, List.any_eq_false]
      intro h hmem
      simpa using (List.mem_filter.1 hmem).2
    unfold Damper.drop
    rw [hany, if_neg Bool.false_ne_true]
  by_cases h : d.holds.any gone = true
  · refine hnone _ ?_
    unfold Damper.drop
    rw [if_pos h, Damper.settleOpen_holds]
  · have hsame : d.drop now gone = d := if_neg h
    rw [hsame, hsame]

/-! ## PEDAL (R97) -/

theorem sum_ite_eq_countP {α : Type} (p : α → Bool) (l : List α) : (l.map (fun x => if p x = true then 1 else 0)).sum = l.countP p := by
  induction l with
  | nil => rfl
  | cons x l ih =>
    rw [List.map_cons, List.sum_cons, ih, List.countP_cons]
    omega

section
variable {w : When} {p : PortId} {s : State} {v : VoiceId} {named : Option UnitId}

theorem pedalResult_down : pedalResult p (BitVec.ofNat 8 v.1) (fieldOf named) 0#8 s =
    if s.owns p v then (if s.stage.stage ≠ .playing then refuse .stage s else s.pedalDown v named) else refuse .owner s := by
  unfold pedalResult
  rw [optionalId_fieldOf (by decide), show fieldBool 0#8 = some false from rfl]
  exact forVoice_ofNat _ v _ s

theorem pedalResult_up : pedalResult p (BitVec.ofNat 8 v.1) (fieldOf named) 1#8 s =
    if s.owns p v then s.pedalUp v named else refuse .owner s := by
  unfold pedalResult
  rw [optionalId_fieldOf (by decide), show fieldBool 1#8 = some true from rfl]
  exact forVoice_ofNat _ v _ s

end

theorem State.namedDampers_taken {w : When} {p : PortId} {s : State} {named : Option UnitId} {f : Damper → Damper}
    {g : UnitId → Damper → Damper} (h : ∀ u d, (if named = none ∨ named = some u then f d else d) = g u d) :
    (s.taken w p).namedDampers named f = State.taken w p { s with dampers := s.dampers.mapWith g } := by
  have hg : (fun (u : UnitId) (d : Damper) => if named = none ∨ named = some u then f d else d) = g :=
    funext fun u => funext fun d => h u d
  rw [← hg]
  rfl

/-- Settles O30. -/
theorem pedalPlacesAndRemovesHolds : Obligations.PedalPlacesAndRemovesHolds := by
  intro w p s v named hready now down up chosen hold endless
  have hchosen : ∀ u, chosen u = true ↔ (named = none ∨ named = some u) := fun u => by simp [chosen]
  refine ⟨fun h => ⟨?_, ?_⟩, fun h hstage => ?_, fun h hstage => ?down, fun h => ?up⟩
  · exact exec_refused rfl hready ((pedalResult_down (s := s.taken w p)).trans (if_neg (Bool.eq_false_iff.1 h)))
  · exact exec_refused rfl hready ((pedalResult_up (s := s.taken w p)).trans (if_neg (Bool.eq_false_iff.1 h)))
  · exact exec_refused rfl hready ((pedalResult_down (s := s.taken w p)).trans ((if_pos h).trans (if_pos hstage)))
  case down =>
    have hunits : ((s.taken w p).namedDampers named (Damper.arrive (s.taken w p).now (pedalHold v))) =
        State.taken w p { s with dampers := s.dampers.mapWith (fun (u : UnitId) (d : Damper) => if chosen u then
          { d with
            holds := (if d.holds.length < 16 then d.holds else d.holds.drop 1) ++ [hold]
            state := if d.state = DamperState.clamped then .lifting else d.state
            liftEnd := if d.state = DamperState.clamped then some (now + d.lift) else d.liftEnd }
          else d) } := by
      refine State.namedDampers_taken fun u d => ?_
      rw [Damper.arrive_eq, admitHold_endless (h := pedalHold v) rfl]
      simp only [hchosen]
      rfl
    have hcount : s.sumDampers named (fun _ => 1) = (List.finRange 4).countP chosen := by
      rw [← sum_ite_eq_countP]
      unfold State.sumDampers
      simp only [hchosen]
    have hfull : s.sumDampers named (fun d => if 16 ≤ d.holds.length then 1 else 0) =
        (List.finRange 4).countP (fun u => chosen u && 16 ≤ (s.damper u).holds.length) := by
      rw [← sum_ite_eq_countP]
      unfold State.sumDampers
      simp only [Bool.and_eq_true, decide_eq_true_eq, hchosen, ite_and]
    refine exec_answers rfl hready ((pedalResult_down (s := s.taken w p)).trans
      ((if_pos h).trans ((if_neg (fun g => g hstage)).trans ?_)))
    unfold State.pedalDown
    rw [hunits, ← hcount, ← hfull]
    rfl
  case up =>
    have hunits : ((s.taken w p).namedDampers named (Damper.drop (s.taken w p).now (Hold.pedalOf v))) =
        State.taken w p { s with dampers := s.dampers.mapWith (fun (u : UnitId) (d : Damper) =>
          let left := d.holds.filter (fun h => !endless h)
          let passed := d.minPassed || (match d.openSince with | some t => decide (t + d.minOpen ≤ now) | none => false)
          if chosen u && d.holds.any endless then
            (if d.state = DamperState.opened && left.isEmpty && passed then
              { d with
                holds := left, state := .clamping, clampEnd := some (now + d.clamp), liftEnd := none, openSince := none
                minPassed := false }
            else { d with holds := left })
          else d) } := by
      refine State.namedDampers_taken fun u d => ?_
      rw [Damper.drop_eq]
      simp only [Bool.and_eq_true, hchosen, ite_and]
      rfl
    have hcount : s.sumDampers named (fun d => d.holds.countP (Hold.pedalOf v)) =
        ((List.finRange 4).map (fun u => if chosen u then (s.damper u).holds.countP endless else 0)).sum := by
      unfold State.sumDampers
      simp only [hchosen]
      rfl
    refine exec_answers rfl hready ((pedalResult_up (s := s.taken w p)).trans ((if_pos h).trans ?_))
    unfold State.pedalUp
    rw [hunits, ← hcount]
    rfl

/-! ## A tick expiry that finds no stroke and no phrase -/

/-- No entry, no decision due, and every player IDLE. -/
structure State.Quiet (s : State) : Prop where
  entries : s.entries = []
  decisions : s.decisions = []
  idle : ∀ v, (s.player v).state = .idle

section
variable {s : State} {o : Interleaving}

theorem State.playerTick_idle {v : VoiceId} (h : (s.player v).state = .idle) : s.playerTick o v = s := by
  unfold State.playerTick
  rw [if_neg (by rw [h]; nofun)]
  exact if_neg (by simp [h])

theorem State.playersTick_idle {l : List VoiceId} (h : ∀ v ∈ l, (s.player v).state = .idle) : State.playersTick o l s = s := by
  induction l with
  | nil => rfl
  | cons v rest ih =>
    rw [State.playersTick, State.playerTick_idle (h v (List.mem_cons_self ..))]
    exact ih fun u hu => h u (List.mem_cons_of_mem _ hu)

theorem State.settleAtBlock_nil (h : s.decisions = []) : s.settleAtBlock o = s := by
  unfold State.settleAtBlock
  split
  · rfl
  · exact State.settle_of_nil h

/-- The holds that a tick expiry ends. -/
def pastHold (position : Nat) (h : Hold) : Bool := match h.endTick with
  | some x => decide (x ≤ position)
  | none => false

theorem State.holdEnds_damper (u : UnitId) : s.holdEnds.damper u = (s.damper u).drop s.now (pastHold s.timeline.position) :=
  Bank.look_mapWith ..

/-- In a quiet part a tick expiry is the shaper's and the damper units' alone. -/
theorem State.Quiet.neighbourTick (h : s.Quiet) (kind : TickKind) (x : Neighbour) :
    (s.neighbourTick o kind x).Quiet ∧ ∀ u, (s.neighbourTick o kind x).damper u =
      if x = .dampers then (s.damper u).drop s.now (pastHold s.timeline.position) else s.damper u := by
  cases x with
  | shaper =>
    unfold State.neighbourTick
    dsimp only
    split
    · exact ⟨⟨h.entries, h.decisions, h.idle⟩, fun _ => rfl⟩
    · exact ⟨h, fun _ => rfl⟩
  | calendar =>
    have hnone : s.neighbourTick o kind .calendar = s := by
      unfold State.neighbourTick State.slotsWhere
      dsimp only
      rw [h.entries]
      rfl
    rw [hnone]
    exact ⟨h, fun _ => rfl⟩
  | players =>
    have hnone : s.neighbourTick o kind .players = s := State.playersTick_idle fun v _ => h.idle v
    rw [hnone]
    exact ⟨h, fun _ => rfl⟩
  | dampers => exact ⟨⟨h.entries, h.decisions, h.idle⟩, fun u => State.holdEnds_damper u⟩

theorem State.Quiet.neighboursTick (h : s.Quiet) (kind : TickKind) (l : List Neighbour) :
    (State.neighboursTick o kind l s).Quiet ∧ ∀ u, (State.neighboursTick o kind l s).damper u =
      if Neighbour.dampers ∈ l then (s.damper u).drop s.now (pastHold s.timeline.position) else s.damper u := by
  induction l generalizing s with
  | nil => exact ⟨h, fun _ => rfl⟩
  | cons x rest ih =>
    obtain ⟨hquiet, hunits⟩ := h.neighbourTick (o := o) kind x
    have hsettled := State.settleAtBlock_nil (o := o) hquiet.decisions
    have hnow := s.neighbourTick_now o kind x
    have htimeline := s.neighbourTick_timeline o kind x
    obtain ⟨hlast, hrest⟩ := ih hquiet
    unfold State.neighboursTick
    rw [hsettled]
    refine ⟨hlast, fun u => ?_⟩
    rw [hrest, hunits, hnow, htimeline]
    by_cases hx : x = .dampers <;> by_cases hmem : Neighbour.dampers ∈ rest <;>
      simp [hx, hmem, Damper.drop_drop, eq_comm (a := Neighbour.dampers)]

/-- The damper units after a quiet tick expiry. -/
theorem State.Quiet.expire_damper (h : s.Quiet) (measured : Option Nat) (u : UnitId) : (s.expire o measured).damper u =
    (s.damper u).drop s.now (pastHold (s.timeline.position + 1)) := by
  have hposition := (s.timeline.tick_frame s.now measured).2.1
  let t : State := if (s.timeline.tick s.now measured).2.barLine then
      ({ s with timeline := (s.timeline.tick s.now measured).1 } : State).raiseAll .barLine
    else { s with timeline := (s.timeline.tick s.now measured).1 }
  have ht : t.Quiet ∧ t.now = s.now ∧ t.timeline = (s.timeline.tick s.now measured).1 ∧ t.dampers = s.dampers := by
    cases hline : (s.timeline.tick s.now measured).2.barLine <;> simp only [t, hline] <;>
      exact ⟨⟨h.entries, h.decisions, h.idle⟩, rfl, rfl, rfl⟩
  obtain ⟨hquiet, hnow, htimeline, hdampers⟩ := ht
  obtain ⟨hlast, hunits⟩ := hquiet.neighboursTick (o := o) (s.timeline.tick s.now measured).2
    (arrange o.blocks [.shaper, .calendar, .players, .dampers])
  have hmem : Neighbour.dampers ∈ arrange o.blocks [.shaper, .calendar, .players, .dampers] := mem_arrange.2 (by simp)
  unfold State.expire
  rw [State.settle_of_nil hlast.decisions, hunits, if_pos hmem, hnow, htimeline, hposition, State.damper, hdampers]
  rfl

end

/-! ## A unit's own timers (R99, R101, R102) -/

theorem Damper.lifted_eq (now : Nat) (d : Damper) : d.lifted now =
    if d.holds = [] ∧ d.minOpen = 0 then { d with state := .opened, liftEnd := none, openSince := some now, minPassed := false }.clamping now
    else { d with state := .opened, liftEnd := none, openSince := some now, minPassed := false } := by
  have hdone : ({ d with state := .opened, liftEnd := none, openSince := some now, minPassed := false } : Damper).minDone now = true ↔
      d.minOpen = 0 := by
    simp [Damper.minDone]
  unfold Damper.lifted
  rw [Damper.settleOpen_eq]
  simp only [Bool.and_eq_true, hdone, decide_true, true_and, List.isEmpty_iff]

theorem Damper.minExpired_eq (now : Nat) (d : Damper) (h : d.state = .opened) : d.minExpired now =
    if d.holds = [] then d.clamping now else { d with minPassed := true } := by
  unfold Damper.minExpired
  rw [Damper.settleOpen_eq]
  simp only [h, Damper.minDone, Bool.true_or, Bool.and_true, decide_true, Bool.true_and, List.isEmpty_iff]
  rfl

/-! ## DAMPED (R106) -/

section
variable {s : State} {b : Bar} {u : UnitId}

theorem State.damped_none (h : b.damper = none) : s.damped b = false := by
  unfold State.damped
  rw [h]

theorem State.damped_unit (h : b.damper = some u) : s.damped b = ((s.damper u).openBy s.now).elim true
    (fun t => s.now + (s.timeline.times b.cls).lead < t) := by
  unfold State.damped
  simp only [h]
  cases hopen : (s.damper u).openBy s.now <;> simp

end

/-- Settles O31: the timers, a tick expiry, and DAMPED. -/
theorem damperUnitsFollowTheirTimers : Obligations.DamperUnitsFollowTheirTimers := by
  refine ⟨fun w s u end_ d hreset hd => ?timers, fun w s expiry hreset hdecisions hentries hidle hstate hdue hticks hlt => ?tick,
    fun s b => ⟨State.damped_none, fun u hu => ?damped⟩⟩
  case timers =>
    intro now after
    subst hd
    have htimer : ∀ {c : Instr} {due : Option Nat} {f : Nat → Damper → Damper},
        exec c s = .next (timerEvent w due (fun s => s.modDamper u (f s.now)) s) → due = some end_ →
        exec c s = after (f now (s.damper u)) := by
      intro c due f hexec hdue
      rw [hexec, hdue, timerEvent_open hreset]
      rfl
    have hempty : ∀ {d : Damper}, d.holds ≠ [] → d.holds.isEmpty = false := fun h => by simpa using h
    refine ⟨fun hlifting hend hopen => ?_, fun hlifting hend hnone hmin => ?_, fun since hopened hmin hsince hend => ?_,
      fun hclamping hend => ?_⟩
    · refine (htimer (f := Damper.lifted) rfl (by rw [Damper.liftDue, if_pos hlifting, hend])).trans (congrArg after ?_)
      rw [Damper.lifted_eq, if_neg]
      rintro ⟨hholds, hmin⟩
      obtain h | h := hopen
      · exact h hholds
      · omega
    · refine (htimer (f := Damper.lifted) rfl (by rw [Damper.liftDue, if_pos hlifting, hend])).trans (congrArg after ?_)
      rw [Damper.lifted_eq, if_pos ⟨hnone, hmin⟩]
      rfl
    · have hdue : (s.damper u).minDue = some end_ := by
        unfold Damper.minDue
        rw [if_pos (by simp [hopened, hmin]), hsince, hend]
        rfl
      have hexec := (htimer (c := .minimumOpenExpiry w u) (f := Damper.minExpired) rfl hdue)
      rw [Damper.minExpired_eq _ _ hopened] at hexec
      refine ⟨fun hnone => ?_, fun hsome => ?_⟩
      · rw [hexec, if_pos hnone]
        rfl
      · rw [hexec, if_neg hsome]
    · have hexec := (htimer (c := .clampEnd w u) (f := Damper.clamped) rfl (by rw [Damper.clampDue, if_pos hclamping, hend]))
      refine ⟨fun hnone => ?_, fun hsome => ?_⟩
      · refine hexec.trans (congrArg after ?_)
        exact (if_pos (by simp [hnone])).trans rfl
      · refine hexec.trans (congrArg after ?_)
        exact (if_neg (by simp [hsome])).trans rfl
  case tick =>
    intro now past
    have hquiet : (s.reach (max ((expiry + 4) / 8) w.time)).Quiet := ⟨hentries, hdecisions, hidle⟩
    refine ⟨_, (exec_tickExpiry_ticks hreset hdue hticks).trans (congrArg Host.Outcome.next (State.counterTick_below hstate hlt)),
      fun u => ?_⟩
    exact hquiet.expire_damper none u
  case damped =>
    intro d lands
    rw [State.damped_unit hu]
    unfold Damper.openBy
    refine ⟨fun h => ?_, fun h t ht => ?_, fun h hsome t ht => ?_, fun h hnone => ?_, fun h => ?_⟩
    · simp [show (s.damper u).state = _ from h]
    · simp [show (s.damper u).state = _ from h, show (s.damper u).liftEnd = _ from ht, lands]
    · simp [show (s.damper u).state = _ from h, show (s.damper u).clampEnd = _ from ht, show (s.damper u).holds ≠ [] from hsome, lands]
      rfl
    · simp [show (s.damper u).state = _ from h, show (s.damper u).holds = [] from hnone]
    · simp [show (s.damper u).state = _ from h]

end Sys2Proof.Machine
end

section
/-! SUPPORT. What players make of their steps (R114, R115, R118 to R122, R124, R196). -/
namespace Sys2Proof.Machine

/-! ## Decoding (R196) -/

section
variable (m : List Host.Cell) (address : Nat)

/-- The low seven bits and the high bit of a byte. -/
theorem Byte.split (b : Byte) : (b.extractLsb' 0 7).toNat = b.toNat % 128 ∧ (b.extractLsb' 7 1).toNat = b.toNat / 128 := by
  have hlt := b.isLt
  constructor
  · simp [BitVec.extractLsb'_toNat]
  · simp only [BitVec.extractLsb'_toNat, Nat.shiftRight_eq_div_pow]
    omega

theorem half_toNat (low high : Byte) : (half low high).toNat = low.toNat + 256 * high.toNat := by
  have hlow := low.isLt
  unfold half
  rw [BitVec.toNat_append, ← Nat.shiftLeft_add_eq_or_of_lt hlow, Nat.shiftLeft_eq]
  omega

theorem decodeStep_delta : (decodeStep m address).delta = (memRead m address).toNat + 256 * (memRead m (address + 1)).toNat :=
  half_toNat ..

theorem stepKind_eq (b2 b4 : Byte) : stepKind b2 b4 = 2 * (b4.toNat / 128) + b2.toNat / 128 := by
  rw [stepKind, (Byte.split b4).2, (Byte.split b2).2]

theorem stepBar_eq {bar : BarId} {b : Byte} (h : bar.1 = b.toNat % 128) : stepBar b = bar :=
  Fin.ext ((Byte.split b).1.trans h.symm)

/-- What a step record holds, by its kind. -/
theorem decodeStep_body {bar : BarId} (hbar : bar.1 = (memRead m (address + 2)).toNat % 128) :
    let kind := 2 * ((memRead m (address + 4)).toNat / 128) + (memRead m (address + 2)).toNat / 128
    let a := (memRead m (address + 4)).toNat % 128
    let b := (memRead m (address + 6)).toNat + 256 * (memRead m (address + 7)).toNat
    let strength := (memRead m (address + 3)).toNat
    let tag := memRead m (address + 5)
    (kind = 0 → (decodeStep m address).body = .stroke bar .single strength tag (if b = 0 then none else some b)) ∧
    (kind = 1 → (decodeStep m address).body = .stroke bar (.roll (RollPart.asked a b)) strength tag none) ∧
    (kind = 2 → (decodeStep m address).body = .stroke bar (.press { holdMs := 4 * a, duty := b }) strength tag none) ∧
    (kind = 3 → (decodeStep m address).body =
      if bar.1 = 0 then .mark else if bar.1 = 1 then .ended else if bar.1 = 2 then .rest else .invalid) := by
  intro kind a b strength tag
  have hkind : stepKind (memRead m (address + 2)) (memRead m (address + 4)) = kind := stepKind_eq _ _
  have hstep : stepBar (memRead m (address + 2)) = bar := stepBar_eq hbar
  have ha : ((memRead m (address + 4)).extractLsb' 0 7).toNat = a := (Byte.split _).1
  have hb : (half (memRead m (address + 6)) (memRead m (address + 7))).toNat = b := half_toNat _ _
  unfold decodeStep
  dsimp only
  rw [hstep, ha, hb]
  refine ⟨fun h => ?_, fun h => ?_, fun h => ?_, fun h => ?_⟩
  · rw [hkind.trans h] <;> rfl
  · rw [hkind.trans h] <;> rfl
  · rw [hkind.trans h, Nat.mul_comm a 4] <;> rfl
  · by_cases h0 : bar.1 = 0
    · rw [hkind.trans h, if_pos h0, h0] <;> rfl
    by_cases h1 : bar.1 = 1
    · rw [hkind.trans h, if_neg h0, if_pos h1, h1] <;> rfl
    by_cases h2 : bar.1 = 2
    · rw [hkind.trans h, if_neg h0, if_neg h1, if_pos h2, h2] <;> rfl
    obtain ⟨n, hn⟩ : ∃ n, bar.1 = n + 3 := ⟨bar.1 - 3, by omega⟩
    rw [hkind.trans h, if_neg h0, if_neg h1, if_neg h2, hn] <;> rfl

end

/-! ## A step acted on, by the player it leaves -/

section
variable {s : State} {v : VoiceId} {o : Interleaving} {p : PortId} {y : Player} {a : Area} (hmoving : s.timeline.state ≠ .stopped)
  (hport : s.reportPort v = some p) (hrunning : y.state = .running) (harea : (s.voice v).area = some a)
  (hmode : y.mode ≠ .stream) (hin : y.nextAddress + 7 ≤ a.last)

include harea hmode hin in
theorem State.setPlayer_nextStep : (s.setPlayer v y).nextStep v = some (decodeStep s.mem y.nextAddress) := by
  have hplayer := s.setPlayer_player v y
  rw [State.nextStep_phrase (s := s.setPlayer v y) harea (by rwa [hplayer]) (by rwa [hplayer]), hplayer]
  rfl

/-- The player once a phrase step with this due is taken. -/
def Player.taken (due : Nat) (y : Player) : Player :=
  { y with previousDue := due, nextDue := none, nextAddress := y.nextAddress + 8 }

theorem State.setPlayer_stepTaken (hmode : y.mode ≠ .stream) (due : Nat) :
    (s.setPlayer v y).stepTaken v due = s.setPlayer v (y.taken due) := by
  have hplayer := s.setPlayer_player v y
  rw [State.stepTaken_phrase (by rwa [hplayer]), hplayer, State.setPlayer_setPlayer]
  rfl

include hmoving hport hrunning harea hmode hin

theorem State.setPlayer_range (hmax : maxTick < y.previousDue + (decodeStep s.mem y.nextAddress).delta) :
    (s.setPlayer v y).takeSteps o v = (s.setPlayer v (y.ended .range)).raise .phraseEnd p := by
  have hplayer := s.setPlayer_player v y
  rw [State.takeSteps_range (s := s.setPlayer v y) hmoving hport (by rwa [hplayer]) (State.setPlayer_nextStep harea hmode hin)
    (by rwa [hplayer]), State.setPlayer_endPhrase hport]

variable {due : Nat} (hdue : due = y.previousDue + (decodeStep s.mem y.nextAddress).delta) (hmax : due ≤ maxTick)
  (hnear : due ≤ s.timeline.position + y.horizon)
include hdue hmax hnear

/-- A step that ends the taking of steps. -/
theorem State.setPlayer_acts_halts {t : State}
    (hact : (s.setPlayer v y).actOnStep o v p due y.nextAddress (decodeStep s.mem y.nextAddress).body = t)
    (hhalts : (t.player v).state ≠ .running) : (s.setPlayer v y).takeSteps o v = t := by
  have hplayer := s.setPlayer_player v y
  refine State.takeSteps_acts_halts (s := s.setPlayer v y) (x := decodeStep s.mem y.nextAddress) (due := due) hmoving hport
    (by rwa [hplayer]) (State.setPlayer_nextStep harea hmode hin) (by rwa [hplayer]) hmax (by rwa [hplayer]) ?_ hhalts
  rw [State.stepAddress_phrase (s := s.setPlayer v y) (by rwa [hplayer]), hplayer, hact]

/-- A step after which the player computes the next and waits. -/
theorem State.setPlayer_acts_waits {t : State} {z : Player} {later : Nat}
    (hact : (s.setPlayer v y).actOnStep o v p due y.nextAddress (decodeStep s.mem y.nextAddress).body = t.setPlayer v z)
    (htimeline : t.timeline = s.timeline) (hvoices : t.voices = s.voices) (hmem : t.mem = s.mem) (hz : z.state = .running)
    (hzmode : z.mode ≠ .stream) (hzin : z.nextAddress + 7 ≤ a.last)
    (hlater : later = z.previousDue + (decodeStep s.mem z.nextAddress).delta) (hlaterMax : later ≤ maxTick)
    (hfar : s.timeline.position + z.horizon < later) :
    (s.setPlayer v y).takeSteps o v = t.setPlayer v { z with nextDue := some later } := by
  have hplayer := s.setPlayer_player v y
  have hzplayer := t.setPlayer_player v z
  have htarea : (t.voice v).area = some a := by rw [State.voice, hvoices, ← harea, State.voice]
  have hnext : (t.setPlayer v z).nextStep v = some (decodeStep s.mem z.nextAddress) := by
    rw [State.setPlayer_nextStep htarea hzmode hzin, hmem]
  rw [State.takeSteps_acts_waits (s := s.setPlayer v y) (x := decodeStep s.mem y.nextAddress) (due := due) (t := t.setPlayer v z)
    (later := later) hmoving hport (by rwa [hplayer]) (State.setPlayer_nextStep harea hmode hin) (by rwa [hplayer]) hmax
    (by rwa [hplayer]) (by rwa [State.stepAddress_phrase (s := s.setPlayer v y) (by rwa [hplayer]), hplayer])
    (by rwa [hzplayer]) hnext (by rwa [hzplayer]) hlaterMax
    (by rwa [hzplayer, State.setPlayer_timeline, htimeline]), hzplayer, State.setPlayer_setPlayer]

end

/-! ## Strokes that a step asks for (R31, R120) -/

theorem State.admitEntry_waiting {s : State} {a : Ask} {p : PortId} {slot : SlotId} (hask : s.askRefusal a p = none)
    (hslot : s.freeSlot = some slot) (hlater : s.releasable (a.entry p slot s.nextSeq) = false) :
    (s.admitEntry a p).1 = { s with entries := placeEntry (a.entry p slot s.nextSeq) s.entries, nextSeq := s.nextSeq + 1 } := by
  let t : State := { s with entries := placeEntry (a.entry p slot s.nextSeq) s.entries, nextSeq := s.nextSeq + 1 }
  have hlater' : t.releasable (a.entry p slot s.nextSeq) = false := hlater
  rw [State.admitEntry, hask, hslot]
  show (if t.releasable (a.entry p slot s.nextSeq) then t.release slot else t) = _
  rw [hlater', if_neg Bool.false_ne_true]

theorem State.settleAtJoin_nil {s : State} {o : Interleaving} (h : s.decisions = []) : s.settleAtJoin o = s := by
  unfold State.settleAtJoin
  split
  · exact State.settle_of_nil h
  · rfl

/-! ## The players' part of a tick expiry (R118, R119) -/

/-- A state that a tick expiry's other parts have changed at most, for the players. -/
structure State.SamePhrases (s t : State) : Prop where
  entries : t.entries = s.entries
  decisions : t.decisions = s.decisions
  timeline : t.timeline = s.timeline
  voices : t.voices = s.voices
  chimePort : t.chimePort = s.chimePort
  mem : t.mem = s.mem
  players : t.players = s.players

theorem State.SamePhrases.rfl' {s : State} : s.SamePhrases s := ⟨rfl, rfl, rfl, rfl, rfl, rfl, rfl⟩

section
variable {s : State} {o : Interleaving} {v : VoiceId} {x : Player}

theorem State.playersTick_one {l : List VoiceId} (hnodup : l.Nodup) (hmem : v ∈ l)
    (hidle : ∀ u, u ≠ v → (s.player u).state = .idle) (htick : s.playerTick o v = s.setPlayer v x) :
    State.playersTick o l s = s.setPlayer v x := by
  induction l with
  | nil => cases hmem
  | cons u rest ih =>
    obtain ⟨hnot, hrest⟩ := List.nodup_cons.1 hnodup
    by_cases hu : u = v
    · subst hu
      rw [State.playersTick, htick]
      refine State.playersTick_idle fun z hz => ?_
      have hne : z ≠ u := fun h => hnot (h ▸ hz)
      rw [State.setPlayer_player_ne s u x hne]
      exact hidle z hne
    · rw [State.playersTick, State.playerTick_idle (hidle u hu)]
      exact ih hrest ((List.mem_cons.1 hmem).resolve_left fun h => hu h.symm)

/-- The other parts of a tick expiry leave what the players read, where the calendar is empty. -/
theorem State.neighbourTick_samePhrases (hentries : s.entries = []) (kind : TickKind) {n : Neighbour} (hn : n ≠ .players) :
    s.SamePhrases (s.neighbourTick o kind n) := by
  cases n with
  | shaper =>
    unfold State.neighbourTick
    dsimp only
    split <;> exact ⟨rfl, rfl, rfl, rfl, rfl, rfl, rfl⟩
  | calendar =>
    have hnone : s.neighbourTick o kind .calendar = s := by
      unfold State.neighbourTick State.slotsWhere
      dsimp only
      rw [hentries]
      rfl
    rw [hnone]
    exact .rfl'
  | players => exact absurd rfl hn
  | dampers => exact ⟨rfl, rfl, rfl, rfl, rfl, rfl, rfl⟩

/-- After the players' part the others leave what it made of the players. -/
theorem State.neighboursTick_without_players (kind : TickKind) {l : List Neighbour} (hnot : Neighbour.players ∉ l)
    (hentries : s.entries = []) (hdecisions : s.decisions = []) :
    (State.neighboursTick o kind l s).players = s.players ∧ (State.neighboursTick o kind l s).decisions = [] := by
  induction l generalizing s with
  | nil => exact ⟨rfl, hdecisions⟩
  | cons n rest ih =>
    have hsame := State.neighbourTick_samePhrases (o := o) hentries kind (n := n) fun h => hnot (h ▸ List.mem_cons_self ..)
    obtain ⟨hplayers, hlast⟩ := ih (s := s.neighbourTick o kind n) (fun h => hnot (List.mem_cons_of_mem _ h))
      (hsame.entries.trans hentries) (hsame.decisions.trans hdecisions)
    rw [State.neighboursTick, State.settleAtBlock_nil (hsame.decisions.trans hdecisions)]
    exact ⟨hplayers.trans hsame.players, hlast⟩

/-- The players take their part once, among the others' in whatever order. -/
theorem State.neighboursTick_players {b : Bank Player 16} (kind : TickKind) {l : List Neighbour} (hnodup : l.Nodup)
    (hmem : Neighbour.players ∈ l) (hentries : s.entries = []) (hdecisions : s.decisions = [])
    (htick : ∀ u, s.SamePhrases u → u.neighbourTick o kind .players = { u with players := b }) :
    (State.neighboursTick o kind l s).players = b ∧ (State.neighboursTick o kind l s).decisions = [] := by
  induction l generalizing s with
  | nil => cases hmem
  | cons n rest ih =>
    obtain ⟨hnot, hrest⟩ := List.nodup_cons.1 hnodup
    by_cases hn : n = .players
    · subst hn
      rw [State.neighboursTick, htick s .rfl', State.settleAtBlock_nil (s := { s with players := b }) hdecisions]
      exact State.neighboursTick_without_players (s := { s with players := b }) kind hnot hentries hdecisions
    · have hsame := State.neighbourTick_samePhrases (o := o) hentries kind hn
      rw [State.neighboursTick, State.settleAtBlock_nil (hsame.decisions.trans hdecisions)]
      exact ih hrest ((List.mem_cons.1 hmem).resolve_left fun g => hn g.symm) (hsame.entries.trans hentries)
        (hsame.decisions.trans hdecisions) fun u hu => htick u
          ⟨hu.entries.trans hsame.entries, hu.decisions.trans hsame.decisions, hu.timeline.trans hsame.timeline,
            hu.voices.trans hsame.voices, hu.chimePort.trans hsame.chimePort, hu.mem.trans hsame.mem,
            hu.players.trans hsame.players⟩

/-- A tick expiry that finds one player that is not IDLE, and no entry. -/
theorem State.expire_player (measured : Option Nat) (hentries : s.entries = []) (hdecisions : s.decisions = [])
    (hidle : ∀ u, u ≠ v → (s.player u).state = .idle)
    (htick : ∀ u : State, ({ s with timeline := (s.timeline.tick s.now measured).1 } : State).SamePhrases u →
      u.playerTick o v = u.setPlayer v x) : (s.expire o measured).player v = x := by
  let t : State := if (s.timeline.tick s.now measured).2.barLine then
      ({ s with timeline := (s.timeline.tick s.now measured).1 } : State).raiseAll .barLine
    else { s with timeline := (s.timeline.tick s.now measured).1 }
  have ht : ({ s with timeline := (s.timeline.tick s.now measured).1 } : State).SamePhrases t := by
    cases hline : (s.timeline.tick s.now measured).2.barLine <;> simp only [t, hline] <;>
      exact ⟨rfl, rfl, rfl, rfl, rfl, rfl, rfl⟩
  have hnodup : (arrange o.blocks [Neighbour.shaper, .calendar, .players, .dampers]).Nodup :=
    (arrange_perm _ _).nodup_iff.2 (by decide)
  have hmem : Neighbour.players ∈ arrange o.blocks [.shaper, .calendar, .players, .dampers] := mem_arrange.2 (by simp)
  obtain ⟨hplayers, hlast⟩ := State.neighboursTick_players (o := o) (b := s.players.put v x) (s.timeline.tick s.now measured).2
    hnodup hmem (ht.entries.trans hentries) (ht.decisions.trans hdecisions) fun u hu => by
      have hsame := State.SamePhrases.mk (hu.entries.trans ht.entries) (hu.decisions.trans ht.decisions)
        (hu.timeline.trans ht.timeline) (hu.voices.trans ht.voices) (hu.chimePort.trans ht.chimePort) (hu.mem.trans ht.mem)
        (hu.players.trans ht.players)
      have hplayer : ∀ z, u.player z = s.player z := fun z => by rw [State.player, hsame.players, State.player]
      have hone := State.playersTick_one ((arrange_perm o.players (List.finRange 16)).nodup_iff.2 (List.nodup_finRange 16))
        (mem_arrange.2 (List.mem_finRange v)) (fun z hz => by rw [hplayer]; exact hidle z hz) (htick u hsame)
      refine (show State.neighbourTick o _ .players u = _ from hone).trans ?_
      show ({ u with players := u.players.put v x } : State) = _
      rw [hsame.players]
  unfold State.expire
  rw [State.settle_of_nil hlast, State.player, hplayers, Bank.look_put_same]

end

/-! ## A stroke that a step asks for, in the claims' words -/

/-- What a phrase step asks the calendar to admit. -/
def stepAsk (v : VoiceId) (bar : BarId) (due strength : Nat) (tag : Byte) (sustain : Option Nat) (part : StrokePart) : Ask :=
  { voice := v, bar := bar, due := due, strength := strength, tag := tag, sustain := sustain, part := part }

section
variable {s : State} {v : VoiceId} {bar : BarId} {part : StrokePart} {due strength : Nat} {tag : Byte} {sustain : Option Nat} {p : PortId}

theorem StrokePart.inRange_eq_false : part.inRange = false ↔ match part with
    | .single => False
    | .roll r => r.count < 2 ∨ 32 < r.count ∨ r.spacing < 1 ∨ 240 < r.spacing
    | .press x => x.holdMs < 5 ∨ 400 < x.holdMs ∨ x.duty < 1 ∨ 255 < x.duty := by
  cases part with
  | single => simp [StrokePart.inRange]
  | roll r =>
    simp only [StrokePart.inRange, Bool.and_eq_false_iff, decide_eq_false_iff_not]
    omega
  | press x =>
    simp only [StrokePart.inRange, Bool.and_eq_false_iff, decide_eq_false_iff_not]
    omega

theorem stepAsk_inTicks : (stepAsk v bar due strength tag sustain part).inTicks = false ↔
    4294967295 < (match part with | .roll r => due + (r.count - 1) * r.spacing | _ => due) + sustain.getD 0 := by
  unfold Ask.inTicks
  rw [decide_eq_false_iff_not, Nat.not_le]
  cases part <;> exact Iff.rfl

theorem State.not_releasable {e : Entry}
    (h : s.timeline.position < e.due - (s.timeline.times (s.bar e.bar).cls).leadTicks) : s.releasable e = false := by
  rw [State.releasable, decide_eq_false (Nat.not_le.2 h), Bool.and_false]

theorem State.calendarFull_iff : s.calendarFull v p = true ↔
    256 ≤ s.entries.length ∨ (if v = chimeVoice then 32 ≤ s.chimeCount else s.quotas.look p ≤ s.useCount p) := by
  unfold State.calendarFull
  by_cases h : v = chimeVoice <;> simp [h]

end

section
variable {s : State} {o : Interleaving} {v : VoiceId} {p : PortId} {y : Player} {due address : Nat}

/-- END in LOOP mode, by the player it leaves (R122). -/
theorem State.setPlayer_loopEnd {z : Player} (hz : z = { y with passes := min 255 (y.passes + 1) }) :
    (s.setPlayer v y).loopEnd v due =
      if z.loops ≠ 0 ∧ z.passes = z.loops then (s.setPlayer v z).endPhrase v .ended
      else if due = z.passDue then (s.setPlayer v z).endPhrase v .range
      else s.setPlayer v { z with nextAddress := (z.returnPoint.map (· + 8)).getD z.startAddress, passDue := due } := by
  subst hz
  unfold State.loopEnd
  dsimp only
  rw [State.modPlayer_setPlayer, State.setPlayer_player]
  simp only [Bool.and_eq_true, decide_eq_true_eq, State.modPlayer_setPlayer, ne_eq]

theorem State.phraseEnd_loop (hmode : y.mode = .loop) : (s.setPlayer v y).phraseEnd v due = (s.setPlayer v y).loopEnd v due := by
  unfold State.phraseEnd
  rw [State.setPlayer_player, hmode]

variable {bar : BarId} {part : StrokePart} {strength : Nat} {tag : Byte} {sustain : Option Nat}

theorem State.actOnStep_refused (h : s.askRefusal (stepAsk v bar due strength tag sustain part) p = some .range) :
    s.actOnStep o v p due address (.stroke bar part strength tag sustain) = (s.stepRefused v).stepTaken v due := by
  unfold State.actOnStep
  dsimp only
  rw [show s.askRefusal { voice := v, bar := bar, due := due, strength := strength, tag := tag, sustain := sustain, part := part } p = some .range from h]

theorem State.actOnStep_full (h : s.askRefusal (stepAsk v bar due strength tag sustain part) p = some .full) :
    s.actOnStep o v p due address (.stroke bar part strength tag sustain) = s.stall v due := by
  unfold State.actOnStep
  dsimp only
  rw [show s.askRefusal { voice := v, bar := bar, due := due, strength := strength, tag := tag, sustain := sustain, part := part } p = some .full from h]

theorem State.actOnStep_admitted (h : s.askRefusal (stepAsk v bar due strength tag sustain part) p = none) :
    s.actOnStep o v p due address (.stroke bar part strength tag sustain) =
      ((s.admitEntry (stepAsk v bar due strength tag sustain part) p).1.settleAtJoin o).stepTaken v due := by
  unfold State.actOnStep
  dsimp only
  rw [show s.askRefusal { voice := v, bar := bar, due := due, strength := strength, tag := tag, sustain := sustain, part := part } p = none from h]
  rfl

end

/-- Settles O29: the step held, by its kind; a tick expiry; and the decoding. -/
theorem stalledPlayersResume : Obligations.StalledPlayersResume := by
  refine ⟨fun w s v hreset hdecisions hstalled htold => ?resume,
    fun w s v p a expiry hreset hdecisions hentries hstate hdue hticks hlt hidle harea hport => ?tick, fun m address => ?decode⟩
  case resume =>
    intro q after resumed horizon gives
    let u := s.reach w.time
    have hgives : ∀ {t : State}, (u.setPlayer v resumed).takeSteps w.order v = t → t.decisions = [] → gives t := by
      intro t ht hsettled
      show Host.Outcome.next (event w.time _ s) = _
      rw [event_open hreset, if_pos (by simp [hstalled, htold])]
      have hresumed : u.resumePlayer w.order v = t := ht
      rw [hresumed, State.settle_of_nil hsettled]
    refine ⟨fun hstopped => hgives (State.takeSteps_stopped hstopped) hdecisions, fun p a hmoving harea hport => ?_⟩
    intro ends
    have hendPhrase : ∀ (why : EndReason) (x : Player), (u.setPlayer v x).endPhrase v why = ends why x :=
      fun why x => State.setPlayer_endPhrase (s := u) hport why
    have hended : ∀ (why : EndReason) (x : Player), ((ends why x).player v).state = .idle := fun why x => by
      show ((u.setPlayer v (x.ended why)).player v).state = .idle
      rw [State.setPlayer_player]
      rfl
    refine ⟨fun hmode hin => ?phrase, fun hmode hpast hmax hnear => ?past, fun hmode => ⟨fun hempty => ?empty, fun hsome => ?stream⟩⟩
    case phrase =>
      intro held due taken next waits following goesOn
      have htaken : ∀ {t : State} {y : Player}, y.mode = q.mode → (t.setPlayer v y).stepTaken v due = t.setPlayer v (y.taken due) :=
        fun h => State.setPlayer_stepTaken (by rwa [h]) due
      refine ⟨fun hover => ?_, fun hmax hfar => ?_, fun hmax hnear => ⟨fun hwaits => ?_, fun hbody honce => ?_, fun hbody hloop => ?_,
        fun bar part strength tag sustain hbody => ?_⟩⟩
      · exact hgives (State.setPlayer_range (s := u) hmoving hport rfl harea hmode hin hover) hdecisions
      · exact hgives (State.setPlayer_waits_phrase (s := u) (y := resumed) hmoving hport rfl harea hmode hin rfl hmax hfar) hdecisions
      · have hgoesOn : ∀ {z : Player}, (u.setPlayer v resumed).actOnStep w.order v p due q.nextAddress held.body =
            u.setPlayer v z → z.state = .running → z.mode = q.mode → z.nextAddress = following → z.previousDue = due →
            z.horizon = q.horizon → gives (after (goesOn z)) := by
          intro z hact hz hzmode hzaddress hzdue hzhorizon
          obtain ⟨hwin, hwmax, hwfar⟩ := hwaits
          refine hgives (State.setPlayer_acts_waits (s := u) (t := u) (y := resumed) (z := z) (due := due) (later := next following)
            hmoving hport rfl harea hmode hin rfl hmax hnear hact rfl rfl rfl hz (by rwa [hzmode]) (by rwa [hzaddress]) ?_ hwmax ?_)
            hdecisions
          · rw [hzaddress, hzdue]
            rfl
          · rw [hzhorizon]
            exact hwfar
        refine ⟨fun hbody => hgoesOn (z := taken) ?_ rfl rfl rfl rfl rfl,
          fun hbody => hgoesOn (z := { taken with returnPoint := some q.nextAddress }) ?_ rfl rfl rfl rfl rfl,
          fun hbody => hgoesOn (z := { taken with refused := min 65535 (q.refused + 1) }) ?_ rfl rfl rfl rfl rfl⟩
        · rw [hbody]
          exact htaken rfl
        · rw [hbody]
          show (State.modPlayer v _ (u.setPlayer v resumed)).stepTaken v due = _
          rw [State.modPlayer_setPlayer]
          exact htaken rfl
        · rw [hbody]
          show (State.modPlayer v _ (u.setPlayer v resumed)).stepTaken v due = _
          rw [State.modPlayer_setPlayer]
          exact htaken rfl
      · refine hgives (State.setPlayer_acts_halts (s := u) (y := resumed) (t := ends .ended taken) hmoving hport rfl harea hmode hin rfl hmax hnear ?_
          (by rw [hended]; nofun)) hdecisions
        show (State.actOnStep w.order v p due q.nextAddress held.body _) = _
        rw [hbody]
        show ((u.setPlayer v resumed).stepTaken v due).phraseEnd v due = _
        rw [htaken (y := resumed) rfl, State.phraseEnd_once (by rw [State.setPlayer_player]; exact fun h => by cases honce.symm.trans h)]
        exact hendPhrase .ended taken
      · intro passes done
        let z : Player := { taken with passes := passes }
        have hact : (u.setPlayer v resumed).actOnStep w.order v p due q.nextAddress held.body =
            if z.loops ≠ 0 ∧ z.passes = z.loops then (u.setPlayer v z).endPhrase v .ended
            else if due = z.passDue then (u.setPlayer v z).endPhrase v .range
            else u.setPlayer v { z with nextAddress := (z.returnPoint.map (· + 8)).getD z.startAddress, passDue := due } := by
          rw [hbody]
          show ((u.setPlayer v resumed).stepTaken v due).phraseEnd v due = _
          rw [htaken (y := resumed) rfl, State.phraseEnd_loop (y := resumed.taken due) hloop, State.setPlayer_loopEnd (y := resumed.taken due) (z := z) rfl]
        refine ⟨fun hdone => ?_, fun hnot hsame => ?_, fun b hnot hpassed hb hwaits => ?_⟩
        · refine hgives (State.setPlayer_acts_halts (s := u) (y := resumed) (t := ends .ended z) hmoving hport rfl harea hmode hin rfl hmax hnear
            (hact.trans ((if_pos hdone).trans (hendPhrase .ended z))) (by rw [hended]; nofun)) hdecisions
        · refine hgives (State.setPlayer_acts_halts (s := u) (y := resumed) (t := ends .range z) hmoving hport rfl harea hmode hin rfl hmax hnear
            (hact.trans ((if_neg hnot).trans ((if_pos hsame).trans (hendPhrase .range z)))) (by rw [hended]; nofun)) hdecisions
        · obtain ⟨hwin, hwmax, hwfar⟩ := hwaits
          refine hgives (State.setPlayer_acts_waits (s := u) (t := u) (y := resumed)
            (z := { z with nextAddress := b, passDue := due }) (later := next b)
            hmoving hport rfl harea hmode hin rfl hmax hnear (hact.trans ((if_neg hnot).trans ((if_neg hpassed).trans ?_)))
            rfl rfl rfl rfl hmode hwin rfl hwmax hwfar) hdecisions
          rw [hb]
      · intro last refused full
        let ask := stepAsk v bar due strength tag sustain part
        have hrange : (AskOutside (u.setPlayer v resumed) ask ∨ ask.part.inRange = false ∨ ask.inTicks = false) ↔ refused := by
          rw [stepAsk_inTicks, StrokePart.inRange_eq_false]
          show ((bar.1 < (s.voice v).low ∨ (s.voice v).high < bar.1 ∨ strength = 0 ∨ sustain = some 0) ∨ _ ∨ _) ↔ _
          simp only [or_assoc]
          rfl
        have hinside : ¬ refused → (u.setPlayer v resumed).askRefusal ask p =
            if (u.setPlayer v resumed).calendarFull v p then some .full else none := by
          intro hnot
          rw [← hrange, not_or, not_or] at hnot
          obtain ⟨hask, hpart, hticks⟩ := hnot
          exact askRefusal_inside hask (by simpa using hpart) (by simpa using hticks)
        refine ⟨fun hrefused hwaits => ?_, fun hnot hfull => ?_, fun slot hnot hroom hwaits hfree hlowest hlater => ?_⟩
        · obtain ⟨hwin, hwmax, hwfar⟩ := hwaits
          refine hgives (State.setPlayer_acts_waits (s := u) (t := u) (y := resumed)
            (z := { taken with refused := min 65535 (q.refused + 1) }) (later := next following)
            hmoving hport rfl harea hmode hin rfl hmax hnear ?_ rfl rfl rfl rfl hmode hwin rfl hwmax hwfar) hdecisions
          show (State.actOnStep w.order v p due q.nextAddress held.body _) = _
          rw [hbody, State.actOnStep_refused (askRefusal_range (hrange.2 hrefused)), State.stepRefused, State.modPlayer_setPlayer]
          exact htaken rfl
        · have hask := (hinside hnot).trans (if_pos (State.calendarFull_iff.2 hfull))
          have hstall : (u.setPlayer v resumed).actOnStep w.order v p due q.nextAddress held.body =
              after { q with nextDue := some due, told := false } := by
            rw [hbody, State.actOnStep_full hask, State.stall, State.modPlayer_setPlayer]
            show u.setPlayer v { q with state := .stalled, nextDue := some due, told := false } = _
            rw [← hstalled]
            rfl
          refine hgives (State.setPlayer_acts_halts (s := u) (y := resumed) hmoving hport rfl harea hmode hin rfl hmax hnear hstall ?_) hdecisions
          show ((u.setPlayer v _).player v).state ≠ .running
          rw [State.setPlayer_player]
          show q.state ≠ .running
          rw [hstalled]
          nofun
        · obtain ⟨hwin, hwmax, hwfar⟩ := hwaits
          have hask := (hinside hnot).trans (if_neg fun h => hroom (State.calendarFull_iff.1 h))
          let e := ask.entry p slot s.nextSeq
          let t : State := { u with entries := placeEntry e s.entries, nextSeq := s.nextSeq + 1 }
          have hadmit : ((u.setPlayer v resumed).admitEntry ask p).1 = t.setPlayer v resumed :=
            State.admitEntry_waiting hask (State.freeSlot_eq_some (s := u.setPlayer v resumed) hfree hlowest)
              (State.not_releasable (s := u.setPlayer v resumed) hlater)
          refine (hgives (State.setPlayer_acts_waits (s := u) (t := t) (y := resumed)
            (z := taken) (later := next following)
            hmoving hport rfl harea hmode hin rfl hmax hnear ?_ rfl rfl rfl rfl hmode hwin rfl hwmax hwfar) hdecisions).trans ?_
          · show (State.actOnStep w.order v p due q.nextAddress held.body _) = _
            rw [hbody, State.actOnStep_admitted hask, hadmit, State.settleAtJoin_nil (s := t.setPlayer v resumed) hdecisions]
            exact htaken rfl
          · cases part <;> rfl
    case past =>
      have hplayer := u.setPlayer_player v resumed
      refine hgives (State.takeSteps_acts_halts (s := u.setPlayer v resumed) (x := { delta := 0, body := .ended })
        (t := ends .ended { resumed with nextAddress := q.nextAddress + 8 }) (due := q.previousDue)
        hmoving hport (by rw [hplayer]) ?_ (by rw [hplayer]; rfl) hmax (by rw [hplayer]; exact hnear) ?_ (by rw [hended]; nofun)) hdecisions
      · exact State.nextStep_past (s := u.setPlayer v resumed) harea (by rw [hplayer]; exact fun h => by cases hmode.symm.trans h)
          (by rw [hplayer]; exact hpast)
      · show ((u.setPlayer v resumed).stepTaken v q.previousDue).phraseEnd v q.previousDue = _
        rw [State.setPlayer_stepTaken (fun h => by cases hmode.symm.trans h), State.phraseEnd_once
          (by rw [State.setPlayer_player]; exact fun h => by cases hmode.symm.trans h)]
        exact hendPhrase .ended (resumed.taken q.previousDue)
    case empty =>
      exact hgives (State.setPlayer_starves (s := u) (y := resumed) hmoving hport rfl harea hmode hempty) hdecisions
    case stream =>
      intro held due ring hmax hnear
      let taken : Player := { resumed with previousDue := due, nextDue := none }
      let ringed : State := ring u
      have hplayer := u.setPlayer_player v resumed
      have hstep : (u.setPlayer v resumed).nextStep v = some held :=
        State.nextStep_stream (s := u.setPlayer v resumed) harea (by rwa [hplayer]) hsome
      have htaken : (u.setPlayer v resumed).stepTaken v due = ringed.setPlayer v taken := by
        rw [State.stepTaken_stream (by rwa [hplayer]), hplayer, State.setPlayer_setPlayer]
        show ({ u.setPlayer v taken with voices := s.voices.put v { s.voice v with area := (s.voice v).area.map Area.taken } } : State) = _
        rw [harea]
        rfl
      have hput : ringed.voice v = { s.voice v with area := some a.taken } := Bank.look_put_same ..
      refine ⟨fun hbody => ?_, fun hbody hlast => ?_⟩
      · have hreports : ringed.reportPort v = some p := by
          rw [← hport, State.reportPort_eq, hput]
          rfl
        refine hgives (State.takeSteps_acts_halts (s := u.setPlayer v resumed) (x := held)
          (t := ring (ends .ended { resumed with previousDue := due })) (due := due) hmoving hport (by rw [hplayer]) hstep
          (by rw [hplayer]) hmax (by rw [hplayer]; exact hnear) ?_ (fun h => by cases (hended .ended { resumed with previousDue := due }).symm.trans h)) hdecisions
        rw [hbody]
        show ((u.setPlayer v resumed).stepTaken v due).phraseEnd v due = _
        rw [htaken, State.phraseEnd_once (by rw [State.setPlayer_player]; exact fun h => by cases hmode.symm.trans h),
          State.setPlayer_endPhrase hreports]
        rfl
      · have harea' : (ringed.voice v).area = some a.taken := congrArg Voice.area hput
        have hzplayer := ringed.setPlayer_player v taken
        have hempty : a.taken.retained = 0 := Nat.sub_eq_zero_of_le hlast
        refine hgives ((State.takeSteps_acts_starves (s := u.setPlayer v resumed) (x := held) (t := ringed.setPlayer v taken)
          (due := due) hmoving hport (by rw [hplayer]) hstep (by rw [hplayer]) hmax (by rw [hplayer]; exact hnear) ?_
          (by rw [hzplayer]) (State.nextStep_empty (s := ringed.setPlayer v taken) harea' (by rwa [hzplayer]) hempty)).trans ?_) hdecisions
        · rw [hbody]
          exact htaken
        · rw [hzplayer, State.setPlayer_setPlayer]
          rfl
  case tick =>
    intro q horizon due becomes
    let u := s.reach (max ((expiry + 4) / 8) w.time)
    have hbecomes : ∀ {x : Player}, (∀ z : State, ({ u with timeline := (u.timeline.tick u.now none).1 } : State).SamePhrases z →
        z.playerTick w.order v = z.setPlayer v x) → becomes x := by
      intro x htick
      exact ⟨_, (exec_tickExpiry_ticks hreset hdue hticks).trans (congrArg Host.Outcome.next (State.counterTick_below hstate hlt)),
        State.expire_player (s := u) (o := w.order) none hentries hdecisions hidle htick⟩
    obtain ⟨fstate, fposition, -⟩ := u.timeline.tick_frame u.now none
    have hreads : ∀ {z : State}, ({ u with timeline := (u.timeline.tick u.now none).1 } : State).SamePhrases z →
        z.player v = q ∧ z.timeline.state ≠ .stopped ∧ z.timeline.position = s.timeline.position + 1 ∧ z.reportPort v = some p ∧
        (z.voice v).area = some a ∧ z.mem = s.mem := by
      intro z hz
      refine ⟨congrArg (fun b => Bank.look b v) hz.players, ?_, ?_, ?_, ?_, hz.mem⟩
      · rw [hz.timeline]
        exact fun h => by cases (fstate.trans hstate).symm.trans h
      · rw [hz.timeline]
        exact fposition
      · rw [State.reportPort_eq, hz.chimePort, State.voice, hz.voices]
        exact hport
      · rw [State.voice, hz.voices]
        exact harea
    refine ⟨fun harmed hfar => hbecomes fun z hz => ?_, fun hruns hmode hin hmax => ?_⟩
    · obtain ⟨hplayer, -, hposition, -⟩ := hreads hz
      have hself : z.setPlayer v q = z := by rw [← hplayer, State.setPlayer_self]
      unfold State.playerTick
      rw [if_neg (by rw [hplayer]; exact fun h => by cases harmed.symm.trans h),
        State.armedTest_waits (.inr (by rw [hplayer, hposition]; exact hfar)), hself]
    · have hruns' : ∀ {z : State}, ({ u with timeline := (u.timeline.tick u.now none).1 } : State).SamePhrases z →
          z.playerTick w.order v = (z.setPlayer v { q with state := .running }).takeSteps w.order v := by
        intro z hz
        obtain ⟨hplayer, hmoving, hposition, -⟩ := hreads hz
        unfold State.playerTick
        rw [hplayer]
        obtain hrunning | ⟨harmed, hsoon⟩ := hruns
        · rw [if_pos hrunning]
          have hself : ({ q with state := .running } : Player) = q := by rw [← hrunning]
          rw [hself, ← hplayer, State.setPlayer_self]
        · rw [if_neg (fun h => by cases harmed.symm.trans h), State.armedTest_runs hmoving (by rw [hplayer]; exact harmed)
            (by rw [hplayer, hposition]; exact hsoon), hplayer]
      refine ⟨fun hfar => hbecomes fun z hz => ?_, fun next hnear hbody hin' hnext hnextMax hfar => hbecomes fun z hz => ?_⟩
      · obtain ⟨-, hmoving, hposition, hports, hareas, hmem⟩ := hreads hz
        rw [hruns' hz]
        exact State.setPlayer_waits_phrase (y := { q with state := .running }) hmoving hports rfl hareas hmode hin
          (by rw [hmem]) hmax (by rw [hposition]; exact hfar)
      · obtain ⟨-, hmoving, hposition, hports, hareas, hmem⟩ := hreads hz
        rw [hruns' hz]
        exact State.setPlayer_acts_waits (t := z) (y := { q with state := .running })
          (z := { q with state := .running, previousDue := due, nextDue := none, nextAddress := q.nextAddress + 8 })
          (due := due) (later := next) hmoving hports rfl hareas hmode hin (by rw [hmem]) hmax (by rw [hposition]; exact hnear)
          (by
            rw [hmem]
            show State.actOnStep _ v p due q.nextAddress (decodeStep s.mem q.nextAddress).body _ = _
            rw [hbody]
            exact State.setPlayer_stepTaken (y := { q with state := .running }) hmode due) rfl rfl rfl rfl hmode hin' (by rw [hmem]; exact hnext) hnextMax
          (by rw [hposition]; exact hfar)
  case decode =>
    intro x step kind code a b tag
    refine ⟨decodeStep_delta m address, fun bar hbar => ?_, fun hkind => ?_⟩
    · obtain ⟨hsingle, hroll, hpress, -⟩ := decodeStep_body m address hbar
      exact ⟨hsingle, hroll, hpress⟩
    · exact (decodeStep_body m address (bar := ⟨code, Nat.mod_lt _ (by decide)⟩) rfl).2.2.2 hkind

end Sys2Proof.Machine
end

section
/-! SUPPORT. One entry of the calendar among the others, the ends of a roll's strokes (R43, R44), and the decisions of an arbiter
that changes nothing; entries that leave, and passed deadlines. -/
namespace Sys2Proof.Machine

/-! ## One entry among the entries -/

section
variable {s : State} {k : SlotId} {e : Entry} {f g : Entry → Entry}

theorem State.entryAt_modEntry (hf : ∀ d, d.slot = k → (f d).slot = k) (he : s.entryAt k = some e) :
    (s.modEntry k f).entryAt k = some (f e) := by
  have hsame : ((fun d => decide (d.slot = k)) ∘ fun d : Entry => if d.slot = k then f d else d) =
      fun d => decide (d.slot = k) := by
    funext d
    by_cases hd : d.slot = k <;> simp [hd, hf]
  rw [State.entryAt, State.modEntry, List.find?_map, hsame, show s.entries.find? _ = some e from he, Option.map_some,
    if_pos (State.entryAt_slot he)]

theorem State.filter_modEntry (hf : ∀ d, d.slot = k → (f d).slot = k) :
    (s.modEntry k f).entries.filter (fun d => d.slot ≠ k) = s.entries.filter (fun d => d.slot ≠ k) := by
  rw [State.modEntry, List.filter_map]
  refine Eq.trans (List.map_congr_left (g := id) fun d hd => ?_) ((List.map_id _).trans (List.filter_congr fun d _ => ?_))
  · have hd' : (if d.slot = k then f d else d).slot ≠ k := by simpa using (List.mem_filter.1 hd).2
    by_cases hk : d.slot = k
    · rw [if_pos hk] at hd'
      exact absurd (hf d hk) hd'
    · exact if_neg hk
  · by_cases hk : d.slot = k <;> simp [hk, hf]

theorem State.eq_of_slot (hslots : (s.entries.map (·.slot)).Nodup) (he : s.entryAt k = some e) {d : Entry} (hd : d ∈ s.entries)
    (hk : d.slot = k) : d = e :=
  List.inj_on_of_nodup_map hslots hd (State.entryAt_mem he) (hk.trans (State.entryAt_slot he).symm)

/-- What an entry becomes is told by the entry in its slot. -/
theorem State.modEntry_congr (hslots : (s.entries.map (·.slot)).Nodup) (he : s.entryAt k = some e) (hfg : f e = g e) :
    s.modEntry k f = s.modEntry k g := by
  have hsame : ∀ d ∈ s.entries, (if d.slot = k then f d else d) = if d.slot = k then g d else d := by
    intro d hd
    by_cases hk : d.slot = k
    · rw [if_pos hk, if_pos hk, State.eq_of_slot hslots he hd hk, hfg]
    · rw [if_neg hk, if_neg hk]
  exact congrArg (fun l => { s with entries := l }) (List.map_congr_left hsame)

theorem State.modEntry_modEntry (hf : ∀ d, d.slot = k → (f d).slot = k) :
    (s.modEntry k f).modEntry k g = s.modEntry k (fun d => g (f d)) := by
  refine congrArg (fun l => { s with entries := l }) ((List.map_map ..).trans (List.map_congr_left fun (d : Entry) _ => ?_))
  by_cases hk : d.slot = k
  · simp [hk, hf]
  · simp [hk]

theorem State.modEntry_slots (hf : ∀ d, d.slot = k → (f d).slot = k) :
    (s.modEntry k f).entries.map (·.slot) = s.entries.map (·.slot) := by
  rw [State.modEntry, List.map_map]
  refine List.map_congr_left fun d _ => ?_
  by_cases hk : d.slot = k
  · simp [hk, hf]
  · simp [hk]

/-- The entry in a slot, with slots all different. -/
theorem State.entryAt_of_mem (hslots : (s.entries.map (·.slot)).Nodup) (hd : e ∈ s.entries) : s.entryAt e.slot = some e := by
  cases h : s.entryAt e.slot with
  | none => exact absurd (List.find?_eq_none.1 h e hd) (by simp)
  | some d => rw [State.eq_of_slot hslots h hd rfl]

end

/-! ## The end of a roll's stroke (R43, R44) -/

/-- A ROLL that waits for its next stroke (R43). -/
def Entry.returned (e : Entry) (spacing : Nat) : Entry :=
  { e with due := e.due + spacing, state := .waiting, target := none, deadline := none, targetReached := false }

theorem State.strokeEnd_of_roll {s : State} {k : SlotId} {e : Entry} {r : RollPart} (he : s.entryAt k = some e)
    (hr : e.part = .roll r) : s.strokeEnd k = if r.count ≤ r.played + r.missed then s.leave k .rollDone
      else if r.flushMark then s.leave k .flushed else s.returnRoll e r.spacing := by
  unfold State.strokeEnd
  rw [he]
  dsimp only
  rw [hr]

theorem State.returnRoll_waits {s : State} {e : Entry} {spacing : Nat}
    (hlater : s.timeline.position < (e.due + spacing) - (s.timeline.times (s.bar e.bar).cls).leadTicks) :
    s.returnRoll e spacing = { s with
      entries := placeEntry (e.returned spacing) (s.entries.filter (fun d => d.slot ≠ e.slot)) } := by
  let t : State := { s with entries := placeEntry (e.returned spacing) (s.entries.filter (fun d => d.slot ≠ e.slot)) }
  show (if t.releasable (e.returned spacing) then t.release e.slot else t) = t
  rw [State.not_releasable (s := t) (e := e.returned spacing) hlater, if_neg Bool.false_ne_true]

section
variable {s : State} {k : SlotId} {e : Entry} {r : RollPart} (f : RollPart → RollPart)
  (hslots : (s.entries.map (·.slot)).Nodup) (he : s.entryAt k = some e) (hr : e.part = .roll r)

/-- The entry that a roll's count has changed. -/
def Entry.withRoll (e : Entry) (r : RollPart) : Entry := { e with part := .roll r }

include he in
theorem State.counted_entry : (s.modEntry k (fun _ => e.withRoll (f r))).entryAt k = some (e.withRoll (f r)) :=
  State.entryAt_modEntry (f := fun _ => e.withRoll (f r)) (fun _ _ => (State.entryAt_slot he :)) he

include hslots he hr

/-- A roll's count changes, as the whole entry. -/
theorem State.modRoll_eq : s.modEntry k (Entry.modRoll f) = s.modEntry k (fun _ => e.withRoll (f r)) :=
  State.modEntry_congr hslots he (by rw [Entry.modRoll, hr]; rfl)

theorem State.counted_done (hdone : (f r).count ≤ (f r).played + (f r).missed) :
    (s.modEntry k (Entry.modRoll f)).strokeEnd k = (s.modEntry k (fun _ => e.withRoll (f r))).leave k .rollDone := by
  rw [State.modRoll_eq f hslots he hr, State.strokeEnd_of_roll (State.counted_entry f he) rfl, if_pos hdone]

theorem State.counted_flushed (hmore : (f r).played + (f r).missed < (f r).count) (hmark : (f r).flushMark = true) :
    (s.modEntry k (Entry.modRoll f)).strokeEnd k = (s.modEntry k (fun _ => e.withRoll (f r))).leave k .flushed := by
  rw [State.modRoll_eq f hslots he hr, State.strokeEnd_of_roll (State.counted_entry f he) rfl,
    if_neg (Nat.not_le.2 hmore), if_pos hmark]

theorem State.counted_returns (hmore : (f r).played + (f r).missed < (f r).count) (hmark : (f r).flushMark = false)
    (hlater : s.timeline.position < (e.due + (f r).spacing) - (s.timeline.times (s.bar e.bar).cls).leadTicks) :
    (s.modEntry k (Entry.modRoll f)).strokeEnd k = { s with
      entries := placeEntry ((e.withRoll (f r)).returned (f r).spacing) (s.entries.filter (fun d => d.slot ≠ k)) } := by
  have hslot : (e.withRoll (f r)).slot = k := (State.entryAt_slot he :)
  rw [State.modRoll_eq f hslots he hr, State.strokeEnd_of_roll (State.counted_entry f he) rfl,
    if_neg (Nat.not_le.2 hmore), if_neg (by rw [hmark]; exact Bool.false_ne_true),
    State.returnRoll_waits (s := s.modEntry k fun _ => e.withRoll (f r)) (e := e.withRoll (f r)) hlater, hslot, State.filter_modEntry fun _ _ => hslot]
  rfl

end

/-! ## Members that an arbiter removes (R39, R44, R72) -/

theorem State.removeMember_leaves {s : State} {k : SlotId} {e : Entry} {reason : EntryOutcome} (he : s.entryAt k = some e)
    (hkind : e.part.isRoll = false) : s.removeMember k reason = s.leave k reason := by
  unfold State.removeMember
  rw [he]
  dsimp only
  rw [hkind, Bool.false_and, if_neg Bool.false_ne_true]

theorem State.removeMember_misses {s : State} {k : SlotId} {e : Entry} {r : RollPart} {reason : EntryOutcome}
    (he : s.entryAt k = some e) (hr : e.part = .roll r) (hreason : reason ≠ .noStriker) :
    s.removeMember k reason = s.missStroke k := by
  unfold State.removeMember
  rw [he]
  dsimp only
  rw [hr, if_pos (by simpa [StrokePart.isRoll] using hreason)]

/-! ## Decisions that change nothing (R65, R69) -/

theorem State.settle_leave {s : State} {k : SlotId} {o : EntryOutcome} (h : s.decisions = []) :
    (s.leave k o).settle = s.leave k o :=
  State.settle_of_nil ((State.leave_decisions ..).trans h)

theorem State.settle_one {s t : State} {r : RailId} (hone : s.decisions = [r])
    (hdecided : State.arbitrate r { s with decisions := [] } = t) (hnone : t.decisions = []) : s.settle = t := by
  have hdone : ∀ n, State.settleUpTo n t = t := by
    intro n
    cases n with
    | zero => rfl
    | succ n => rw [State.settleUpTo, hnone]
  rw [State.settle, hone, List.length_singleton, Nat.add_comm 1, State.settleUpTo, hone]
  dsimp only
  rw [hdecided, hdone, ← hnone]

theorem State.arbitrate_closed {s : State} {r : RailId} (h : s.stage.stage ≠ .playing ∨ (s.rail r).free = false) :
    s.arbitrate r = s := by
  unfold State.arbitrate
  obtain h | h := h <;> simp [h]

theorem State.arbitrate_empty {s : State} {r : RailId} (h : s.members r = []) : s.arbitrate r = s := by
  unfold State.arbitrate
  split
  · rfl
  · rw [h]
    rfl

/-- A rail's event is over where nothing competes for the rail. -/
theorem State.settle_unopposed {s : State} {r : RailId} (hnone : s.decisions = []) (hempty : s.members r = []) :
    (s.wake r).settle = s := by
  have hs : { s.wake r with decisions := [] } = s := by
    cases s
    cases hnone
    rfl
  refine State.settle_one (r := r) ?_ ?_ hnone
  · show s.decisions ++ [r] = [r]
    rw [hnone]
    rfl
  · rw [hs]
    exact State.arbitrate_empty hempty

/-! ## Leaving and the echo queue -/

/-- Settles O43, by the state that an entry's leaving gives. -/
theorem leavingEntriesReachTheEchoQueue : Obligations.LeavingEntriesReachTheEchoQueue := by
  unfold Obligations.LeavingEntriesReachTheEchoQueue
  refine ⟨fun s k e o he => ?_, fun q r => ⟨fun hroom => ?_, fun hfull => ?_⟩⟩
  · intro t isRoll record
    have ht : t = _ := State.leave_some he o
    refine ⟨State.leave_entries s k o, fun hreport => ?_, fun hreport => ?_, fun q hq => ?_, fun v => ?_, State.leave_frame s k o⟩
    · rw [ht, hreport, if_pos rfl]
      exact Bank.look_put_same ..
    · rw [ht, hreport, if_neg Bool.false_ne_true]
      rfl
    · rw [ht]
      cases e.report with
      | true => exact Bank.look_put_ne _ hq _
      | false => rfl
    · rw [ht, State.player, Bank.look_mapWith]
      simp only [State.concerns, Bool.and_eq_true, decide_eq_true_eq]
      by_cases hv : e.voice = chimeVoice <;> simp [hv, State.player]
  · rw [Port.offer, if_pos hroom, Port.levelCheck, List.length_append, List.length_singleton]
    split <;> rfl
  · rw [Port.offer, if_neg (Nat.not_lt.2 hfull)]

/-! ## Deadlines, spacing ends and window slots (R64, R72) -/

theorem State.deadlinePassed_some {s : State} {k : SlotId} {e : Entry} (he : s.entryAt k = some e) :
    s.deadlinePassed k = (s.removeMember k (s.lateReason e.bar)).settle := by
  rw [State.deadlinePassed, he]

theorem Bar.rail_of_first {b : Bar} {n : StrikerId} (h : b.first = some n) : b.rail = some (railOf n) := by
  rw [Bar.rail, Bar.strikers, h]
  rfl

/-- Settles O42: the member leaves or misses its stroke, and an unopposed rail is freed. -/
theorem deadlinesAndRailTimersTakeEffect : Obligations.DeadlinesAndRailTimersTakeEffect := by
  unfold Obligations.DeadlinesAndRailTimersTakeEffect
  intro w s hreset hdecisions
  refine ⟨fun k e deadline n he hreleased hdeadline hfirst hslots => ?_, fun r due hempty => ?_⟩
  · intro u
    have hexec : exec (.deadlineExpiry w k) s = .next (u.removeMember k (u.lateReason e.bar)).settle := by
      have hdue : s.deadlineDue k = some (deadline + 1) := by
        rw [State.deadlineDue, he]
        simp [hreleased, hdeadline]
      show Host.Outcome.next (timerEvent w (s.deadlineDue k) (State.deadlinePassed k) s) = _
      rw [hdue, timerEvent_open hreset, State.deadlinePassed_some (s := s.reach _) he]
      rfl
    have hreason : u.lateReason e.bar = if (s.rail (railOf n)).state = .low then .droppedSupply else .droppedLate := by
      rw [State.lateReason, show (u.bar e.bar).rail = some (railOf n) from Bar.rail_of_first hfirst]
      rfl
    refine ⟨fun hkind => ?_, fun r hr => ?_⟩
    · rw [hexec, hreason, State.removeMember_leaves (s := u) he hkind, State.settle_leave (s := u) hdecisions]
    · intro missed
      have hmiss : exec (.deadlineExpiry w k) s = .next (u.missStroke k).settle := by
        rw [hexec, State.removeMember_misses (s := u) he hr (by rw [hreason]; split <;> nofun)]
      refine ⟨fun hdone => ?_, fun hmore hmark hlater => ?_⟩
      · rw [hmiss, State.missStroke, State.counted_done (s := u) _ hslots he hr hdone,
          State.settle_leave (s := u.modEntry k _) hdecisions]
        rfl
      · rw [hmiss, State.missStroke, State.counted_returns (s := u) _ hslots he hr hmore hmark hlater]
        exact congrArg Host.Outcome.next (State.settle_of_nil hdecisions)
  · refine ⟨fun hend => ?_, fun fired rest hrecent hdue => ?_⟩
    · show Host.Outcome.next (timerEvent w (s.rail r).spacingEnd _ s) = _
      rw [hend, timerEvent_open hreset]
      exact congrArg Host.Outcome.next (State.settle_unopposed hdecisions hempty)
    · show Host.Outcome.next (timerEvent w (s.rail r).freeingDue _ s) = _
      rw [Rail.freeingDue, hrecent]
      refine (congrArg Host.Outcome.next (timerEvent_open hreset ..)).trans ?_
      rw [hdue, State.settle_unopposed (s := (s.reach _).modRail r _) hdecisions hempty]
      show Host.Outcome.next (((s.reach _).modRail r fun r => { r with recent := r.recent.tail })) = _
      simp only [State.modRail, State.reach, State.rail] at hrecent ⊢
      rw [hrecent]
      rfl

end Sys2Proof.Machine
end

section
/-! SUPPORT. The strikers' own life: recoveries, holds, locks and the cooling step (R57, R58, R60, R61, R89, R92). -/
namespace Sys2Proof.Machine

/-! ## Recoveries and locks -/

/-- A striker in recovery (R56, R57). -/
def Striker.recovering (k : Striker) : Striker := { k with state := .recover, driveEnd := none, holdEnd := none, playing := none }

/-- A striker that has entered LOCKED (R60). -/
def Striker.locked (k : Striker) : Striker := { k with state := .locked, lockPending := false, recoveryEnd := none }

section
variable {s : State} {n : StrikerId} {t : Nat}

theorem State.startRecover_waits (hend : (s.striker n).recoveryEnd = some t) (hlater : s.now < t) :
    s.startRecover n = s.modStriker n Striker.recovering := by
  have hkept : ((s.modStriker n Striker.recovering).striker n).recoveryEnd = some t :=
    (congrArg Striker.recoveryEnd (Bank.look_put_same ..)).trans hend
  unfold State.startRecover
  dsimp only
  split
  · next h =>
    cases h.symm.trans hkept
    exact if_pos hlater
  · next h => cases h.symm.trans hkept

theorem State.recovered_idle (h : (s.striker n).lockPending = false) : s.recovered n =
    (s.modStriker n (fun k => { k with state := .idle, recoveryEnd := none })).wake (railOf n) := by
  rw [State.recovered, h, if_neg Bool.false_ne_true]

theorem State.recovered_locked (h : (s.striker n).lockPending = true) : s.recovered n = s.enterLocked n := by
  rw [State.recovered, h, if_pos rfl]

/-- The part's own state after a striker has entered LOCKED, the members of its bar apart. -/
def State.lockStriker (n : StrikerId) (s : State) : State := (s.modStriker n Striker.locked).raiseAll .strikerLocked

theorem State.lockStriker_same : (s.lockStriker n).striker n = (s.striker n).locked := Bank.look_put_same ..

theorem State.lockStriker_other {m : StrikerId} (h : m ≠ n) : (s.lockStriker n).striker m = s.striker m :=
  Bank.look_put_ne _ h _

/-- Where a bar has candidates left, or the striker no bar, no member leaves (R73). -/
theorem State.enterLocked_eq : s.enterLocked n = match (s.striker n).bar with
    | none => s.lockStriker n
    | some b => if (s.lockStriker n).candidates (s.bar b) = [] then
        State.removeMembers .noStriker (s.slotsWhere (fun e => e.state = .released && e.bar = b)) (s.lockStriker n)
      else s.lockStriker n := by
  have hbar : ((s.lockStriker n).striker n).bar = (s.striker n).bar := (congrArg Striker.bar State.lockStriker_same).trans rfl
  unfold State.enterLocked
  rw [← hbar]
  rfl

/-- A lock takes no member out where none is RELEASED. -/
theorem State.enterLocked_unreleased (h : ∀ e ∈ s.entries, e.state ≠ .released) : s.enterLocked n = s.lockStriker n := by
  have hnone : ∀ b, s.slotsWhere (fun e => e.state = .released && e.bar = b) = [] := by
    intro b
    rw [State.slotsWhere, List.filter_eq_nil_iff.2 fun e he => by simp [h e he]]
    rfl
  rw [State.enterLocked_eq]
  split
  · rfl
  · rw [hnone]
    exact ite_self _

theorem State.lockStriker_eq : s.lockStriker n = { s with
    strikers := s.strikers.put n (s.striker n).locked
    ports := s.ports.mapWith (fun _ (q : Port) => { q with pendingNotices := q.pendingNotices ||| 8#8 }) } := rfl

/-! ## Hold ends (R57, R40) -/

variable {k : SlotId}

theorem State.holdEnded_open {early : Bool} (hplaying : (s.striker n).playing = some k)
    (hend : (s.striker n).recoveryEnd = some t) (hlater : s.now < t) (hwindow : s.windowFor k = true) : s.holdEnded n early =
      (if early then s.flag k (fun f => { f with derated := true }) else s).modStriker n Striker.recovering := by
  unfold State.holdEnded
  rw [hplaying]
  cases early with
  | true =>
    dsimp only
    rw [if_pos rfl, State.startRecover_waits (s := s.flag k _) hend hlater]
    exact if_pos hwindow
  | false =>
    dsimp only
    rw [if_neg Bool.false_ne_true, State.startRecover_waits hend hlater]
    exact if_pos hwindow

theorem State.holdEnded_leaves {early : Bool} (hplaying : (s.striker n).playing = some k)
    (hend : (s.striker n).recoveryEnd = some t) (hlater : s.now < t) (hwindow : s.windowFor k = false) : s.holdEnded n early =
      ((if early then s.flag k (fun f => { f with derated := true }) else s).modStriker n Striker.recovering).leave k .played := by
  have hclosed : ¬ (s.windowFor k = true) := by rw [hwindow]; exact Bool.false_ne_true
  unfold State.holdEnded
  rw [hplaying]
  cases early with
  | true =>
    dsimp only
    rw [if_pos rfl, State.startRecover_waits (s := s.flag k _) hend hlater]
    exact if_neg hclosed
  | false =>
    dsimp only
    rw [if_neg Bool.false_ne_true, State.startRecover_waits hend hlater]
    exact if_neg hclosed

/-! ## UNLOCK (R61) -/

theorem State.unlock_locked (h : (s.striker n).state = .locked) : s.unlock n =
    (s.modStriker n (fun k => { k with state := .idle, silentCount := 0, lockPending := false })).wake (railOf n) := if_pos h

theorem State.unlock_other (h : (s.striker n).state ≠ .locked) : s.unlock n =
    s.modStriker n (fun k => { k with silentCount := 0, lockPending := false }) := if_neg h

theorem unlockResult_named : unlockResult (BitVec.ofNat 8 n.1) s =
    ((s.unlock n).settle, .ok, b1 (s.striker n).state.code ++ b1 ((s.unlock n).striker n).state.code) := by
  rw [unlockResult, fieldId_ofNat (by decide)]

end

/-- Settles O45: a hold end, a recovery end and UNLOCK, each with nothing competing for the rail. -/
theorem holdsRecoveriesAndLocksEnd : Obligations.HoldsRecoveriesAndLocksEnd := by
  unfold Obligations.HoldsRecoveriesAndLocksEnd
  intro w s n hreset hdecisions put
  refine ⟨fun due k recovered hhold hend hplaying hrecovery => ?_, fun due hrecover hend => ?_, fun p hready => ?_⟩
  · intro now hlater u
    have hexec : exec (.holdEnd w n) s = .next ((s.reach (max due w.time)).holdEnded n false).settle := by
      show Host.Outcome.next (timerEvent w (s.striker n).holdDue _ s) = _
      rw [Striker.holdDue, if_pos hhold, hend, timerEvent_open hreset]
    refine ⟨fun hwindow => ?_, fun hwindow => ?_⟩
    · rw [hexec, State.holdEnded_leaves (s := s.reach _) hplaying hrecovery hlater hwindow]
      exact congrArg Host.Outcome.next (State.settle_leave (s := u) hdecisions)
    · rw [hexec, State.holdEnded_open (s := s.reach _) hplaying hrecovery hlater hwindow]
      exact congrArg Host.Outcome.next (State.settle_of_nil (s := u) hdecisions)
  · intro now
    have hexec : exec (.recoveryEnd w n) s = .next ((s.reach (max due w.time)).recovered n).settle := by
      show Host.Outcome.next (timerEvent w (s.striker n).recoveryDue _ s) = _
      rw [Striker.recoveryDue, if_pos hrecover, hend, timerEvent_open hreset]
    refine ⟨fun hpending hempty => ?_, fun hpending hunreleased => ?_⟩
    · rw [hexec, State.recovered_idle (s := s.reach _) hpending]
      exact congrArg Host.Outcome.next (State.settle_unopposed (s := (s.reach _).modStriker n _) hdecisions hempty)
    · rw [hexec, State.recovered_locked (s := s.reach _) hpending, State.enterLocked_unreleased (s := s.reach _) hunreleased]
      exact congrArg Host.Outcome.next (State.settle_of_nil (s := (s.reach _).lockStriker n) hdecisions)
  · refine ⟨fun hlocked hempty => ?_, fun hother => ?_⟩
    · refine exec_answers (u := put { s.striker n with state := .idle, silentCount := 0, lockPending := false })
        rfl hready (unlockResult_named.trans ?_)
      rw [State.unlock_locked (s := s.taken w p) hlocked,
        State.settle_unopposed (s := (s.taken w p).modStriker n _) hdecisions hempty]
      have hbefore : ((s.taken w p).striker n).state = .locked := hlocked
      have hafter : ((((s.taken w p).modStriker n fun k => { k with state := .idle, silentCount := 0, lockPending := false }).wake
          (railOf n)).striker n).state = .idle := congrArg Striker.state (Bank.look_put_same ..)
      rw [hbefore, hafter]
      rfl
    · refine exec_answers (u := put { s.striker n with silentCount := 0, lockPending := false })
        rfl hready (unlockResult_named.trans ?_)
      have hafter : (((s.taken w p).modStriker n fun k => { k with silentCount := 0, lockPending := false }).striker n).state =
          (s.striker n).state := (congrArg Striker.state (Bank.look_put_same ..)).trans rfl
      rw [State.unlock_other (s := s.taken w p) hother, State.settle_of_nil (s := (s.taken w p).modStriker n _) hdecisions,
        hafter]
      rfl

/-! ## The cooling step (R89, R92) -/

section
variable {s : State} {n : StrikerId} {k : SlotId}

/-- The hold heat that a cooling step adds to a striker: none where it holds no press. -/
def State.heatAdded (s : State) (n : StrikerId) : Nat := ((s.dutyOf n).map holdHeat).getD 0

theorem State.holdOverheats_iff : s.holdOverheats n = true ↔
    s.dutyOf n ≠ none ∧ (s.striker n).hard ≤ (s.striker n).heat + s.heatAdded n := by
  unfold State.holdOverheats State.heatAdded
  cases s.dutyOf n <;> simp

/-- A cooling step of a striker whose hold does not overheat. -/
theorem Striker.coolWith_below (h : s.holdOverheats n = false) : (s.striker n).coolWith (s.dutyOf n) =
    { s.striker n with heat := cooled ((s.striker n).heat + s.heatAdded n) } := by
  unfold State.holdOverheats at h
  unfold Striker.coolWith State.heatAdded
  cases hduty : s.dutyOf n with
  | none => rfl
  | some d =>
    simp only [hduty, decide_eq_false_iff_not] at h
    simp [h]

theorem State.overheated_nil (h : ∀ n, s.holdOverheats n = false) : s.overheated = [] := by
  refine List.filterMap_eq_nil_iff.2 fun e _ => ?_
  split
  · rw [h, if_neg Bool.false_ne_true]
  · rfl

theorem State.strikerOf_only (hplaying : (s.striker n).playing = some k) (hhold : (s.striker n).state = .hold)
    (honly : ∀ m, m ≠ n → (s.striker m).playing ≠ some k) : s.strikerOf k = some n := by
  cases h : s.strikerOf k with
  | none =>
    have := List.find?_eq_none.1 h n (List.mem_finRange n)
    simp [hplaying, hhold] at this
  | some m =>
    have hm := List.find?_some h
    simp only [Bool.and_eq_true, decide_eq_true_eq] at hm
    by_cases hmn : m = n
    · rw [hmn]
    · exact absurd hm.1 (honly m hmn)

theorem State.dutyOf_press {e : Entry} {q : PressPart} (he : s.entryAt k = some e) (hq : e.part = .press q)
    (hhold : (s.striker n).state = .hold) (hplaying : (s.striker n).playing = some k) : s.dutyOf n = some q.duty := by
  unfold State.dutyOf State.pressPart
  rw [if_pos hhold, hplaying, Option.bind_some, he]
  dsimp only
  rw [hq]
  rfl

end

/-- The strikers after a cooling step, the holds that it ends apart. -/
def State.cooledAll (s : State) : State := { s with strikers := s.strikers.mapWith (fun n k => k.coolWith (s.dutyOf n)) }

theorem exec_coolingStep {w : When} {s : State} (hreset : s.power.inReset = false) : exec (.coolingStep w) s =
    .next (State.endHolds s.overheated ((s.reach (max s.shaper.coolDue w.time)).nextCooling).cooledAll).settle :=
  congrArg Host.Outcome.next (timerEvent_open hreset w _ _)

/-- Settles O46: a cooling step without an overheated hold, and the one hold that overheats. -/
theorem coolingReachesEveryStriker : Obligations.CoolingReachesEveryStriker := by
  unfold Obligations.CoolingReachesEveryStriker
  intro w s hreset hdecisions now cool added
  refine ⟨fun hbelow => ?_, fun n k e q recovered hentries hslot hpart hhold hplaying hrecovery hlater honly hhot hwindow => ?_⟩
  · have hnone : ∀ n, s.holdOverheats n = false := fun n => by
      refine Bool.eq_false_iff.2 fun h => ?_
      obtain ⟨hduty, hhot⟩ := State.holdOverheats_iff.1 h
      exact absurd hhot (Nat.not_le.2 (hbelow n hduty))
    rw [exec_coolingStep hreset, State.overheated_nil hnone]
    refine congrArg Host.Outcome.next
      ((State.settle_of_nil (s := (s.reach (max s.shaper.coolDue w.time)).nextCooling.cooledAll) hdecisions).trans ?_)
    refine congrArg (fun b => { (s.reach _).nextCooling with strikers := b }) (Bank.ext_look fun n => ?_)
    rw [Bank.look_mapWith, Bank.look_mapWith]
    exact Striker.coolWith_below (hnone n)
  · let u := ((s.reach (max s.shaper.coolDue w.time)).nextCooling).cooledAll
    have he : s.entryAt k = some e := by
      rw [State.entryAt, hentries]
      simp [hslot]
    have hduty : s.dutyOf n = some q.duty := State.dutyOf_press he hpart hhold hplaying
    have hover : s.overheated = [n] := by
      have hyes : s.holdOverheats n = true := State.holdOverheats_iff.2 ⟨by rw [hduty]; nofun, by
        rw [State.heatAdded, hduty]
        exact hhot⟩
      rw [State.overheated, hentries]
      simp [hslot, State.strikerOf_only hplaying hhold honly, hyes]
    have hcooled : u.striker n = { s.striker n with heat := cool (s.striker n).hard } := by
      have h : u.striker n = (s.striker n).coolWith (s.dutyOf n) := Bank.look_mapWith ..
      rw [h, hduty]
      exact congrArg (fun x => { s.striker n with heat := cooled x }) (if_pos hhot)
    have hended : u.holdEnded n true = (u.flag k fun f => { f with derated := true }).modStriker n Striker.recovering :=
      State.holdEnded_open (by rw [hcooled]; exact hplaying) (by rw [hcooled]; exact hrecovery) hlater hwindow
    let t := (u.flag k fun f => { f with derated := true }).modStriker n Striker.recovering
    refine ⟨t, (exec_coolingStep hreset).trans ?_, ?_, ?_⟩
    · rw [hover]
      exact congrArg Host.Outcome.next ((congrArg State.settle hended).trans (State.settle_of_nil (s := t) hdecisions))
    · have hlook : t.striker n = (u.striker n).recovering := Bank.look_put_same ..
      rw [hlook, hcooled]
      rfl
    · show s.entries.map _ = _
      rw [hentries]
      simp [hslot]

end Sys2Proof.Machine
end

section
/-! SUPPORT. The fire arbiters (R64 to R73): their keys, a decision that grants, and a decision that drops a hot member. -/
namespace Sys2Proof.Machine

/-! ## The keys of a choice (R69, R70) -/

theorem State.granted_before_iff {s : State} {a b : Entry} : s.granted_before a b = true ↔
    (s.voice b.voice).priority < (s.voice a.voice).priority ∨ ((s.voice a.voice).priority = (s.voice b.voice).priority ∧
      (a.target.getD 0 < b.target.getD 0 ∨ (a.target.getD 0 = b.target.getD 0 ∧ a.seq < b.seq))) := by
  simp [State.granted_before]

theorem State.firstStroke_none {s : State} {l : List Entry} (h : s.firstStroke l = none) : l = [] := by
  cases l with
  | nil => rfl
  | cons e rest =>
    unfold State.firstStroke at h
    split at h
    · cases h
    · split at h <;> cases h

theorem State.firstStroke_first {s : State} {l : List Entry} {e : Entry} (h : s.firstStroke l = some e) :
    ∀ d ∈ l, ¬ s.granted_before d e = true := by
  induction l generalizing e with
  | nil => exact fun _ h => absurd h List.not_mem_nil
  | cons x rest ih =>
    intro d hd
    unfold State.firstStroke at h
    split at h
    · next hrest =>
      cases h
      rw [State.firstStroke_none hrest, List.mem_singleton] at hd
      subst hd
      rw [State.granted_before_iff]
      omega
    · next y hrest =>
      have hy := ih hrest
      split at h
      · next hbefore =>
        cases h
        obtain rfl | hd := List.mem_cons.1 hd
        · rw [State.granted_before_iff] at hbefore ⊢
          omega
        · exact hy d hd
      · next hbefore =>
        cases h
        obtain rfl | hd := List.mem_cons.1 hd
        · rw [State.granted_before_iff]
          omega
        · have hdy := hy d hd
          rw [State.granted_before_iff] at hbefore hdy ⊢
          omega

theorem rankBelow_iff {a b : Nat × Nat × Nat} : rankBelow a b = true ↔
    a.1 < b.1 ∨ (a.1 = b.1 ∧ (a.2.1 < b.2.1 ∨ (a.2.1 = b.2.1 ∧ a.2.2 < b.2.2))) := by
  simp [rankBelow]

theorem State.chooseStriker_none {s : State} {roll : Bool} {l : List StrikerId} (h : s.chooseStriker roll l = none) : l = [] := by
  cases l with
  | nil => rfl
  | cons n rest =>
    unfold State.chooseStriker at h
    split at h
    · cases h
    · split at h <;> cases h

/-- A striker's rank for a stroke. -/
def State.rankOf (s : State) (roll : Bool) (n : StrikerId) : Nat × Nat × Nat := strikerRank roll (s.striker n) n

theorem State.chooseStriker_least {s : State} {roll : Bool} {l : List StrikerId} {n : StrikerId}
    (h : s.chooseStriker roll l = some n) : ∀ m ∈ l, ¬ rankBelow (s.rankOf roll m) (s.rankOf roll n) = true := by
  induction l generalizing n with
  | nil => exact fun _ h => absurd h List.not_mem_nil
  | cons x rest ih =>
    intro m hm
    unfold State.chooseStriker at h
    split at h
    · next hrest =>
      cases h
      rw [State.chooseStriker_none hrest, List.mem_singleton] at hm
      subst hm
      rw [rankBelow_iff]
      omega
    · next y hrest =>
      have hy := ih hrest
      split at h
      · next hbelow =>
        cases h
        obtain rfl | hm := List.mem_cons.1 hm
        · change rankBelow (s.rankOf roll n) (s.rankOf roll m) = true at hbelow
          rw [rankBelow_iff] at hbelow ⊢
          omega
        · exact hy m hm
      · next hbelow =>
        cases h
        obtain rfl | hm := List.mem_cons.1 hm
        · rw [rankBelow_iff]
          omega
        · have hmy := hy m hm
          change ¬ rankBelow (s.rankOf roll y) (s.rankOf roll x) = true at hbelow
          rw [rankBelow_iff] at hbelow hmy ⊢
          omega

/-- The fired-last mark as a key. -/
theorem firedLast_key (k : Striker) : (if k.firedLast then 1 else 0) = k.firedLast.toNat := by
  cases k.firedLast <;> rfl

theorem State.rankBelow_single {s : State} {m n : StrikerId} : rankBelow (s.rankOf false m) (s.rankOf false n) = true ↔
    (s.striker m).heat < (s.striker n).heat ∨ ((s.striker m).heat = (s.striker n).heat ∧
      ((s.striker m).firedLast.toNat < (s.striker n).firedLast.toNat ∨
        ((s.striker m).firedLast.toNat = (s.striker n).firedLast.toNat ∧ m < n))) := rankBelow_iff

theorem State.rankBelow_roll {s : State} {m n : StrikerId} : rankBelow (s.rankOf true m) (s.rankOf true n) = true ↔
    (s.striker m).firedLast.toNat < (s.striker n).firedLast.toNat ∨
      ((s.striker m).firedLast.toNat = (s.striker n).firedLast.toNat ∧ ((s.striker m).heat < (s.striker n).heat ∨
        ((s.striker m).heat = (s.striker n).heat ∧ m < n))) := rankBelow_iff

/-! ## Members (R67, R69) -/

theorem State.mem_members {s : State} {r : RailId} {e : Entry} :
    e ∈ s.members r ↔ e ∈ s.entries ∧ e.state = .released ∧ (s.bar e.bar).rail = some r := by
  simp [State.members, List.mem_filter]

theorem Bar.rail_iff {b : Bar} {r : RailId} : b.rail = some r ↔ ∃ n, b.strikers.head? = some n ∧ n.1 / 16 = r.1 := by
  simp [Bar.rail, railOf, Fin.ext_iff]

theorem Entry.eligible_iff {now : Nat} {e : Entry} : e.eligible now = true ↔
    (∃ t, e.target = some t ∧ t ≤ now) ∧ ∃ t, e.deadline = some t ∧ now ≤ t := by
  unfold Entry.eligible
  cases e.target <;> cases e.deadline <;> simp

theorem State.mem_candidates {s : State} {b : Bar} {n : StrikerId} :
    n ∈ s.candidates b ↔ n ∈ b.strikers ∧ (s.striker n).state ≠ .locked := by
  simp [State.candidates, List.mem_filter]

theorem State.mem_ready {s : State} {b : Bar} {n : StrikerId} : n ∈ s.readyStrikers b ↔
    n ∈ b.strikers ∧ (s.striker n).state = .idle ∧ (s.striker n).heat < (s.striker n).hard := by
  simp only [State.readyStrikers, List.mem_filter, State.mem_candidates, Striker.hot, Bool.and_eq_true, decide_eq_true_eq,
    Bool.not_eq_true', decide_eq_false_iff_not, Nat.not_le]
  constructor
  · rintro ⟨⟨hbar, -⟩, hidle, hcool⟩
    exact ⟨hbar, hidle, hcool⟩
  · rintro ⟨hbar, hidle, hcool⟩
    exact ⟨⟨hbar, by rw [hidle]; nofun⟩, hidle, hcool⟩

theorem State.allHot_iff {s : State} {e : Entry} : s.allHot e = true ↔
    ∀ n, n ∈ (s.bar e.bar).strikers ∧ (s.striker n).state ≠ .locked → (s.striker n).hard ≤ (s.striker n).heat := by
  simp only [State.allHot, List.all_eq_true, State.mem_candidates, Striker.hot, decide_eq_true_eq]

/-- The members that a decision may grant: eligible, with a striker that is ready (R69). -/
def State.grantable (s : State) (r : RailId) : List Entry :=
  ((s.members r).filter (Entry.eligible s.now)).filter
    (fun e => !s.allHot e && !(s.readyStrikers (s.bar e.bar)).isEmpty)

theorem State.mem_grantable {s : State} {r : RailId} {e : Entry} : e ∈ s.grantable r ↔
    e ∈ s.members r ∧ e.eligible s.now = true ∧ s.allHot e = false ∧ ∃ n, n ∈ s.readyStrikers (s.bar e.bar) := by
  simp only [State.grantable, List.mem_filter, Bool.and_eq_true, Bool.not_eq_true', List.isEmpty_eq_false_iff_exists_mem, and_assoc]

/-! ## A decision (R69, R71) -/

section
variable {s : State} {r : RailId} {e : Entry} {n : StrikerId}

/-- A free rail of a part in PLAYING decides (R65, R69). -/
theorem State.arbitrate_open (hplaying : s.stage.stage = .playing) (hfree : (s.rail r).free = true) : s.arbitrate r =
    let t := State.removeMembers .droppedHot ((((s.members r).filter (Entry.eligible s.now)).filter s.allHot).map (·.slot)) s
    match t.firstStroke (s.grantable r) with
    | none => t
    | some e => match t.chooseStriker e.part.isRoll (t.readyStrikers (t.bar e.bar)) with
      | none => t
      | some n => (t.grant e n).wake r := by
  have hopen : ¬ ((decide (s.stage.stage ≠ .playing) || !(s.rail r).free) = true) := by simp [hplaying, hfree]
  unfold State.arbitrate
  exact if_neg hopen

theorem State.arbitrate_grants (hplaying : s.stage.stage = .playing) (hfree : (s.rail r).free = true)
    (hcool : ∀ d ∈ s.members r, d.eligible s.now = true → s.allHot d = false)
    (hfirst : s.firstStroke (s.grantable r) = some e)
    (hchosen : s.chooseStriker e.part.isRoll (s.readyStrikers (s.bar e.bar)) = some n) :
    s.arbitrate r = (s.grant e n).wake r := by
  have hnone : ((s.members r).filter (Entry.eligible s.now)).filter s.allHot = [] := by
    refine List.filter_eq_nil_iff.2 fun d hd => ?_
    obtain ⟨hmember, heligible⟩ := List.mem_filter.1 hd
    rw [hcool d hmember heligible]
    exact Bool.false_ne_true
  rw [State.arbitrate_open hplaying hfree, hnone]
  show (match s.firstStroke (s.grantable r) with
    | none => s
    | some e => match s.chooseStriker e.part.isRoll (s.readyStrikers (s.bar e.bar)) with
      | none => s
      | some n => (s.grant e n).wake r) = _
  rw [hfirst]
  dsimp only
  rw [hchosen]

/-- The one member of a set leaves, or misses its stroke, where its candidates are all hot. -/
theorem State.arbitrate_hot (hplaying : s.stage.stage = .playing) (hfree : (s.rail r).free = true) (hone : s.members r = [e])
    (heligible : e.eligible s.now = true) (hhot : s.allHot e = true) : s.arbitrate r = s.removeMember e.slot .droppedHot := by
  have hnone : s.grantable r = [] := by
    rw [State.grantable, hone]
    simp [heligible, hhot]
  have hall : ((s.members r).filter (Entry.eligible s.now)).filter s.allHot = [e] := by
    rw [hone]
    simp [heligible, hhot]
  rw [State.arbitrate_open hplaying hfree, hnone, hall]
  rfl

theorem State.unmarkOthers_striker (m : StrikerId) : (s.unmarkOthers e n).striker m =
    if m ≠ n ∧ m ∈ (s.bar e.bar).strikers then { s.striker m with firedLast := false } else s.striker m := by
  have h : ∀ (l : List StrikerId) (t : State),
      (l.foldl (fun t m => t.modStriker m (fun k => { k with firedLast := false })) t).striker m =
        if m ∈ l then { t.striker m with firedLast := false } else t.striker m := by
    intro l
    induction l with
    | nil => exact fun t => (if_neg (List.not_mem_nil)).symm
    | cons x rest ih =>
      intro t
      rw [List.foldl_cons, ih]
      by_cases hm : m = x
      · subst hm
        simp
      · simp [hm]
  rw [State.unmarkOthers, h]
  simp [List.mem_filter, and_comm]

/-- The strikers after a grant: the chosen one drives, and the bar's others lose the fired-last mark (R71). -/
def State.firedStrikers (e : Entry) (n : StrikerId) (s : State) : Bank Striker 96 :=
  s.strikers.mapWith fun m k =>
    if m = n then k.fire s.now (s.shaped e n).pulse e.slot
    else if m ∈ (s.bar e.bar).strikers then { k with firedLast := false } else k

/-- A grant, taken whole (R71). -/
theorem State.grant_state : s.grant e n = { s with
    strikers := s.firedStrikers e n
    rails := s.rails.put (railOf n) ((s.rail (railOf n)).fire s.now)
    entries := s.entries.map fun d => if d.slot = e.slot then
      d.fired s.now n (s.shaped e n) (s.damped (s.bar e.bar)) else d } := by
  have hstrikers : (s.unmarkOthers e n).strikers.put n
      (((s.unmarkOthers e n).striker n).fire s.now (s.shaped e n).pulse e.slot) = s.firedStrikers e n := by
    refine Bank.ext_look fun m => ?_
    rw [Bank.look_put, State.firedStrikers, Bank.look_mapWith]
    by_cases hm : m = n
    · subst hm
      rw [if_pos rfl, if_pos rfl, State.unmarkOthers_striker, if_neg fun h => h.1 rfl]
      rfl
    · rw [if_neg hm, if_neg hm]
      refine (State.unmarkOthers_striker m).trans ?_
      by_cases hbar : m ∈ (s.bar e.bar).strikers
      · rw [if_pos ⟨hm, hbar⟩, if_pos hbar]
        rfl
      · rw [if_neg fun h => hbar h.2, if_neg hbar]
        rfl
  rw [State.grant_eq, ← hstrikers]
  generalize hu : s.unmarkOthers e n = u
  have hframe : u = { s with strikers := u.strikers } := by
    rw [← hu]
    exact s.unmarkOthers_frame e n
  rw [hframe]
  rfl

theorem State.grant_rail : (s.grant e n).rail (railOf n) = (s.rail (railOf n)).fire s.now := by
  rw [State.grant_state]
  exact Bank.look_put_same ..

theorem Rail.fire_free {q : Rail} {now : Nat} (h : 0 < q.spacing) : (q.fire now).free = false := by
  rw [Rail.free, Rail.fire, if_neg (by omega)]
  rfl

/-- The entry of the stroke granted is no longer a member. -/
theorem State.grant_members (q : RailId) : (s.grant e n).members q = (s.members q).filter (fun d => d.slot ≠ e.slot) := by
  have h : ∀ l : List Entry, ((l.map fun d => if d.slot = e.slot then
      d.fired s.now n (s.shaped e n) (s.damped (s.bar e.bar)) else d).filter fun d =>
        d.state = .released && (s.bar d.bar).rail = some q) =
      (l.filter fun d => d.state = .released && (s.bar d.bar).rail = some q).filter (fun d => d.slot ≠ e.slot) := by
    intro l
    induction l with
    | nil => rfl
    | cons d rest ih =>
      rw [List.map_cons, List.filter_cons, List.filter_cons, ih]
      by_cases hd : d.slot = e.slot
      · rw [if_pos hd]
        have hfiring : (d.fired s.now n (s.shaped e n) (s.damped (s.bar e.bar))).state = .firing := rfl
        split
        · next hreleased => simp [hfiring] at hreleased
        · split
          · rw [List.filter_cons]
            simp [hd]
          · rfl
      · rw [if_neg hd]
        split
        · rw [List.filter_cons]
          simp [hd]
        · rfl
  rw [State.grant_state]
  exact h s.entries

/-! ## The decisions of one event (R68) -/

variable {t : State}

theorem State.wake_taken (hnone : s.decisions = []) : { s.wake r with decisions := [] } = s := by
  cases s
  cases hnone
  rfl

theorem State.wake_single (hnone : s.decisions = []) : (s.wake r).decisions = [r] := by
  show s.decisions ++ [r] = [r]
  rw [hnone]
  rfl

theorem State.settle_decided (hnone : s.decisions = []) (hdecided : s.arbitrate r = t) (hdone : t.decisions = []) :
    (s.wake r).settle = t :=
  State.settle_one (State.wake_single hnone) (by rw [State.wake_taken hnone]; exact hdecided) hdone

/-- After a grant the arbiter decides once more (R69), and changes nothing where the rail is not free or no member is left. -/
theorem State.settle_granted (hnone : s.decisions = []) (hdecided : s.arbitrate r = (s.grant e n).wake r)
    (hagain : (s.grant e n).arbitrate r = s.grant e n) : (s.wake r).settle = s.grant e n := by
  have hdone : (s.grant e n).decisions = [] := by
    rw [State.grant_state]
    exact hnone
  have hrest : ∀ j, State.settleUpTo j (s.grant e n) = s.grant e n := by
    intro j
    cases j with
    | zero => rfl
    | succ j => rw [State.settleUpTo, hdone]
  have hfuel : 2 ≤ (s.wake r).decisions.length + ((s.wake r).entries.map Entry.strokesLeft).sum + 1 := by
    rw [State.wake_single hnone, List.length_singleton]
    omega
  obtain ⟨j, hj⟩ := Nat.exists_eq_add_of_le' hfuel
  rw [State.settle, hj, State.settleUpTo, State.wake_single hnone]
  dsimp only
  rw [State.wake_taken hnone, hdecided, State.settleUpTo, State.wake_single hdone]
  dsimp only
  rw [State.wake_taken hdone, hagain, hrest]
  exact hdone ▸ rfl

end

end Sys2Proof.Machine
end

section
/-! SUPPORT. Grants at a target fire time and at a spacing end, hot members, and locks (R68 to R73). -/
namespace Sys2Proof.Machine

section
variable {s : State} {r : RailId} {k : SlotId} {e : Entry} {n : StrikerId}

/-! ## Members that change in place -/

theorem State.members_modEntry {f : Entry → Entry} (hstate : ∀ d, (f d).state = d.state) (hbar : ∀ d, (f d).bar = d.bar) :
    (s.modEntry k f).members r = (s.members r).map (fun d => if d.slot = k then f d else d) := by
  rw [State.members, State.members, State.modEntry, List.filter_map]
  refine congrArg (List.map _) (List.filter_congr fun d _ => ?_)
  by_cases hd : d.slot = k
  · simp only [Function.comp_apply, if_pos hd, hstate, hbar]
    rfl
  · simp only [Function.comp_apply, if_neg hd]
    rfl

/-- A rail is not free: one of the conditions of R65 fails. -/
theorem Rail.not_free_iff {q : Rail} :
    q.free = false ↔ q.state ≠ .up ∨ q.spacingEnd ≠ none ∨ q.count ≤ q.recent.length := by
  rw [← Bool.not_eq_true, Rail.free_iff]
  by_cases hs : q.state = .up <;> by_cases he : q.spacingEnd = none <;> simp [hs, he]

theorem Bar.strikers_alone {b : Bar} (hfirst : b.first = some n) (hsecond : b.second = none) : b.strikers = [n] := by
  rw [Bar.strikers, hfirst, hsecond]
  rfl

theorem State.readyStrikers_alone {b : Bar} (hbar : b.strikers = [n]) (hidle : (s.striker n).state = .idle)
    (hcool : (s.striker n).heat < (s.striker n).hard) : s.readyStrikers b = [n] := by
  simp [State.readyStrikers, State.candidates, hbar, hidle, Striker.hot, hcool]

/-- A bar's only striker leaves no other mark to clear. -/
theorem State.firedStrikers_alone (hbar : (s.bar e.bar).strikers = [n]) : s.firedStrikers e n =
    s.strikers.put n ((s.striker n).fire s.now (s.shaped e n).pulse e.slot) := by
  refine Bank.ext_look fun m => ?_
  rw [State.firedStrikers, Bank.look_mapWith, Bank.look_put, hbar]
  by_cases hm : m = n
  · subst hm
    rw [if_pos rfl, if_pos rfl]
    rfl
  · rw [if_neg hm, if_neg hm, if_neg (by simpa using hm)]

/-- The only member of a set is granted where it is eligible and its striker is ready. -/
theorem State.arbitrate_only (hplaying : s.stage.stage = .playing) (hfree : (s.rail r).free = true) (hone : s.members r = [e])
    (heligible : e.eligible s.now = true) (hready : s.readyStrikers (s.bar e.bar) = [n]) : s.arbitrate r = (s.grant e n).wake r := by
  have hn := (State.mem_ready (s := s) (b := s.bar e.bar) (n := n)).1 (by simp [hready])
  obtain ⟨hbar, hidle, hcool⟩ := hn
  have hcold : s.allHot e = false := by
    rw [← Bool.not_eq_true, State.allHot_iff]
    exact fun h => absurd (h n ⟨hbar, by rw [hidle]; nofun⟩) (Nat.not_le.2 hcool)
  refine State.arbitrate_grants hplaying hfree (fun d hd _ => ?_) ?_ (by rw [hready]; rfl)
  · rw [hone, List.mem_singleton] at hd
    rw [hd, hcold]
  · have hall : s.grantable r = [e] := by
      rw [State.grantable, hone]
      simp [heligible, hcold, hready]
    rw [hall]
    rfl

/-! ## A target fire time (R68) -/

theorem State.targetReached_some (he : s.entryAt k = some e) (hrail : (s.bar e.bar).rail = some r) : s.targetReached k =
    ((s.modEntry k (fun e => { e with targetReached := true })).wake r).settle := by
  rw [State.targetReached, he]
  dsimp only
  rw [State.wakeRailOf, show ((s.modEntry k _).bar e.bar).rail = some r from hrail]

theorem exec_targetFireTimeReached {w : When} {target : Nat} (hreset : s.power.inReset = false) (he : s.entryAt k = some e)
    (hreleased : e.state = .released) (hnew : e.targetReached = false) (htarget : e.target = some target)
    (hrail : (s.bar e.bar).rail = some r) : exec (.targetFireTimeReached w k) s = .next
      (((s.reach (max target w.time)).modEntry k (fun e => { e with targetReached := true })).wake r).settle := by
  have hdue : s.targetDue k = some target := by
    rw [State.targetDue, he]
    simp [hreleased, hnew, htarget]
  show Host.Outcome.next (timerEvent w (s.targetDue k) (State.targetReached k) s) = _
  rw [hdue, timerEvent_open hreset, State.targetReached_some (s := s.reach _) he hrail]

end

/-- Settles O40: the bar's one striker fires where the rail is free, and nothing fires where it is not. -/
theorem grantFiresTheStriker : Obligations.GrantFiresTheStriker := by
  unfold Obligations.GrantFiresTheStriker
  intro w s k e target deadline n hreset hdecisions hslots he hreleased hnew htarget hdeadline hfirst hsecond now r reached
  have hexec := exec_targetFireTimeReached (w := w) hreset he hreleased hnew htarget (Bar.rail_of_first hfirst)
  let u : State := (s.reach (max target w.time)).modEntry k (fun e => { e with targetReached := true })
  have hnone : u.decisions = [] := hdecisions
  refine ⟨fun hclosed => ?_, fun hplaying hup hspaced hroom hone hdue hidle hcool hkind => ?_⟩
  · refine hexec.trans (congrArg Host.Outcome.next (State.settle_decided (t := u) hnone (State.arbitrate_closed ?_) hnone))
    exact hclosed.imp id Rail.not_free_iff.2
  · intro x
    let f : Entry := { e with targetReached := true }
    have hslot : e.slot = k := State.entryAt_slot he
    have hbar : (u.bar f.bar).strikers = [n] := Bar.strikers_alone hfirst hsecond
    have hmembers : u.members r = [f] := by
      refine (State.members_modEntry (f := fun e => { e with targetReached := true }) (fun _ => rfl) fun _ => rfl).trans ?_
      rw [show (s.reach (max target w.time)).members r = [e] from hone, List.map_singleton, if_pos hslot]
    have hgrant : u.arbitrate r = (u.grant f n).wake r :=
      State.arbitrate_only hplaying (Rail.free_iff.2 ⟨hspaced, hroom, hup⟩) hmembers
        (Entry.eligible_iff.2 ⟨⟨target, htarget, by
          show target ≤ max s.now (max target w.time)
          omega⟩, deadline, hdeadline, hdue⟩) (State.readyStrikers_alone hbar hidle hcool)
    have hagain : (u.grant f n).arbitrate r = u.grant f n := State.arbitrate_empty (by
      rw [State.grant_members, hmembers]
      simp)
    rw [hexec, State.settle_granted hnone hgrant hagain, State.grant_state, State.firedStrikers_alone hbar]
    have hentries : (u.entries.map fun d => if d.slot = f.slot then
        d.fired u.now n (u.shaped f n) (u.damped (u.bar f.bar)) else d) = s.entries.map (fun d => if d.slot = k then { d with
          targetReached := true
          state := .firing
          fire := some { striker := n, offset := now - target, applied := x.applied, pulse := x.pulse }
          flags := { d.flags with
            derated := d.flags.derated || x.derated
            damped := d.flags.damped || ({ s with now := now } : State).damped (s.bar e.bar) } } else d) := by
      rw [show f.slot = k from hslot]
      refine (List.map_map ..).trans (List.map_congr_left fun d hd => ?_)
      by_cases hk : d.slot = k
      · have hde := State.eq_of_slot hslots he hd hk
        subst hde
        simp only [Function.comp_apply, if_pos hk, Entry.fired, hkind, htarget]
        rfl
      · simp only [Function.comp_apply, if_neg hk]
    rw [hentries, show f.slot = k from hslot]
    rfl

section
variable {s : State} {r : RailId} {k : SlotId} {e : Entry} {n : StrikerId}

/-! ## Spacing ends and locks (R64, R60, R73) -/

theorem exec_spacingEnd {w : When} {due : Nat} (hreset : s.power.inReset = false) (hend : (s.rail r).spacingEnd = some due) :
    exec (.spacingEnd w r) s = .next
      ((((s.reach (max due w.time)).modRail r (fun q => { q with spacingEnd := none })).wake r).settle) := by
  show Host.Outcome.next (timerEvent w (s.rail r).spacingEnd _ s) = _
  rw [hend, timerEvent_open hreset]

theorem State.removeMember_noStriker : s.removeMember k .noStriker = s.leave k .noStriker := by
  unfold State.removeMember
  split
  · next h => exact (State.leave_none h _).symm
  · simp

theorem exec_recoveryEnd_locks {w : When} {due : Nat} (hreset : s.power.inReset = false) (hrecover : (s.striker n).state = .recover)
    (hend : (s.striker n).recoveryEnd = some due) (hpending : (s.striker n).lockPending = true) :
    exec (.recoveryEnd w n) s = .next ((s.reach (max due w.time)).enterLocked n).settle := by
  show Host.Outcome.next (timerEvent w (s.striker n).recoveryDue _ s) = _
  rw [Striker.recoveryDue, if_pos hrecover, hend, timerEvent_open hreset, State.recovered_locked (s := s.reach _) hpending]

theorem State.enterLocked_leaves {b : BarId} (hbar : (s.striker n).bar = some b)
    (hnone : ∀ m ∈ (s.bar b).strikers, m ≠ n → (s.striker m).state = .locked) : s.enterLocked n =
      State.removeMembers .noStriker (s.slotsWhere (fun e => e.state = .released && e.bar = b)) (s.lockStriker n) := by
  have hempty : (s.lockStriker n).candidates (s.bar b) = [] := by
    refine List.eq_nil_iff_forall_not_mem.2 fun m hm => ?_
    obtain ⟨hmem, hlocked⟩ := State.mem_candidates.1 hm
    by_cases hmn : m = n
    · subst hmn
      rw [State.lockStriker_same] at hlocked
      exact hlocked rfl
    · rw [State.lockStriker_other hmn] at hlocked
      exact hlocked (hnone m hmem hmn)
  rw [State.enterLocked_eq, hbar]
  exact if_pos hempty

theorem State.enterLocked_stays {b : BarId} {m : StrikerId} (hbar : (s.striker n).bar = some b)
    (hmem : m ∈ (s.bar b).strikers) (hmn : m ≠ n) (hlocked : (s.striker m).state ≠ .locked) : s.enterLocked n = s.lockStriker n := by
  have hsome : (s.lockStriker n).candidates (s.bar b) ≠ [] :=
    List.ne_nil_of_mem (State.mem_candidates.2 ⟨hmem, by rwa [State.lockStriker_other hmn]⟩)
  rw [State.enterLocked_eq, hbar]
  exact if_neg hsome

/-! ## The choice among many members -/

/-- The keys of R69 as a strict order, stroke `d` before stroke `f`. -/
theorem State.firstStroke_unique {l : List Entry} (hmem : e ∈ l)
    (hbest : ∀ d ∈ l, d = e ∨ s.granted_before e d = true) : s.firstStroke l = some e := by
  cases h : s.firstStroke l with
  | none => exact absurd (State.firstStroke_none h) (List.ne_nil_of_mem hmem)
  | some d =>
    obtain hd | hd := hbest d (State.firstStroke_mem h)
    · rw [hd]
    · exact absurd hd (State.firstStroke_first h e hmem)

theorem State.chooseStriker_unique {roll : Bool} {l : List StrikerId} (hmem : n ∈ l)
    (hbest : ∀ m ∈ l, m = n ∨ rankBelow (s.rankOf roll n) (s.rankOf roll m) = true) : s.chooseStriker roll l = some n := by
  cases h : s.chooseStriker roll l with
  | none => exact absurd (State.chooseStriker_none h) (List.ne_nil_of_mem hmem)
  | some m =>
    obtain hm | hm := hbest m (State.chooseStriker_mem h)
    · rw [hm]
    · exact absurd hm (State.chooseStriker_least h n hmem)

end

/-- The keys of O41: what a choice of a stroke and of a striker has found, and who competes. -/
theorem arbiterKeys (s : State) :
    (∀ (l : List Entry) (e : Entry), s.firstStroke l = some e → e ∈ l ∧ ∀ d ∈ l,
      let rank : Entry → Nat := fun x => (s.voice x.voice).priority
      rank d ≤ rank e ∧ (rank d = rank e → e.target.getD 0 ≤ d.target.getD 0 ∧
        (d.target.getD 0 = e.target.getD 0 → e.seq ≤ d.seq))) ∧
    (∀ l, s.firstStroke l = none → l = []) ∧
    (∀ (l : List StrikerId) (n : StrikerId),
      let heat : StrikerId → Nat := fun m => (s.striker m).heat
      let mark : StrikerId → Nat := fun m => if (s.striker m).firedLast then 1 else 0
      (s.chooseStriker false l = some n → n ∈ l ∧ ∀ m ∈ l, heat n ≤ heat m ∧
        (heat n = heat m → mark n ≤ mark m ∧ (mark n = mark m → n ≤ m))) ∧
      (s.chooseStriker true l = some n → n ∈ l ∧ ∀ m ∈ l, mark n ≤ mark m ∧
        (mark n = mark m → heat n ≤ heat m ∧ (heat n = heat m → n ≤ m)))) ∧
    (∀ roll l, s.chooseStriker roll l = none → l = []) ∧
    (∀ (r : RailId) (e : Entry), e ∈ s.members r ↔ e ∈ s.entries ∧ e.state = .released ∧
      ∃ n, (s.bar e.bar).strikers.head? = some n ∧ n.1 / 16 = r.1) := by
  refine ⟨fun l e h => ⟨State.firstStroke_mem h, fun d hd => ?_⟩, fun l h => State.firstStroke_none h, fun l n => ?_,
    fun roll l h => State.chooseStriker_none h, fun r e => by rw [State.mem_members, Bar.rail_iff]⟩
  · have hlast := State.firstStroke_first h d hd
    rw [State.granted_before_iff] at hlast
    dsimp only
    omega
  · simp only [firedLast_key, Fin.le_def]
    refine ⟨fun h => ⟨State.chooseStriker_mem h, fun m hm => ?_⟩, fun h => ⟨State.chooseStriker_mem h, fun m hm => ?_⟩⟩
    · have hleast := State.chooseStriker_least h m hm
      rw [State.rankBelow_single, Fin.lt_def] at hleast
      omega
    · have hleast := State.chooseStriker_least h m hm
      rw [State.rankBelow_roll, Fin.lt_def] at hleast
      omega

/-- Settles O41: the keys, a grant among many members at a spacing end, a hot member, and a lock. -/
theorem arbiterChoosesByTheKeys : Obligations.ArbiterChoosesByTheKeys := by
  unfold Obligations.ArbiterChoosesByTheKeys
  refine ⟨arbiterKeys, fun w s r due hreset hdecisions hplaying hslots hend hup hroom hspacing => ?_,
    fun w s n b due hreset hdecisions hrecover hend hpending hbar => ?_⟩
  · intro now eligible candidate ready hot rank first heat mark
    let u : State := (s.reach (max due w.time)).modRail r (fun q => { q with spacingEnd := none })
    have hexec : exec (.spacingEnd w r) s = .next (u.wake r).settle := exec_spacingEnd hreset hend
    have hnone : u.decisions = [] := hdecisions
    have hrail : u.rail r = { s.rail r with spacingEnd := none } := Bank.look_put_same ..
    have hfree : (u.rail r).free = true := by
      rw [hrail, Rail.free_iff]
      exact ⟨rfl, hroom, hup⟩
    have heligible : ∀ d, eligible d ↔ d ∈ u.members r ∧ d.eligible u.now = true := fun d => by
      rw [Entry.eligible_iff]
      exact Iff.rfl
    have hready : ∀ d m, ready d m ↔ m ∈ u.readyStrikers (u.bar d.bar) := fun d m => State.mem_ready.symm
    have hhot : ∀ d, hot d ↔ u.allHot d = true := fun d => State.allHot_iff.symm
    refine ⟨fun e n he hn hown hcold hbest hleast => ?_, fun e hone he hall => ?_⟩
    · intro x
      have hmember := ((heligible e).1 he)
      have hfirst : u.firstStroke (u.grantable r) = some e := by
        refine State.firstStroke_unique (State.mem_grantable.2 ⟨hmember.1, hmember.2, ?_, n, (hready e n).1 hn⟩) fun d hd => ?_
        · exact Bool.eq_false_iff.2 fun h => hcold e he ((hhot e).2 h)
        · obtain ⟨hd, hde, -, m, hm⟩ := State.mem_grantable.1 hd
          exact (hbest d ((heligible d).2 ⟨hd, hde⟩) ⟨m, (hready d m).2 hm⟩).imp id State.granted_before_iff.2
      have hchosen : u.chooseStriker e.part.isRoll (u.readyStrikers (u.bar e.bar)) = some n := by
        refine State.chooseStriker_unique ((hready e n).1 hn) fun m hm => (hleast m ((hready e m).2 hm)).imp id fun h => ?_
        simp only [mark, firedLast_key] at h
        cases hroll : e.part.isRoll with
        | true =>
          rw [if_pos hroll] at h
          exact State.rankBelow_roll.2 h
        | false =>
          rw [if_neg (by rw [hroll]; exact Bool.false_ne_true)] at h
          exact State.rankBelow_single.2 h
      have hgrant : u.arbitrate r = (u.grant e n).wake r :=
        State.arbitrate_grants hplaying hfree (fun d hd hde =>
          Bool.eq_false_iff.2 fun h => hcold d ((heligible d).2 ⟨hd, hde⟩) ((hhot d).2 h)) hfirst hchosen
      have hfired : (u.grant e n).rail r = { s.rail r with
          recent := (s.rail r).recent ++ [now], spacingEnd := some (now + (s.rail r).spacing) } := by
        have h := State.grant_rail (s := u) (e := e) (n := n)
        rw [hown, hrail, Rail.fire, if_neg (Nat.ne_of_gt hspacing)] at h
        exact h
      have hagain : (u.grant e n).arbitrate r = u.grant e n :=
        State.arbitrate_closed (.inr (Rail.not_free_iff.2 (.inr (.inl (by rw [hfired]; nofun)))))
      have hshaped : u.shaped e n = x := by
        rw [State.shaped, hown, hrail]
        rfl
      have hrails : (u.grant e n).rails = s.rails.put r { s.rail r with
          recent := (s.rail r).recent ++ [now], spacingEnd := some (now + (s.rail r).spacing) } := by
        rw [← hfired, State.grant_state, hown]
        show (s.rails.put r _).put r _ = s.rails.put r ((((s.rails.put r _).put r _)).look r)
        rw [Bank.put_put, Bank.look_put_same]
      have hentries : (u.grant e n).entries = s.entries.map (fun (d : Entry) => if d.slot = e.slot then { d with
          state := .firing
          fire := if d.part.isRoll then none else
            some { striker := n, offset := now - d.target.getD now, applied := x.applied, pulse := x.pulse }
          flags := { d.flags with
            derated := d.flags.derated || x.derated
            damped := d.flags.damped || ({ s with now := now } : State).damped (s.bar d.bar) } } else d) := by
        rw [State.grant_state, hshaped]
        refine List.map_congr_left fun d hd => ?_
        by_cases hk : d.slot = e.slot
        · rw [if_pos hk, if_pos hk, State.eq_of_slot hslots
            (State.entryAt_of_mem hslots (State.mem_members.1 hmember.1).1) hd hk]
          rfl
        · rw [if_neg hk, if_neg hk]
      have hstrikers : (u.grant e n).strikers = u.firedStrikers e n := by rw [State.grant_state]
      have hframe : u.grant e n = { s with
          now := now
          strikers := (u.grant e n).strikers
          rails := (u.grant e n).rails
          entries := (u.grant e n).entries } := by
        rw [State.grant_state]
        rfl
      rw [hexec, State.settle_granted hnone hgrant hagain, hframe, hrails, hentries, hstrikers, State.firedStrikers, hshaped]
      rfl
    · intro v
      have hslotted : s.entryAt e.slot = some e :=
        State.entryAt_of_mem hslots (State.mem_members.1 (by rw [hone]; exact List.mem_singleton.2 rfl)).1
      have hmember := (heligible e).1 he
      have hdropped : u.arbitrate r = u.removeMember e.slot .droppedHot :=
        State.arbitrate_hot hplaying hfree hone hmember.2 ((hhot e).1 hall)
      refine ⟨fun hkind => ?_, fun x hx => ?_⟩
      · rw [hexec, State.settle_decided hnone (hdropped.trans (State.removeMember_leaves hslotted hkind))
          ((State.leave_decisions ..).trans hdecisions)]
        rfl
      · intro missed
        have hmiss : u.arbitrate r = u.missStroke e.slot := hdropped.trans (State.removeMember_misses hslotted hx nofun)
        refine ⟨fun hdone => ?_, fun hmore hmark hlater => ?_⟩
        · rw [hexec, State.settle_decided hnone (hmiss.trans (State.counted_done (s := u) _ hslots hslotted hx hdone))
            ((State.leave_decisions ..).trans hdecisions)]
          rfl
        · rw [hexec, State.settle_decided hnone
            (hmiss.trans (State.counted_returns (s := u) _ hslots hslotted hx hmore hmark hlater)) hdecisions]
          rfl
  · intro u
    have hexec := exec_recoveryEnd_locks (w := w) hreset hrecover hend hpending
    have hnone : u.decisions = [] := hdecisions
    refine ⟨fun ⟨m, hm, hmn, hlocked⟩ => ?_, fun hall => ⟨fun d e hpicked hne => ?_, fun e hpicked => ?_⟩⟩
    · rw [hexec, State.enterLocked_stays (s := s.reach _) hbar hm hmn hlocked]
      exact congrArg Host.Outcome.next (State.settle_of_nil (s := u) hnone)
    · have hslotsOf : (s.reach (max due w.time)).slotsWhere (fun e => e.state = .released && e.bar = b) = [d.slot, e.slot] := by
        exact congrArg (List.map (·.slot)) hpicked
      rw [hexec, State.enterLocked_leaves (s := s.reach _) hbar hall, hslotsOf, State.removeMembers, State.removeMembers,
        State.removeMembers, State.removeMember_noStriker, State.removeMember_noStriker]
      exact congrArg Host.Outcome.next (State.settle_leave (s := u.leave d.slot .noStriker) ((State.leave_decisions ..).trans hnone))
    · have hslotsOf : (s.reach (max due w.time)).slotsWhere (fun e => e.state = .released && e.bar = b) = [e.slot] := by
        exact congrArg (List.map (·.slot)) hpicked
      rw [hexec, State.enterLocked_leaves (s := s.reach _) hbar hall, hslotsOf, State.removeMembers, State.removeMembers,
        State.removeMember_noStriker]
      exact congrArg Host.Outcome.next (State.settle_leave (s := u) hnone)

end Sys2Proof.Machine
end

section
/-! SUPPORT. The converter, and what a rail's sample makes of the rail, its arbiter and the stage (R131 to R138, R159). -/
namespace Sys2Proof.Machine

/-! ## The converter (R131 to R133) -/

theorem Sense.ask_free {n : Sense} (now : Nat) (input : SenseInput) (h : n.conv = none) :
    n.ask now input = n.startConversion now { input := input, came := now } := by
  unfold Sense.ask
  rw [h]

theorem Sense.next_idle {n : Sense} (now : Nat) (h : n.waiting = []) : n.next now = { n with conv := none } := by
  have hfirst : firstWaiting n.waiting = none := by
    rw [h]
    rfl
  unfold Sense.next
  rw [hfirst]

theorem figurePeak_eq (input : Int) (gain : Nat) : figurePeak (pickupFigure input gain) =
    let figure := max (-32768) (min 32767 (input * gain / 8))
    if figure = -32768 then 32767 else figure.natAbs := by
  unfold figurePeak pickupFigure
  generalize input * gain / 8 = x
  dsimp only
  split <;> omega

section
variable {s : State} {r : RailId} {w : When}

theorem State.scanRail_none (h : ∀ q, (s.rail q).fitted = false) : s.scanRail = none := by
  refine List.find?_eq_none.2 fun q _ => ?_
  rw [h q]
  exact Bool.false_ne_true

/-- The scan finds the first fitted rail from the next rail on, cyclically (R133). -/
theorem State.scanRail_some (hfitted : (s.rail r).fitted = true)
    (hfirst : ∀ i : RailId, i < r - s.sense.nextRail → (s.rail (s.sense.nextRail + i)).fitted = false) : s.scanRail = some r := by
  have haround : ∀ a q : RailId, a + (q - a) = q := by decide
  have hr := haround s.sense.nextRail r
  have hfound : (List.finRange 6).find? ((fun q => (s.rail q).fitted) ∘ fun i => s.sense.nextRail + i) =
      some (r - s.sense.nextRail) :=
    find?_finRange_eq_some_iff.2 ⟨(congrArg (fun q => (s.rail q).fitted) hr).trans hfitted, hfirst⟩
  rw [State.scanRail, List.find?_map, hfound, Option.map_some, hr]

theorem exec_scanPacer (hreset : s.power.inReset = false) :
    exec (.scanPacerFiring w) s = .next (s.reach (max s.sense.scanDue w.time)).pacerFires :=
  congrArg Host.Outcome.next (timerEvent_open hreset w _ _)

theorem State.pacerFires_none (h : s.scanRail = none) :
    s.pacerFires = s.modSense (fun n => { n with scanDue := n.scanDue + 250 }) := by
  unfold State.pacerFires
  dsimp only
  rw [show (s.modSense (fun n => { n with scanDue := n.scanDue + 250 })).scanRail = none from h]

theorem State.pacerFires_some (h : s.scanRail = some r) : s.pacerFires =
    s.modSense (fun n => { { n with scanDue := n.scanDue + 250 }.ask s.now (.rail r) with nextRail := r + 1 }) := by
  unfold State.pacerFires
  dsimp only
  rw [show (s.modSense (fun n => { n with scanDue := n.scanDue + 250 })).scanRail = some r from h]
  rfl

variable {c : Conversion} {k : PickupId}

/-- A pickup's conversion delivers its figure (R132, R138). -/
theorem exec_pickupConversion {input : Int} (hreset : s.power.inReset = false) (hconv : s.sense.conv = some c)
    (hinput : c.input = .pickup k) : exec (.pickupConversionComplete w input) s = .next
      ((((s.reach (max c.done w.time)).modSense (Sense.next (max s.now (max c.done w.time)))).deliverPickup k
        (figurePeak (pickupFigure input c.gain))).settle) := by
  have hdue : s.sense.pickupDone = some c.done := by
    unfold Sense.pickupDone
    simp only [hconv, hinput]
  show Host.Outcome.next (timerEvent w s.sense.pickupDone _ s) = _
  rw [hdue, timerEvent_open hreset]
  unfold State.pickupConverted
  simp only [State.reach_sense, hconv, hinput]
  rfl

theorem Sense.windowOn_only {n : Sense} {x : Window} (h : n.windows = [x]) (hk : x.pickup = k) : n.windowOn k = some x := by
  rw [Sense.windowOn, h]
  simp [hk]

/-- A figure reaches the open window of its pickup, before the close time (R138). -/
theorem State.deliverPickup_counts {x : Window} {peak : Nat} (hclosing : s.sense.closing = none)
    (hwindows : s.sense.windows = [x]) (hk : x.pickup = k) (hopen : s.now < x.closeTime) : s.deliverPickup k peak =
      s.modSense (fun n => { n with windows := [x.sample peak] }) := by
  unfold State.deliverPickup
  rw [hclosing]
  dsimp only
  unfold State.deliverOpen
  rw [Sense.windowOn_only hwindows hk]
  dsimp only
  rw [if_neg (Nat.not_le.2 hopen)]
  simp [State.modSense, hwindows, hk]

theorem exec_windowSample {x : Window} (hreset : s.power.inReset = false) (hwindows : s.sense.windows = [x])
    (hk : x.pickup = k) (hdue : x.nextSample < x.closeTime) : exec (.windowSampleDue w k) s = .next
      ((s.reach (max x.nextSample w.time)).modSense (Sense.sampleDue (max s.now (max x.nextSample w.time)) k)) := by
  show Host.Outcome.next (timerEvent w (s.sense.sampleTime k) _ s) = _
  rw [Sense.sampleTime, Sense.windowOn_only hwindows hk]
  dsimp only
  rw [if_pos hdue, timerEvent_open hreset]
  rfl

theorem Sense.sampleDue_free {n : Sense} {x : Window} {now : Nat} (hwindows : n.windows = [x]) (hk : x.pickup = k)
    (hconv : n.conv = none) : n.sampleDue now k = { n with
      windows := [{ x with nextSample := x.nextSample + 250 }]
      conv := some { input := .pickup k, came := now, done := now + 10, gain := (n.pickups.look k).gain } } := by
  have hmoved : n.windows.map (fun (x : Window) => if x.pickup = k then { x with nextSample := x.nextSample + 250 } else x) =
      [{ x with nextSample := x.nextSample + 250 }] := by
    rw [hwindows]
    simp [hk]
  unfold Sense.sampleDue
  rw [hmoved]
  exact Sense.ask_free (n := { n with windows := _ }) now (.pickup k) hconv

theorem State.sampleInStage_other {sample : Nat} (hcharging : s.stage.stage ≠ .charging)
    (hdischarging : s.stage.stage ≠ .discharging) : s.sampleInStage r sample = s := by
  unfold State.sampleInStage
  split
  · rfl
  · split
    · next h => exact absurd h hcharging
    · next h => exact absurd h hdischarging
    · rfl

end

/-- Settles O47: the pacer, a rail's conversion, a window's sample, and a pickup's conversion. -/
theorem conversionsTakeEffect : Obligations.ConversionsTakeEffect := by
  unfold Obligations.ConversionsTakeEffect
  intro w s hreset hdecisions x paced
  refine ⟨fun r hfitted hfirst hfree => ?_, fun hnone => ?_,
    fun c r level hconv hinput hwaiting hcharging hdischarging hlow => ?_,
    fun k window hwindows hk hdue hfree => ?_,
    fun c k window input hconv hinput hwaiting hclosing hwindows hk hopen => ?_⟩
  · rw [exec_scanPacer hreset, State.pacerFires_some (s := s.reach _) (State.scanRail_some hfitted hfirst)]
    have hasked := Sense.ask_free (n := { s.sense with scanDue := s.sense.scanDue + 250 }) paced (.rail r) hfree
    exact congrArg (fun n => Host.Outcome.next { s with now := paced, sense := { n with nextRail := r + 1 } }) hasked
  · rw [exec_scanPacer hreset, State.pacerFires_none (s := s.reach _) (State.scanRail_none hnone)]
    rfl
  · intro after hafter
    have hquiet : (s.railDelivered (max c.done w.time)).railSample r (level.toNat / 10) =
        (s.railDelivered (max c.done w.time)).modRail r (Rail.sampled (level.toNat / 10)) :=
      (State.railSample_quiet (s := s.railDelivered _) (fun h => absurd h hlow)
        (fun h g => hafter.elim (absurd g) (fun g => absurd g h))).trans
        (State.sampleInStage_other (s := (s.railDelivered _).modRail r _) hcharging hdischarging)
    rw [exec_railConversion hreset hconv hinput hwaiting, hquiet]
    exact congrArg Host.Outcome.next (State.settle_of_nil (s := (s.railDelivered _).modRail r _) hdecisions)
  · intro now
    rw [exec_windowSample hreset hwindows hk hdue]
    simp only [State.modSense]
    rw [Sense.sampleDue_free (n := (s.reach _).sense) hwindows hk hfree]
    rfl
  · intro figure size
    let u : State := (s.reach (max c.done w.time)).modSense (Sense.next (max s.now (max c.done w.time)))
    have hsense : u.sense = { s.sense with conv := none } := Sense.next_idle _ hwaiting
    rw [exec_pickupConversion hreset hconv hinput, figurePeak_eq,
      State.deliverPickup_counts (s := u) (x := window) (by rw [hsense]; exact hclosing) (by rw [hsense]; exact hwindows) hk hopen]
    refine congrArg Host.Outcome.next ((State.settle_of_nil (s := u.modSense _) hdecisions).trans ?_)
    show State.modSense _ u = _
    rw [State.modSense, hsense]
    rfl

/-! ## A rail's state after a sample (R135, R136) -/

section
variable {s : State} {r : RailId}

theorem State.modRail_same (f : Rail → Rail) : (s.modRail r f).rail r = f (s.rail r) := Bank.look_put_same ..

/-- A rail that returns from LOW to UP wakes its arbiter (R68, R135). -/
theorem State.railSample_returns {sample : Nat} (hlow : (s.rail r).state = .low)
    (hup : ((s.rail r).sampled sample).state = .up) (hcharging : s.stage.stage ≠ .charging)
    (hdischarging : s.stage.stage ≠ .discharging) : s.railSample r sample = (s.modRail r (Rail.sampled sample)).wake r := by
  unfold State.railSample
  dsimp only
  rw [State.modRail_same, hlow, hup, if_neg (by decide), if_pos (by decide)]
  exact State.sampleInStage_other (s := (s.modRail r _).wake r) hcharging hdischarging

/-- A rail's FAULT in a stage with rails under charge (R136, R159). -/
theorem State.railSample_breaks {sample : Nat} (hbefore : (s.rail r).state = .up ∨ (s.rail r).state = .low)
    (hfault : ((s.rail r).sampled sample).state = .fault)
    (hstage : s.stage.stage = .standby ∨ s.stage.stage = .guarded ∨ s.stage.stage = .playing) :
    s.railSample r sample = (s.modRail r (Rail.sampled sample)).enterFault (.railFault r) := by
  have hnotLow : ¬ ((decide ((s.rail r).state = .low) && decide (RailState.fault = .up)) = true) := by simp
  have hwasWell : (decide ((s.rail r).state ≠ .fault) && decide (RailState.fault = .fault)) = true := by
    obtain h | h := hbefore <;> rw [h] <;> rfl
  have hdone : State.sampleInStage r sample ((s.modRail r (Rail.sampled sample)).enterFault (.railFault r)) =
      (s.modRail r (Rail.sampled sample)).enterFault (.railFault r) :=
    State.sampleInStage_other nofun nofun
  unfold State.railSample
  dsimp only
  rw [State.modRail_same, hfault, if_neg hnotLow, if_pos hwasWell]
  obtain h | h | h := hstage
  · rw [show (s.modRail r (Rail.sampled sample)).stage.stage = .standby from h]
    exact hdone
  · rw [show (s.modRail r (Rail.sampled sample)).stage.stage = .guarded from h]
    exact hdone
  · rw [show (s.modRail r (Rail.sampled sample)).stage.stage = .playing from h]
    exact hdone

end

/-- A sample changes a rail's last sample, its state and its low-run count alone. -/
theorem Rail.sampled_frame (r : Rail) (sample : Nat) : r.sampled sample = { r with
    lastSample := some sample, state := (r.sampled sample).state, lowRun := (r.sampled sample).lowRun } := by
  unfold Rail.sampled
  dsimp only
  generalize (if 2 * sample < r.nominal then r.lowRun + 1 else 0) = run
  split
  · by_cases hrun : 3 ≤ run
    · simp only [if_pos hrun]
    · simp only [if_neg hrun]
  · rfl

/-- The table of R135 and R136. -/
theorem railSampled_table (r : Rail) (sample : Nat) :
    let floor := r.nominal * r.floor / 100
    let run := if 2 * sample < r.nominal then r.lowRun + 1 else 0
    let after : RailState → Nat → Rail := fun st n => { r with lastSample := some sample, state := st, lowRun := n }
    (r.state = .off ∨ r.state = .charging ∨ r.state = .fault → r.sampled sample = after r.state 0) ∧
    (r.state = .up ∨ r.state = .low → run = 3 → r.sampled sample = after .fault 0) ∧
    (r.state = .up → run < 3 → sample < floor → r.sampled sample = after .low run) ∧
    (r.state = .up → run < 3 → floor ≤ sample → r.sampled sample = after .up run) ∧
    (r.state = .low → run < 3 → sample < floor + 5 → r.sampled sample = after .low run) ∧
    (r.state = .low → run < 3 → floor + 5 ≤ sample → r.sampled sample = after .up run) := by
  intro floor run after
  have hstep : r.state = .up ∨ r.state = .low → r.sampled sample = if 3 ≤ run then after .fault 0 else
      after (if r.state = .up then (if sample < floor then .low else .up)
        else if floor + 5 ≤ sample then .up else .low) run := by
    intro h
    unfold Rail.sampled
    exact if_pos (by simpa using h)
  have hlow : r.state = .low → ¬ r.state = .up := fun h g => by cases h.symm.trans g
  refine ⟨fun h => ?_, fun h hthree => ?_, fun h hless hbelow => ?_, fun h hless habove => ?_, fun h hless hbelow => ?_,
    fun h hless habove => ?_⟩
  · obtain h | h | h := h <;> simp [Rail.sampled, h, after]
  · rw [hstep h, if_pos (Nat.le_of_eq hthree.symm)]
  · rw [hstep (.inl h), if_neg (Nat.not_le.2 hless), if_pos h, if_pos hbelow]
  · rw [hstep (.inl h), if_neg (Nat.not_le.2 hless), if_pos h, if_neg (Nat.not_lt.2 habove)]
  · rw [hstep (.inr h), if_neg (Nat.not_le.2 hless), if_neg (hlow h), if_neg (Nat.not_le.2 hbelow)]
  · rw [hstep (.inr h), if_neg (Nat.not_le.2 hless), if_neg (hlow h), if_pos habove]

/-- Settles O49: the table of a rail's sample, the return to UP with its grant, and the FAULT of a rail. -/
theorem railSamplesDecideTheState : Obligations.RailSamplesDecideTheState := by
  unfold Obligations.RailSamplesDecideTheState
  refine ⟨fun r sample _ => railSampled_table r sample, fun w s c r level hreset hdecisions hconv hinput hwaiting => ?_⟩
  intro now after sampled
  have hexec := exec_railConversion (w := w) (level := level) hreset hconv hinput hwaiting
  have hnone : sampled.decisions = [] := hdecisions
  refine ⟨fun hcharging hdischarging hlow => ⟨fun hstays => ?_, fun hup hempty => ?_, ?_⟩, fun hbefore hfault hstage => ?_⟩
  · have hquiet : (s.railDelivered (max c.done w.time)).railSample r (level.toNat / 10) = sampled := by
      refine (State.railSample_quiet (s := s.railDelivered _) (fun _ h => ?_) fun _ h => ?_).trans
        (State.sampleInStage_other (s := (s.railDelivered _).modRail r _) hcharging hdischarging)
      · cases hstays.symm.trans h
      · cases hstays.symm.trans h
    rw [hexec, hquiet, State.settle_of_nil hnone]
  · have hwoken : (s.railDelivered (max c.done w.time)).railSample r (level.toNat / 10) = sampled.wake r :=
      State.railSample_returns (s := s.railDelivered _) hlow hup hcharging hdischarging
    rw [hexec, hwoken, State.settle_unopposed hnone hempty]
  · intro e n target deadline hup hplaying hslots hspaced hroom hone htarget hreached hdeadline hdue hfirst hsecond hidle hcool
    have hwoken : (s.railDelivered (max c.done w.time)).railSample r (level.toNat / 10) = sampled.wake r :=
      State.railSample_returns (s := s.railDelivered _) hlow hup hcharging hdischarging
    have hrail : sampled.rail r = after := Bank.look_put_same ..
    have hkept := Rail.sampled_frame (s.rail r) (level.toNat / 10)
    have hfree : (sampled.rail r).free = true := by
      rw [hrail, Rail.free_iff]
      dsimp only [after]
      rw [hkept]
      exact ⟨hspaced, hroom, hup⟩
    have hmember : e ∈ s.members r := by rw [hone]; exact List.mem_singleton.2 rfl
    have hown : railOf n = r := by
      have h := (Bar.rail_of_first hfirst).symm.trans (State.members_rail hmember)
      exact Option.some.inj h
    have hbar : (sampled.bar e.bar).strikers = [n] := Bar.strikers_alone hfirst hsecond
    have hgrant : sampled.arbitrate r = (sampled.grant e n).wake r :=
      State.arbitrate_only hplaying hfree hone (Entry.eligible_iff.2 ⟨⟨target, htarget, hreached⟩, deadline, hdeadline, hdue⟩)
        (State.readyStrikers_alone hbar hidle hcool)
    have hagain : (sampled.grant e n).arbitrate r = sampled.grant e n := State.arbitrate_empty (by
      rw [State.grant_members, show sampled.members r = [e] from hone]
      simp)
    have hfired : (sampled.grant e n).rail r = after.fire now := by
      have h := State.grant_rail (s := sampled) (e := e) (n := n)
      rwa [hown, hrail] at h
    have hstriker : (sampled.grant e n).striker n = (s.striker n).fire now (sampled.shaped e n).pulse e.slot := by
      rw [State.grant_state, State.firedStrikers_alone hbar]
      exact Bank.look_put_same ..
    refine ⟨sampled.grant e n, ?_, ?_, ?_, ?_, ?_, ?_, ?_⟩
    · rw [hexec, hwoken, State.settle_granted hnone hgrant hagain]
    · rw [hfired]
      exact hup
    · rw [hfired]
      exact congrArg (fun q => q.recent ++ [now]) hkept
    · rw [hstriker]
      rfl
    · rw [hstriker]
      rfl
    · rw [hstriker]
      rfl
    · rw [State.grant_state]
      show (s.entries.map _).map _ = _
      rw [List.map_map]
      refine List.map_congr_left fun d _ => ?_
      by_cases hd : d.slot = e.slot
      · simp only [Function.comp_apply, if_pos hd]
        rfl
      · simp only [Function.comp_apply, if_neg hd]
  · have hbroken : (s.railDelivered (max c.done w.time)).railSample r (level.toNat / 10) = sampled.enterFault (.railFault r) :=
      State.railSample_breaks (s := s.railDelivered _) hbefore hfault (hstage.imp_right .inl)
    have houtside : sampled.stage.stage ≠ .playing := by
      show s.stage.stage ≠ .playing
      obtain h | h := hstage <;> rw [h] <;> nofun
    rw [hexec, hbroken, State.enterFault_outside houtside]
    exact congrArg Host.Outcome.next (State.settle_of_nil hdecisions)

end Sys2Proof.Machine
end

section
/-! SUPPORT. Listen windows: their opening at a drive end, their verdicts and their close (R137, R139, R140, R60). -/
namespace Sys2Proof.Machine

section
variable {s : State} {n : StrikerId} {k : SlotId} {e : Entry}

/-! ## Verdicts (R60) -/

/-- A striker found silent once more. -/
def Striker.silenced (k : Striker) : Striker := { k with silentCount := min 255 (k.silentCount + 1) }

/-- The striker's silent count has reached its lock threshold. -/
def Striker.locks (k : Striker) : Prop := k.lockThreshold ≠ 0 ∧ k.lockThreshold ≤ min 255 (k.silentCount + 1)

theorem State.verdict_sounded : s.verdict n false = s.modStriker n (fun k => { k with silentCount := 0 }) := rfl

/-- What a lock does to a striker, by its state (R60). -/
def State.lockOrPend (n : StrikerId) (s : State) : State :=
  match (s.striker n).state with
  | .idle => s.enterLocked n
  | .locked => s
  | _ => s.modStriker n (fun k => { k with lockPending := true })

theorem State.verdict_silent : s.verdict n true =
    if decide ((s.striker n).lockThreshold ≠ 0) && decide ((s.striker n).lockThreshold ≤ min 255 ((s.striker n).silentCount + 1))
    then (s.modStriker n Striker.silenced).lockOrPend n else s.modStriker n Striker.silenced := by
  have hlook : (s.modStriker n Striker.silenced).striker n = (s.striker n).silenced := Bank.look_put_same ..
  have hlocks : (s.verdict n true) = if decide (((s.modStriker n Striker.silenced).striker n).lockThreshold ≠ 0) && decide
      (((s.modStriker n Striker.silenced).striker n).lockThreshold ≤
        ((s.modStriker n Striker.silenced).striker n).silentCount)
      then (s.modStriker n Striker.silenced).lockOrPend n else s.modStriker n Striker.silenced := rfl
  rw [hlocks, hlook]
  rfl

theorem Striker.locks_iff (k : Striker) : (decide (k.lockThreshold ≠ 0) && decide (k.lockThreshold ≤ min 255 (k.silentCount + 1))) =
    true ↔ k.locks := by
  rw [Bool.and_eq_true, decide_eq_true_eq, decide_eq_true_eq]
  exact Iff.rfl

theorem State.silenced_state : ((s.modStriker n Striker.silenced).striker n).state = (s.striker n).state :=
  (congrArg Striker.state (Bank.look_put_same ..)).trans rfl

theorem State.verdict_counts (h : ¬ (s.striker n).locks ∨ (s.striker n).state = .locked) :
    s.verdict n true = s.modStriker n Striker.silenced := by
  have hlocked : (s.striker n).state = .locked → (s.modStriker n Striker.silenced).lockOrPend n =
      s.modStriker n Striker.silenced := fun h => by
    unfold State.lockOrPend
    rw [State.silenced_state, h]
  rw [State.verdict_silent]
  obtain h | h := h
  · exact if_neg (mt (Striker.locks_iff _).1 h)
  · rw [hlocked h]
    exact ite_self _

theorem State.verdict_pends (hlocks : (s.striker n).locks)
    (h : (s.striker n).state = .drive ∨ (s.striker n).state = .hold ∨ (s.striker n).state = .recover) :
    s.verdict n true = s.modStriker n (fun k => { k.silenced with lockPending := true }) := by
  have htwice : (s.modStriker n Striker.silenced).modStriker n (fun k => { k with lockPending := true }) =
      s.modStriker n (fun k => { k.silenced with lockPending := true }) := by simp [State.modStriker, State.striker]
  have hpends : (s.modStriker n Striker.silenced).lockOrPend n =
      (s.modStriker n Striker.silenced).modStriker n (fun k => { k with lockPending := true }) := by
    unfold State.lockOrPend
    rw [State.silenced_state]
    obtain h | h | h := h <;> rw [h]
  rw [State.verdict_silent, if_pos ((Striker.locks_iff _).2 hlocks), hpends, htwice]

theorem State.verdict_locks (hlocks : (s.striker n).locks) (hidle : (s.striker n).state = .idle)
    (hnone : ∀ e ∈ s.entries, e.state ≠ .released) : s.verdict n true = { s with
      strikers := s.strikers.put n (s.striker n).silenced.locked
      ports := s.ports.mapWith (fun _ (q : Port) => { q with pendingNotices := q.pendingNotices ||| 8#8 }) } := by
  have hlook : (s.modStriker n Striker.silenced).striker n = (s.striker n).silenced := Bank.look_put_same ..
  have henters : (s.modStriker n Striker.silenced).lockOrPend n = (s.modStriker n Striker.silenced).enterLocked n := by
    unfold State.lockOrPend
    rw [State.silenced_state, hidle]
  rw [State.verdict_silent, if_pos ((Striker.locks_iff _).2 hlocks), henters,
    State.enterLocked_unreleased (s := s.modStriker n _) hnone, State.lockStriker_eq, hlook]
  simp only [State.modStriker, Bank.put_put]

/-! ## The close (R139, R40, R41) -/

theorem State.windowClosed_eq {f : Entry → Entry} (he : s.entryAt k = some e) (hf : ∀ d, (f d).slot = d.slot)
    (hcut : (f e).wasCut = e.wasCut) : s.windowClosed n k f =
      if e.wasCut then (s.modEntry k f).leave k .wasCut
      else if (s.striker n).playing = some k then s.modEntry k f
      else (s.modEntry k f).leave k .played := by
  unfold State.windowClosed
  dsimp only
  rw [State.entryAt_modEntry (fun d hd => (hf d).trans hd) he]
  dsimp only
  rw [hcut]
  rfl

/-- What a verdict finds, on the entry. -/
def Entry.found (peak : Nat) (silent : Bool) (d : Entry) : Entry :=
  { d with peak := some peak, flags := { d.flags with silent := silent } }

/-- An entry that no window heard. -/
def Entry.unheard (d : Entry) : Entry := { d with flags := { d.flags with noListen := true } }

theorem State.judge_unheard {x : Window} (he : s.entryAt x.slot = some e) (hpeak : x.peak = none) :
    s.judge x = s.windowClosed x.striker x.slot Entry.unheard := by
  unfold State.judge
  rw [he]
  dsimp only
  rw [hpeak]
  rfl

theorem State.judge_sounded {x : Window} {peak : Nat} (he : s.entryAt x.slot = some e) (hpeak : x.peak = some peak)
    (habove : (s.bar e.bar).threshold ≤ peak) :
    s.judge x = (s.verdict x.striker false).windowClosed x.striker x.slot (Entry.found peak false) := by
  unfold State.judge
  rw [he]
  dsimp only
  rw [hpeak]
  dsimp only
  rw [decide_eq_false (Nat.not_lt.2 habove)]
  rfl

theorem State.judge_silent {x : Window} {peak : Nat} (he : s.entryAt x.slot = some e) (hpeak : x.peak = some peak)
    (hbelow : peak < (s.bar e.bar).threshold) :
    s.judge x = (s.verdict x.striker true).windowClosed x.striker x.slot (Entry.found peak true) := by
  unfold State.judge
  rw [he]
  dsimp only
  rw [hpeak]
  dsimp only
  rw [decide_eq_true hbelow]
  rfl

theorem State.windowFor_iff : s.windowFor k = true ↔
    (∃ x ∈ s.sense.windows, x.slot = k) ∨ ∃ x, s.sense.closing = some x ∧ x.slot = k := by
  unfold State.windowFor
  cases s.sense.closing <;> simp

/-! ## Close times and samples that close a window -/

theorem exec_windowClose {w : When} {x : Window} (hreset : s.power.inReset = false) (hwindows : s.sense.windows = [x])
    (hconv : s.sense.conv = none) (hwaiting : s.sense.waiting = []) : exec (.windowClose w x.pickup) s = .next
      (State.judge x { s.reach (max x.closeTime w.time) with sense := { s.sense with windows := [] } }).settle := by
  have hon : s.sense.windowOn x.pickup = some x := Sense.windowOn_only hwindows rfl
  have hdue : s.sense.closeDue x.pickup = some x.closeTime := by
    have hquiet : s.sense.sampleOutstanding x.pickup = false := by
      simp [Sense.sampleOutstanding, Sense.converting, hconv, hwaiting]
    rw [Sense.closeDue, hon]
    dsimp only
    rw [hquiet, if_neg Bool.false_ne_true]
  have hclosed : s.sense.removeWindow x.pickup = { s.sense with windows := [] } := by
    simp [Sense.removeWindow, hwindows]
  show Host.Outcome.next (timerEvent w (s.sense.closeDue x.pickup) _ s) = _
  rw [hdue, timerEvent_open hreset]
  show Host.Outcome.next (match s.sense.windowOn x.pickup with | some y => _ | none => _) = _
  rw [hon]
  show Host.Outcome.next (State.judge x { s.reach _ with sense := s.sense.removeWindow x.pickup }).settle = _
  rw [hclosed]

/-- A window closed early is judged when its conversion completes (R140, R131). -/
theorem exec_lastSample {w : When} {c : Conversion} {x : Waiting} {old : Window} {input : Int} (hreset : s.power.inReset = false)
    (hclosing : s.sense.closing = some old) (hconv : s.sense.conv = some c) (hinput : c.input = .pickup old.pickup)
    (hwaiting : s.sense.waiting = [x]) (hx : x.input = .pickup old.pickup) :
    exec (.pickupConversionComplete w input) s = .next
      (State.judge (old.sample (figurePeak (pickupFigure input c.gain))) { s.reach (max c.done w.time) with sense := { s.sense with
        conv := some {
          input := x.input, came := x.came, done := max s.now (max c.done w.time) + 10
          gain := (s.sense.pickups.look old.pickup).gain }
        waiting := []
        closing := none } }).settle := by
  have hnext : s.sense.next (max s.now (max c.done w.time)) = { s.sense with
      conv := some {
        input := x.input, came := x.came, done := max s.now (max c.done w.time) + 10
        gain := (s.sense.pickups.look old.pickup).gain }
      waiting := [] } := by
    have hfirst : firstWaiting s.sense.waiting = some x := by
      rw [hwaiting]
      rfl
    unfold Sense.next
    rw [hfirst, hwaiting]
    simp [Sense.startConversion, hx]
  rw [exec_pickupConversion hreset hconv hinput]
  refine congrArg (fun t => Host.Outcome.next (State.settle t)) ?_
  unfold State.deliverPickup
  show (match (s.sense.next (max s.now (max c.done w.time))).closing with | some w => _ | none => _) = _
  rw [hnext]
  show (match s.sense.closing with | some w => _ | none => _) = _
  rw [hclosing]
  dsimp only
  rw [if_pos rfl]
  refine congrArg (fun m => State.judge _ { s.reach (max c.done w.time) with sense := m }) ?_
  show { (s.sense.next _) with closing := none } = _
  rw [hnext]

end

/-- Settles O48: the last sample of a window closed early, and a window's close by its peak and the striker's lock. -/
theorem windowsAreJudgedAtTheirClose : Obligations.WindowsAreJudgedAtTheirClose := by
  unfold Obligations.WindowsAreJudgedAtTheirClose
  refine ⟨fun w s old e c x input hreset hdecisions hclosing hconv hinput hwaiting hx he hcut hfree => ?_,
    fun w s window e hreset hdecisions hwindows hconv hwaiting he hslots hfiring => ?_⟩
  · intro now figure size peak k judged
    let u : State := { s.reach (max c.done w.time) with sense := { s.sense with
      conv := some { input := x.input, came := x.came, done := now + 10, gain := (s.sense.pickups.look old.pickup).gain }
      waiting := []
      closing := none } }
    have hexec : exec (.pickupConversionComplete w input) s = .next (u.judge (old.sample size)).settle := by
      rw [exec_lastSample hreset hclosing hconv hinput hwaiting hx, figurePeak_eq]
    have hclose : ∀ (f : Entry → Entry) (t : State) (y : Striker), (∀ d, (f d).slot = d.slot) → (f e).wasCut = e.wasCut →
        y.playing = k.playing → t = { u with strikers := s.strikers.put old.striker y } →
        (t.windowClosed old.striker old.slot f).settle = (t.modEntry old.slot f).leave old.slot .played := by
      intro f t y hslot hwas hplaying ht
      have het : t.entryAt old.slot = some e := by
        rw [ht]
        exact he
      have hidle : ¬ ((t.striker old.striker).playing = some old.slot) := by
        rw [ht]
        have hlook : ({ u with strikers := s.strikers.put old.striker y } : State).striker old.striker = y :=
          Bank.look_put_same ..
        rw [hlook, hplaying]
        exact hfree
      have hnone : t.decisions = [] := by
        rw [ht]
        exact hdecisions
      rw [State.windowClosed_eq het hslot hwas, hcut, if_neg Bool.false_ne_true, if_neg hidle,
        State.settle_leave (s := t.modEntry old.slot f) hnone]
    refine ⟨fun habove => ?_, fun hbelow hnever => ?_⟩
    · show exec _ _ = _
      rw [hexec, State.judge_sounded (s := u) (x := old.sample size) he rfl habove]
      exact (congrArg Host.Outcome.next (hclose (Entry.found peak false) (u.verdict old.striker false)
        { k with silentCount := 0 } (fun _ => rfl) rfl rfl rfl)).trans rfl
    · show exec _ _ = _
      rw [hexec, State.judge_silent (s := u) (x := old.sample size) he rfl hbelow]
      refine (congrArg Host.Outcome.next (hclose (Entry.found peak true) (u.verdict old.striker true)
        k.silenced (fun _ => rfl) rfl rfl ?_)).trans ?_
      · exact State.verdict_counts (s := u) (.inl fun h => h.1 hnever)
      · rw [State.verdict_counts (s := u) (.inl fun h => h.1 hnever)]
        rfl
  · intro n k count u closed found
    let v : State := { s.reach (max window.closeTime w.time) with sense := { s.sense with windows := [] } }
    have hexec : exec (.windowClose w window.pickup) s = .next (v.judge window).settle :=
      exec_windowClose hreset hwindows hconv hwaiting
    have hclose : ∀ (f : Entry → Entry) (t : State) (y : Striker) (ports : Bank Port 4), (∀ d, (f d).slot = d.slot) →
        (f e).wasCut = e.wasCut → y.playing = k.playing → v.judge window = t.windowClosed n window.slot f →
        t = { v with strikers := s.strikers.put n y, ports := ports } → closed (u f y ports) := by
      intro f t y ports hslot hwas hplaying hjudged ht
      have het : t.entryAt window.slot = some e := by
        rw [ht]
        exact he
      have hmod : t.modEntry window.slot f = u f y ports := by
        rw [ht]
        rfl
      have hstriker : (t.striker n).playing = k.playing := by
        rw [ht]
        have hlook : ({ v with strikers := s.strikers.put n y, ports := ports } : State).striker n = y := Bank.look_put_same ..
        rw [hlook, hplaying]
      have hnone : (u f y ports).decisions = [] := hdecisions
      show exec _ _ = _
      rw [hexec, hjudged, State.windowClosed_eq het hslot hwas, hstriker, hmod]
      split
      · rw [State.settle_leave hnone]
      · split
        · rw [State.settle_of_nil hnone]
        · rw [State.settle_leave hnone]
    refine ⟨fun hpeak => ?_, fun peak hpeak habove => ?_, fun peak hpeak hbelow => ?_⟩
    · refine hclose Entry.unheard v k s.ports (fun _ => rfl) rfl rfl (State.judge_unheard (s := v) he hpeak) ?_
      show v = { v with strikers := s.strikers.put n (s.strikers.look n), ports := s.ports }
      rw [Bank.put_look]
      rfl
    · exact hclose (Entry.found peak false) (v.verdict n false) { k with silentCount := 0 } s.ports (fun _ => rfl) rfl rfl
        (State.judge_sounded (s := v) he hpeak habove) rfl
    · intro silent locks
      have hjudged := State.judge_silent (s := v) he hpeak hbelow
      refine ⟨fun hquiet => ?_, fun hlocks hbusy => ?_, fun hlocks hidle hnone => ?_⟩
      · exact hclose (Entry.found peak true) (v.verdict n true) k.silenced s.ports (fun _ => rfl) rfl rfl hjudged
          (State.verdict_counts (s := v) hquiet)
      · exact hclose (Entry.found peak true) (v.verdict n true) { k.silenced with lockPending := true } s.ports (fun _ => rfl)
          rfl rfl hjudged (State.verdict_pends (s := v) hlocks hbusy)
      · exact hclose (Entry.found peak true) (v.verdict n true) k.silenced.locked _ (fun _ => rfl)
          rfl rfl hjudged (State.verdict_locks (s := v) hlocks hidle hnone)

end Sys2Proof.Machine
end

section
/-! SUPPORT. Drive ends (R56, R40, R43, R137, R140): the stroke's striker, its listen window and its entry. -/
namespace Sys2Proof.Machine

section
variable {s t : State} {n : StrikerId} {k : SlotId} {e : Entry} {fired : Nat} {q : PickupId} {old : Window} {opened : Bool}

/-! ## Windows that open -/

theorem Entry.heard_true : Entry.heard true = fun d => { d with listened := true } := by
  funext d
  simp [Entry.heard]

theorem Entry.heard_false : Entry.heard false = Entry.unheard := by
  funext d
  simp [Entry.heard, Entry.unheard]

/-- The listen window that opens for a stroke (R137, R138). -/
def State.newWindow (n : StrikerId) (k : SlotId) (fired : Nat) (q : PickupId) (s : State) : Window where
  pickup := q
  slot := k
  striker := n
  closeTime := fired + (s.sense.pickups.look q).length
  nextSample := s.now + 250
  samples := 0
  peak := none

theorem State.openWindow_none (he : s.entryAt k = some e) (hnone : (s.bar e.bar).pickup = none) :
    s.openWindow n k fired = (s, false) := by
  unfold State.openWindow
  rw [he, Option.bind_some, hnone]

theorem State.openWindow_full (he : s.entryAt k = some e) (hq : (s.bar e.bar).pickup = some q)
    (hfresh : s.sense.windowOn q = none) (hfull : 8 ≤ s.sense.windows.length) : s.openWindow n k fired = (s, false) := by
  unfold State.openWindow
  rw [he, Option.bind_some, hq]
  dsimp only
  rw [hfresh]
  exact if_pos hfull

theorem State.openWindow_opens (he : s.entryAt k = some e) (hq : (s.bar e.bar).pickup = some q)
    (hfresh : s.sense.windowOn q = none) (hroom : s.sense.windows.length < 8) : s.openWindow n k fired =
      ({ s with sense :=
        { s.sense with windows := s.sense.windows ++ [s.newWindow n k fired q] }.ask s.now (.pickup q) }, true) := by
  unfold State.openWindow
  rw [he, Option.bind_some, hq]
  dsimp only
  rw [hfresh]
  exact if_neg (Nat.not_le.2 hroom)

theorem State.openWindow_again (he : s.entryAt k = some e) (hq : (s.bar e.bar).pickup = some q)
    (hopen : s.sense.windowOn q = some old) (hclosed : s.closeEarly old = t) (hroom : t.sense.windows.length < 8) :
    s.openWindow n k fired = ({ t with sense :=
      { t.sense with windows := t.sense.windows ++ [t.newWindow n k fired q] }.ask t.now (.pickup q) }, true) := by
  unfold State.openWindow
  rw [he, Option.bind_some, hq]
  dsimp only
  rw [hopen]
  subst hclosed
  exact if_neg (Nat.not_le.2 hroom)

theorem Sense.windowOn_none {m : Sense} (h : ∀ x ∈ m.windows, x.pickup ≠ q) : m.windowOn q = none :=
  List.find?_eq_none.2 fun x hx => by simpa using h x hx

/-! ## Windows that close early (R140) -/

/-- The sense unit where a stroke has closed the one open window, on the stroke's pickup. -/
def Sense.closedEarly (q : PickupId) (m : Sense) : Sense :=
  { m with windows := [], waiting := m.waiting.filter (fun x => x.input ≠ .pickup q) }

theorem State.closeEarly_waits (hwindows : s.sense.windows = [old]) (hrunning : s.sense.converting old.pickup = true) :
    s.closeEarly old = { s with sense := { s.sense.closedEarly old.pickup with closing := some old } } := by
  have hempty : s.sense.removeWindow old.pickup = { s.sense with windows := [] } := by
    simp [Sense.removeWindow, hwindows]
  unfold State.closeEarly
  dsimp only
  rw [if_pos hrunning]
  show { s with sense := { { s.sense.removeWindow old.pickup with waiting := _ } with closing := some old } } = _
  rw [hempty]
  rfl

theorem State.closeEarly_judges (hwindows : s.sense.windows = [old]) (hquiet : s.sense.converting old.pickup = false) :
    s.closeEarly old = State.judge old { s with sense := s.sense.closedEarly old.pickup } := by
  have hempty : s.sense.removeWindow old.pickup = { s.sense with windows := [] } := by
    simp [Sense.removeWindow, hwindows]
  have hidle : ¬ s.sense.converting old.pickup = true := by rw [hquiet]; exact Bool.false_ne_true
  unfold State.closeEarly
  dsimp only
  rw [if_neg hidle]
  show State.judge old { s with sense := { s.sense.removeWindow old.pickup with waiting := _ } } = _
  rw [hempty]
  rfl

/-- A conversion on which a window closed early counts is not interrupted (R131, R140). -/
theorem Sense.ask_committed {m : Sense} {c : Conversion} {now : Nat} {input : SenseInput} (hconv : m.conv = some c)
    (hkept : m.committed c.input = true) :
    m.ask now input = { m with waiting := m.waiting ++ [{ input := input, came := now }] } := by
  unfold Sense.ask
  rw [hconv]
  dsimp only
  rw [hkept]
  simp

/-- The sense unit has no part in an entry's leaving. -/
theorem State.leave_sense (m : Sense) (o : EntryOutcome) :
    ({ s with sense := m } : State).leave k o = { s.leave k o with sense := m } := by
  cases he : s.entryAt k with
  | none => rw [State.leave_none he, State.leave_none (s := { s with sense := m }) he]
  | some e =>
    rw [State.leave_some he, State.leave_some (s := { s with sense := m }) he]
    rfl

/-! ## The drive end by the kind of the stroke (R56) -/

/-- A striker in HOLD until a time (R56). -/
def Striker.holding (till : Nat) (k : Striker) : Striker := { k with state := .hold, driveEnd := none, holdEnd := some till }

theorem State.driveEnded_single (hplaying : (s.striker n).playing = some k) (he : s.entryAt k = some e)
    (hfired : (s.striker n).lastFire = some fired) (hpart : e.part = .single) :
    s.driveEnded n = s.singleDriven n k fired := by
  unfold State.driveEnded
  rw [hplaying, hfired]
  dsimp only
  rw [he]
  dsimp only
  rw [hpart]
  rfl

theorem State.driveEnded_press {x : PressPart} (hplaying : (s.striker n).playing = some k) (he : s.entryAt k = some e)
    (hfired : (s.striker n).lastFire = some fired) (hpart : e.part = .press x) :
    s.driveEnded n = s.pressDriven n k x fired := by
  unfold State.driveEnded
  rw [hplaying, hfired]
  dsimp only
  rw [he]
  dsimp only
  rw [hpart]
  rfl

theorem State.driveEnded_roll {r : RollPart} (hplaying : (s.striker n).playing = some k) (he : s.entryAt k = some e)
    (hpart : e.part = .roll r) : s.driveEnded n = (s.startRecover n).playStroke k := by
  unfold State.driveEnded
  rw [hplaying]
  dsimp only
  rw [he]
  dsimp only
  rw [hpart]

theorem State.singleDriven_eq (hopen : (s.startRecover n).openWindow n k fired = (t, opened)) : s.singleDriven n k fired =
    if opened then t.modEntry k (Entry.heard opened) else (t.modEntry k (Entry.heard opened)).leave k .played := by
  unfold State.singleDriven
  rw [hopen]

theorem State.pressDriven_cool {x : PressPart} (hcool : ¬ (s.striker n).hard ≤ (s.striker n).heat)
    (hopen : (s.modStriker n (Striker.holding (s.now + x.holdMs * 1000))).openWindow n k fired = (t, opened)) :
    s.pressDriven n k x fired = t.modEntry k (Entry.heard opened) := by
  have hnot : (s.striker n).hot = false := decide_eq_false hcool
  unfold State.pressDriven
  dsimp only
  rw [hnot, if_neg Bool.false_ne_true]
  change (s.modStriker n fun k => { k with
    state := .hold, driveEnd := none, holdEnd := some (s.now + if false = true then 0 else x.holdMs * 1000) }).openWindow n k fired = (t, opened) at hopen
  rw [hopen]

theorem State.pressDriven_hot {x : PressPart} (hhot : (s.striker n).hard ≤ (s.striker n).heat)
    (hopen : (s.modStriker n (Striker.holding s.now)).openWindow n k fired = (t, opened)) :
    s.pressDriven n k x fired = (t.modEntry k (Entry.heard opened)).holdEnded n true := by
  have his : (s.striker n).hot = true := decide_eq_true hhot
  unfold State.pressDriven
  dsimp only
  rw [his, if_pos rfl]
  change (s.modStriker n fun k => { k with
    state := .hold, driveEnd := none, holdEnd := some (s.now + if true = true then 0 else x.holdMs * 1000) }).openWindow n k fired = (t, opened) at hopen
  rw [hopen]

/-- A hold that ends where it begins leaves the striker recovering, and its entry changed twice. -/
theorem State.holdCut_eq (m : Sense) (till : Nat) {g : Entry → Entry} (hg : ∀ d, (g d).slot = d.slot)
    (f : EchoFlags → EchoFlags) :
    ((({ s.modStriker n (Striker.holding till) with sense := m } : State).modEntry k g).flag k f).modStriker n
        Striker.recovering =
      ({ s.modStriker n Striker.recovering with sense := m } : State).modEntry k
        (fun d => { g d with flags := f (g d).flags }) := by
  have hentries := State.modEntry_modEntry (s := s) (k := k) (g := fun d => { d with flags := f d.flags })
    fun d hd => (hg d).trans hd
  have hstriker : (s.strikers.put n ((s.striker n).holding till)).put n
      ((s.strikers.put n ((s.striker n).holding till)).look n).recovering = s.strikers.put n (s.striker n).recovering := by
    rw [Bank.put_put, Bank.look_put_same]
    rfl
  have hmapped : (s.entries.map fun (d : Entry) => if d.slot = k then g d else d).map (fun (d : Entry) => if d.slot = k then
      { d with flags := f d.flags } else d) = s.entries.map fun (d : Entry) => if d.slot = k then
        { g d with flags := f (g d).flags } else d := congrArg State.entries hentries
  show { s with
    strikers := (s.strikers.put n ((s.striker n).holding till)).put n
      ((s.strikers.put n ((s.striker n).holding till)).look n).recovering
    sense := m
    entries := (s.entries.map fun (d : Entry) => if d.slot = k then g d else d).map (fun (d : Entry) => if d.slot = k then
      { d with flags := f d.flags } else d) } = _
  rw [hstriker, hmapped]
  rfl

theorem exec_driveEnd {w : When} {due : Nat} (hreset : s.power.inReset = false) (hdrive : (s.striker n).state = .drive)
    (hend : (s.striker n).driveEnd = some due) :
    exec (.driveEnd w n) s = .next ((s.reach (max due w.time)).driveEnded n).settle := by
  show Host.Outcome.next (timerEvent w (s.striker n).driveDue _ s) = _
  rw [Striker.driveDue, if_pos hdrive, hend, timerEvent_open hreset]

end

/-- Settles O44: the drive end by the kind of the stroke, the bar's pickup and the windows open. -/
theorem driveEndsTakeEffect : Obligations.DriveEndsTakeEffect := by
  unfold Obligations.DriveEndsTakeEffect
  refine ⟨fun s k => State.windowFor_iff, ?_⟩
  intro w s n k e due recovered fired hreset hdecisions hdrive hend hplaying hrecovery hfired he hslots
    now hot recovering holding flagged unheard heard derated window opened gives hlater
  let u : State := s.reach (max due w.time)
  have hgives : ∀ t : State, u.driveEnded n = t → t.decisions = [] → gives t := by
    intro t ht hnone
    show exec (.driveEnd w n) s = .next t
    rw [exec_driveEnd hreset hdrive hend, ht, State.settle_of_nil hnone]
  have hrecovering : u.startRecover n = recovering := State.startRecover_waits (s := u) hrecovery hlater
  have hsingle : ∀ {t : State} {o : Bool}, e.part = .single → recovering.openWindow n k fired = (t, o) → u.driveEnded n =
      if o then t.modEntry k (Entry.heard o) else (t.modEntry k (Entry.heard o)).leave k .played := by
    intro t o hpart hopen
    rw [State.driveEnded_single (s := u) hplaying he hfired hpart]
    exact State.singleDriven_eq (by rwa [hrecovering])
  have hcool : ∀ {t : State} {o : Bool} (x : PressPart), e.part = .press x → ¬ hot →
      (holding x).openWindow n k fired = (t, o) → u.driveEnded n = t.modEntry k (Entry.heard o) := by
    intro t o x hpart hcold hopen
    rw [State.driveEnded_press (s := u) hplaying he hfired hpart]
    exact State.pressDriven_cool (s := u) hcold hopen
  have hhot : ∀ {t : State} {o : Bool} (x : PressPart), e.part = .press x → hot →
      (u.modStriker n (Striker.holding now)).openWindow n k fired = (t, o) →
      u.driveEnded n = (t.modEntry k (Entry.heard o)).holdEnded n true := by
    intro t o x hpart hburns hopen
    rw [State.driveEnded_press (s := u) hplaying he hfired hpart]
    exact State.pressDriven_hot (s := u) hburns hopen
  have hheld : (u.modStriker n (Striker.holding now)).striker n = (s.striker n).holding now := Bank.look_put_same ..
  refine ⟨fun hnone => ?silentBar, fun q hq hfresh => ?freshPickup, fun q old hq hpart hwindows hon hother hclosing => ?again,
    fun r hr => ?roll⟩
  case silentBar =>
    have hshut : ∀ t : State, t.entryAt k = some e → t.bars = s.bars → t.openWindow n k fired = (t, false) := by
      intro t ht hbars
      exact State.openWindow_none ht (by rw [State.bar, hbars]; exact hnone)
    refine ⟨fun hpart => ?_, fun x hpart hcold => ?_, fun x hpart hburns hwindow => ?_⟩
    · refine hgives _ ((hsingle hpart (hshut recovering he rfl)).trans ?_) ?_
      · rw [if_neg Bool.false_ne_true, Entry.heard_false]
        rfl
      · exact (State.leave_decisions ..).trans hdecisions
    · refine hgives _ ((hcool x hpart hcold (hshut (holding x) he rfl)).trans ?_) hdecisions
      rw [Entry.heard_false]
      rfl
    · refine hgives _ ((hhot x hpart hburns (hshut (u.modStriker n (Striker.holding now)) he rfl)).trans ?_) ?_
      · rw [Entry.heard_false, State.holdEnded_leaves (s := (u.modStriker n (Striker.holding now)).modEntry k Entry.unheard)
          (k := k) (t := recovered) ((congrArg Striker.playing hheld).trans hplaying)
          ((congrArg Striker.recoveryEnd hheld).trans hrecovery) hlater hwindow, if_pos rfl]
        exact congrArg (State.leave k .played) (State.holdCut_eq (s := u) s.sense now (g := Entry.unheard) (fun _ => rfl)
          (fun x => { x with derated := true }))
      · exact (State.leave_decisions ..).trans hdecisions
  case freshPickup =>
    have hunused : s.sense.windowOn q = none := Sense.windowOn_none hfresh
    refine ⟨fun hroom hfree => ?_, fun hfull hpart => ?_⟩
    · have hopens : ∀ t : State, t.entryAt k = some e → t.bars = s.bars → t.sense = s.sense → t.now = now →
          t.openWindow n k fired = (opened q t, true) := by
        intro t ht hbars hsense hnow
        have hasked : { t.sense with windows := t.sense.windows ++ [t.newWindow n k fired q] }.ask t.now (.pickup q) =
            (opened q t).sense := by
          rw [Sense.ask_free _ _ (by rw [hsense]; exact hfree), State.newWindow, hsense, hnow]
          rfl
        rw [State.openWindow_opens ht (by rw [State.bar, hbars]; exact hq) (by rw [hsense]; exact hunused)
          (by rw [hsense]; exact hroom), hasked]
      refine ⟨fun hpart => ?_, fun x hpart hcold => ?_, fun x hpart hburns => ?_⟩
      · refine hgives _ ((hsingle hpart (hopens recovering he rfl rfl rfl)).trans ?_) hdecisions
        rw [if_pos rfl, Entry.heard_true]
        rfl
      · refine hgives _ ((hcool x hpart hcold (hopens (holding x) he rfl rfl rfl)).trans ?_) hdecisions
        rw [Entry.heard_true]
        rfl
      · refine hgives _ ((hhot x hpart hburns (hopens (u.modStriker n (Striker.holding now)) he rfl rfl rfl)).trans ?_)
          hdecisions
        have hwindow : ((opened q (u.modStriker n (Striker.holding now))).modEntry k heard).windowFor k = true :=
          State.windowFor_iff.2 (.inl ⟨window q, List.mem_append_right _ (List.mem_singleton.2 rfl), rfl⟩)
        rw [Entry.heard_true, State.holdEnded_open
          (s := (opened q (u.modStriker n (Striker.holding now))).modEntry k heard) (k := k) (t := recovered)
          ((congrArg Striker.playing hheld).trans hplaying) ((congrArg Striker.recoveryEnd hheld).trans hrecovery) hlater
          hwindow, if_pos rfl]
        exact State.holdCut_eq (s := u) (opened q recovering).sense now (g := heard) (fun _ => rfl)
          (fun x => { x with derated := true })
    · refine hgives _ ((hsingle hpart (State.openWindow_full (s := recovering) he hq hunused hfull)).trans ?_) ?_
      · rw [if_neg Bool.false_ne_true, Entry.heard_false]
        rfl
      · exact (State.leave_decisions ..).trans hdecisions
  case again =>
    subst hon
    have hopen : recovering.sense.windowOn old.pickup = some old := Sense.windowOn_only hwindows rfl
    refine ⟨fun c hconv hinput => ?_, fun d hfree hwaiting hd hcut hn hidle => ?_⟩
    · have hrunning : recovering.sense.converting old.pickup = true := by
        show s.sense.converting old.pickup = true
        simp [Sense.converting, hconv, hinput, hclosing]
      refine hgives _ ((hsingle hpart (State.openWindow_again (s := recovering) he hq hopen
        (State.closeEarly_waits hwindows hrunning) (Nat.zero_lt_succ 7))).trans ?_) hdecisions
      have hasked := Sense.ask_committed (now := now) (input := .pickup old.pickup) (c := c)
        (m := { s.sense.closedEarly old.pickup with closing := some old, windows := [window old.pickup] })
        hconv (by simp [Sense.committed, hinput])
      rw [if_pos rfl, Entry.heard_true]
      exact congrArg (fun m => ({ flagged heard recovering with sense := m } : State)) hasked
    · intro judged
      have hquiet : recovering.sense.converting old.pickup = false := by
        show s.sense.converting old.pickup = false
        simp [Sense.converting, hfree]
      let v : State := { recovering with sense := s.sense.closedEarly old.pickup }
      have hstriker : v.striker old.striker = s.striker old.striker := Bank.look_put_ne _ hn _
      have hfound : ∀ (f : Entry → Entry) (t : State) (y : Striker), (∀ d, (f d).slot = d.slot) → (f d).wasCut = d.wasCut →
          y.playing = (s.striker old.striker).playing → v.judge old = t.windowClosed old.striker old.slot f →
          t = { v with strikers := v.strikers.put old.striker y } → judged f y := by
        intro f t y hslot hwas hplays hverdict ht
        have hlook : (t.striker old.striker).playing = (s.striker old.striker).playing := by
          rw [ht, ← hplays]
          exact congrArg Striker.playing (Bank.look_put_same ..)
        have hgone : v.judge old = (t.modEntry old.slot f).leave old.slot .played := by
          rw [hverdict, State.windowClosed_eq (s := t) (e := d) (by rw [ht]; exact hd) hslot hwas, hcut,
            if_neg Bool.false_ne_true, hlook, if_neg hidle]
        let z₀ : State := { recovering with
          strikers := recovering.strikers.put old.striker y
          entries := s.entries.map (fun d => if d.slot = old.slot then f d else d) }
        let z : State := z₀.leave old.slot .played
        have hz : (t.modEntry old.slot f).leave old.slot .played = { z with sense := s.sense.closedEarly old.pickup } := by
          rw [ht]
          exact State.leave_sense (s := z₀) (s.sense.closedEarly old.pickup) .played
        have hkept : z.sense = s.sense ∧ z.now = now := by
          have hframe : z = _ := State.leave_frame z₀ old.slot .played
          rw [hframe]
          exact ⟨rfl, rfl⟩
        have hclosed : recovering.closeEarly old = { z with sense := s.sense.closedEarly old.pickup } :=
          (State.closeEarly_judges (s := recovering) hwindows hquiet).trans (hgone.trans hz)
        show gives _
        refine hgives _ ((hsingle hpart (State.openWindow_again (s := recovering) he hq hopen hclosed (Nat.zero_lt_succ 7))).trans ?_) ?_
        · have hempty : s.sense.closedEarly old.pickup = { s.sense with windows := [] } := by
            simp [Sense.closedEarly, hwaiting]
          have hasked : { s.sense.closedEarly old.pickup with
                windows := [({ z with sense := s.sense.closedEarly old.pickup } : State).newWindow n k fired old.pickup]
              }.ask z.now (.pickup old.pickup) = { s.sense with
                windows := [window old.pickup]
                conv := some {
                  input := .pickup old.pickup, came := now, done := now + 10, gain := (s.sense.pickups.look old.pickup).gain } } := by
            rw [State.newWindow, hempty, hkept.2]
            exact Sense.ask_free (n := { s.sense with windows := [window old.pickup] }) now (.pickup old.pickup) hfree
          rw [if_pos rfl, Entry.heard_true]
          exact congrArg (fun m => State.modEntry k heard { z with sense := m }) hasked
        · exact (State.leave_decisions ..).trans hdecisions
      have hd' : v.entryAt old.slot = some d := hd
      refine ⟨fun hpeak => ?_, fun peak hpeak habove => ?_, fun peak hpeak hbelow hnever => ?_⟩
      · refine hfound Entry.unheard v (s.striker old.striker) (fun _ => rfl) rfl rfl (State.judge_unheard hd' hpeak) ?_
        rw [← hstriker, State.striker, Bank.put_look]
      · refine hfound (Entry.found peak false) (v.verdict old.striker false) { s.striker old.striker with silentCount := 0 }
          (fun _ => rfl) rfl rfl (State.judge_sounded hd' hpeak habove) ?_
        rw [State.verdict_sounded, State.modStriker, hstriker]
      · refine hfound (Entry.found peak true) (v.verdict old.striker true) (s.striker old.striker).silenced
          (fun _ => rfl) rfl rfl (State.judge_silent hd' hpeak hbelow) ?_
        rw [State.verdict_counts (.inl fun h => h.1 (by rw [hstriker]; exact hnever)), State.modStriker, hstriker]
  case roll =>
    intro played
    have hdriven : u.driveEnded n = recovering.playStroke k := by
      rw [State.driveEnded_roll (s := u) hplaying he hr, hrecovering]
    refine ⟨fun hdone => ?_, fun hmore hmark => ?_, fun hmore hmark hwaits => ?_⟩
    · exact hgives _ (hdriven.trans (State.counted_done (s := recovering) _ hslots he hr hdone))
        ((State.leave_decisions ..).trans hdecisions)
    · exact hgives _ (hdriven.trans (State.counted_flushed (s := recovering) _ hslots he hr hmore hmark))
        ((State.leave_decisions ..).trans hdecisions)
    · exact hgives _ (hdriven.trans (State.counted_returns (s := recovering) _ hslots he hr hmore hmark hwaits)) hdecisions

end Sys2Proof.Machine
end

section
/-! SUPPORT. The tests of a release in their order, the unison merge, and what joining a set does (R33 to R37, R96). -/
namespace Sys2Proof.Machine

/-! ## The hold of a sustain (R95, R96) -/

/-- A timed hold stands after those that end no later. -/
theorem insertHold_timed (v : VoiceId) (b : Option BarId) (x : Nat) (l : List Hold) :
    insertHold { voice := v, bar := b, endTick := some x } l =
      l.takeWhile (pastHold x) ++ { voice := v, bar := b, endTick := some x } :: l.dropWhile (pastHold x) := by
  induction l with
  | nil => rfl
  | cons a rest ih =>
    have hbefore : (Hold.before { voice := v, bar := b, endTick := some x } a) = !pastHold x a := by
      unfold Hold.before pastHold
      cases a.endTick with
      | none => rfl
      | some y =>
        dsimp only
        rw [← decide_not]
        exact decide_eq_decide.2 Nat.not_le.symm
    rw [insertHold, hbefore, List.takeWhile_cons, List.dropWhile_cons]
    cases hpast : pastHold x a with
    | true => simpa using ih
    | false => simp

section
variable {s u : State} {k : SlotId} {e : Entry} {n : Nat} {unit : UnitId}

theorem State.placeSustain_frame : s.placeSustain e = { s with dampers := (s.placeSustain e).dampers } := by
  unfold State.placeSustain
  split
  · unfold State.placeHold
    split
    · split <;> rfl
    · rfl
  · rfl

theorem State.placeSustain_none (h : e.sustain = none ∨ (s.bar e.bar).damper = none) : s.placeSustain e = s := by
  unfold State.placeSustain
  obtain h | h := h
  · rw [h]
  · split
    · unfold State.placeHold
      rw [h]
    · rfl

theorem State.placeSustain_some (hsustain : e.sustain = some n) (hunit : (s.bar e.bar).damper = some unit) :
    s.placeSustain e = if e.due + n ≤ s.timeline.position then s else
      s.modDamper unit (Damper.arrive s.now { voice := e.voice, bar := some e.bar, endTick := some (e.due + n) }) := by
  unfold State.placeSustain
  rw [hsustain]
  dsimp only
  unfold State.placeHold
  rw [hunit]

/-- What a sustain does to the units follows from the time, the position, the bars and the units. -/
theorem State.placeSustain_congr (hnow : u.now = s.now) (htimeline : u.timeline = s.timeline) (hbars : u.bars = s.bars)
    (hdampers : u.dampers = s.dampers) : (u.placeSustain e).dampers = (s.placeSustain e).dampers := by
  have hbar : u.bar e.bar = s.bar e.bar := congrArg (·.look e.bar) hbars
  cases hsustain : e.sustain with
  | none => rw [State.placeSustain_none (.inl hsustain), State.placeSustain_none (.inl hsustain), hdampers]
  | some n =>
    cases hunit : (s.bar e.bar).damper with
    | none =>
      rw [State.placeSustain_none (.inr hunit), State.placeSustain_none (.inr (hbar ▸ hunit)), hdampers]
    | some unit =>
      rw [State.placeSustain_some hsustain hunit, State.placeSustain_some hsustain (hbar ▸ hunit), htimeline]
      split
      · exact hdampers
      · show u.dampers.put unit (Damper.arrive u.now _ (u.dampers.look unit)) =
          s.dampers.put unit (Damper.arrive s.now _ (s.dampers.look unit))
        rw [hnow, hdampers]

/-! ## Joining the set (R37) -/

theorem State.join_state {target deadline : Nat} {r : RailId} (he : s.entryAt k = some e) (hrail : (s.bar e.bar).rail = some r) :
    s.join k target deadline = { s with
      entries := s.entries.map (fun d => if d.slot = k then d.joined s.now target deadline else d)
      decisions := s.decisions ++ [r]
      dampers := (s.placeSustain e).dampers } := by
  have hsame : ((s.modEntry k (Entry.joined s.now target deadline)).placeSustain e).dampers = (s.placeSustain e).dampers :=
    State.placeSustain_congr rfl rfl rfl rfl
  rw [State.join_some he, State.placeSustain_frame, hsame]
  unfold State.wakeRailOf
  rw [show (({ s.modEntry k (Entry.joined s.now target deadline) with
    dampers := (s.placeSustain e).dampers } : State).bar e.bar).rail = some r from hrail]
  rfl

theorem State.entryAt_leave {j : SlotId} (o : EntryOutcome) (hne : j ≠ k) (he : s.entryAt k = some e) :
    (s.leave j o).entryAt k = some e := by
  rw [State.entryAt, State.leave_entries, List.find?_filter]
  refine Eq.trans (congrArg (fun q => s.entries.find? q) (funext fun d => ?_)) he
  by_cases hd : d.slot = k
  · simp [hd, hne.symm]
  · simp [hd]

/-! ## The tests (R34, R35, R36) -/

/-- A ROLL that carries the chop mark. -/
def Entry.Chopped (e : Entry) : Prop := ∃ r, e.part = .roll r ∧ r.chopMark = true

theorem State.release_chopped (he : s.entryAt k = some e) (h : e.Chopped) : s.release k = s.leave k .chopped := by
  obtain ⟨r, hr, hmark⟩ := h
  unfold State.release
  rw [he]
  dsimp only
  rw [hr]
  exact if_pos hmark

/-- The fourth and the fifth test of a release, its times known. -/
def State.releaseTimed (k : SlotId) (e : Entry) (target deadline : Nat) (s : State) : State :=
  match (if e.part = .single then s.partner e else none) with
  | none => s.join k target deadline
  | some d =>
    if e.strength > d.strength || (e.strength = d.strength && e.seq < d.seq) then (s.leave d.slot .merged).join k target deadline
    else s.leave k .merged

/-- The tests of a release after that of the chop mark. -/
def State.releaseTested (k : SlotId) (e : Entry) (s : State) : State :=
  if s.candidates (s.bar e.bar) = [] then s.leave k .noStriker
  else if s.stage.stage ≠ .playing then s.leave k .droppedStage
  else match s.fireTimes e.due (s.timeline.times (s.bar e.bar).cls) with
    | none => s.leave k .droppedLate
    | some (target, deadline) => s.releaseTimed k e target deadline

theorem State.release_tested (he : s.entryAt k = some e) (h : ¬ e.Chopped) : s.release k = s.releaseTested k e := by
  unfold State.release
  rw [he]
  dsimp only
  split
  · next r hr => exact (if_neg fun hmark => h ⟨r, hr, hmark⟩).trans rfl
  · exact (if_neg Bool.false_ne_true).trans rfl

/-- A bar with a candidate (R52). -/
def State.Able (s : State) (b : BarId) : Prop := ∃ n ∈ (s.bar b).strikers, (s.striker n).state ≠ .locked

theorem State.able_iff {b : BarId} : s.Able b ↔ s.candidates (s.bar b) ≠ [] := by
  constructor
  · rintro ⟨n, hn⟩
    exact List.ne_nil_of_mem (State.mem_candidates.2 hn)
  · intro h
    obtain ⟨n, hn⟩ := List.exists_mem_of_ne_nil _ h
    exact ⟨n, State.mem_candidates.1 hn⟩

theorem State.Able.rail {b : BarId} (h : s.Able b) : ∃ r, (s.bar b).rail = some r := by
  obtain ⟨n, hn, -⟩ := h
  unfold Bar.rail
  cases hlist : (s.bar b).strikers with
  | nil => rw [hlist] at hn; cases hn
  | cons m rest => exact ⟨railOf m, rfl⟩

theorem State.release_noStriker (he : s.entryAt k = some e) (h : ¬ e.Chopped) (hnone : ¬ s.Able e.bar) :
    s.release k = s.leave k .noStriker := by
  rw [State.release_tested he h, State.releaseTested, if_pos (by rwa [State.able_iff, not_not] at hnone)]

theorem State.release_offStage (he : s.entryAt k = some e) (h : ¬ e.Chopped) (hable : s.Able e.bar)
    (hstage : s.stage.stage ≠ .playing) : s.release k = s.leave k .droppedStage := by
  rw [State.release_tested he h, State.releaseTested, if_neg (State.able_iff.1 hable), if_pos hstage]

/-- The ideal time of a stroke released now (R35). -/
def State.ideal (s : State) (e : Entry) : Int :=
  s.now + ((e.due : Int) - s.timeline.position) * s.timeline.period / 8 - (s.timeline.times (s.bar e.bar).cls).lead

/-- The slip of a stroke's class. -/
def State.slipOf (s : State) (e : Entry) : Nat := (s.timeline.times (s.bar e.bar).cls).slip

/-- The deadline of a stroke released now is past (R35). -/
def State.Late (s : State) (e : Entry) : Prop := s.ideal e + s.slipOf e < s.now

theorem State.fireTimes_late (h : s.Late e) : s.fireTimes e.due (s.timeline.times (s.bar e.bar).cls) = none := by
  unfold State.Late State.ideal State.slipOf at h
  unfold State.fireTimes Timeline.offset
  exact if_pos (by omega)

theorem State.fireTimes_inTime (h : ¬ s.Late e) : s.fireTimes e.due (s.timeline.times (s.bar e.bar).cls) =
    some ((max (s.ideal e) s.now).toNat, (s.ideal e + s.slipOf e).toNat) := by
  unfold State.Late State.ideal State.slipOf at h
  unfold State.fireTimes Timeline.offset
  exact if_neg (by omega)

theorem State.release_late (he : s.entryAt k = some e) (h : ¬ e.Chopped) (hable : s.Able e.bar)
    (hstage : s.stage.stage = .playing) (hlate : s.Late e) : s.release k = s.leave k .droppedLate := by
  rw [State.release_tested he h, State.releaseTested, if_neg (State.able_iff.1 hable), if_neg (not_not.2 hstage),
    State.fireTimes_late hlate]

theorem State.release_inTime (he : s.entryAt k = some e) (h : ¬ e.Chopped) (hable : s.Able e.bar)
    (hstage : s.stage.stage = .playing) (hlate : ¬ s.Late e) : s.release k =
      s.releaseTimed k e (max (s.ideal e) s.now).toNat (s.ideal e + s.slipOf e).toNat := by
  rw [State.release_tested he h, State.releaseTested, if_neg (State.able_iff.1 hable), if_neg (not_not.2 hstage),
    State.fireTimes_inTime hlate]

/-- The RELEASED, ungranted SINGLEs that an entry may merge with (R36). -/
def State.Partner (s : State) (e d : Entry) : Prop :=
  d ∈ s.entries ∧ d.slot ≠ e.slot ∧ d.state = .released ∧ d.part = .single ∧ d.bar = e.bar ∧ d.due = e.due

theorem State.partner_none (h : ∀ d, ¬ s.Partner e d) : s.partner e = none := by
  refine List.find?_eq_none.2 fun d hd => ?_
  have hnot := h d
  simp only [State.Partner, hd, true_and] at hnot
  simpa [and_assoc] using hnot

theorem State.partner_some {d : Entry} (h : s.Partner e d) (honly : ∀ y, s.Partner e y → y = d) : s.partner e = some d := by
  cases hfound : s.partner e with
  | none =>
    obtain ⟨hmem, hrest⟩ := h
    have hnot := List.find?_eq_none.1 hfound d hmem
    simp [hrest] at hnot
  | some y =>
    have hy := List.find?_some hfound
    simp only [Bool.and_eq_true, decide_eq_true_eq, and_assoc] at hy
    rw [honly y ⟨List.mem_of_find?_eq_some hfound, hy⟩]

theorem State.releaseTimed_joins {target deadline : Nat} (h : e.part = .single → ∀ d, ¬ s.Partner e d) :
    s.releaseTimed k e target deadline = s.join k target deadline := by
  have hnone : (if e.part = .single then s.partner e else none) = none := by
    split
    · next hsingle => exact State.partner_none (h hsingle)
    · rfl
  unfold State.releaseTimed
  rw [hnone]

theorem State.releaseTimed_merges {target deadline : Nat} {d : Entry} (hsingle : e.part = .single) (h : s.Partner e d)
    (honly : ∀ y, s.Partner e y → y = d) : s.releaseTimed k e target deadline =
      if e.strength < d.strength ∨ (e.strength = d.strength ∧ d.seq ≤ e.seq) then s.leave k .merged
      else (s.leave d.slot .merged).join k target deadline := by
  have hfound : (if e.part = .single then s.partner e else none) = some d := by
    rw [if_pos hsingle, State.partner_some h honly]
  unfold State.releaseTimed
  rw [hfound]
  dsimp only
  by_cases hstays : e.strength < d.strength ∨ (e.strength = d.strength ∧ d.seq ≤ e.seq)
  · rw [if_pos hstays]
    exact if_neg (by simp; omega)
  · rw [if_neg hstays]
    exact if_pos (by simp; omega)

end

end Sys2Proof.Machine
end

section
/-! SUPPORT. A release at an admission (R32, R33), and decisions that find no eligible member. -/
namespace Sys2Proof.Machine

/-! ## The entry placed -/

section
variable {e : Entry} {l : List Entry}

theorem placeEntry_find (hnew : ∀ d ∈ l, d.slot ≠ e.slot) : (placeEntry e l).find? (fun d => d.slot = e.slot) = some e := by
  induction l with
  | nil => simp [placeEntry]
  | cons d rest ih =>
    have hd : ¬ d.slot = e.slot := hnew d (List.mem_cons_self ..)
    unfold placeEntry
    split
    · simp
    · rw [List.find?_cons_of_neg (by simpa using hd)]
      exact ih fun x hx => hnew x (List.mem_cons_of_mem _ hx)

theorem placeEntry_filter (hnew : ∀ d ∈ l, d.slot ≠ e.slot) : (placeEntry e l).filter (fun d => d.slot ≠ e.slot) = l := by
  induction l with
  | nil => simp [placeEntry]
  | cons d rest ih =>
    have hd : ¬ d.slot = e.slot := hnew d (List.mem_cons_self ..)
    have hrest := ih fun x hx => hnew x (List.mem_cons_of_mem _ hx)
    unfold placeEntry
    split
    · rw [List.filter_cons_of_neg (by simp)]
      exact List.filter_eq_self.2 fun x hx => by simpa using hnew x hx
    · rw [List.filter_cons_of_pos (by simpa using hd), hrest]

theorem placeEntry_map {f : Entry → Entry} (hnew : ∀ d ∈ l, d.slot ≠ e.slot) (hdue : (f e).due = e.due) (hseq : (f e).seq = e.seq) :
    (placeEntry e l).map (fun d => if d.slot = e.slot then f d else d) = placeEntry (f e) l := by
  induction l with
  | nil => simp [placeEntry]
  | cons d rest ih =>
    have hd : ¬ d.slot = e.slot := hnew d (List.mem_cons_self ..)
    have hrest := ih fun x hx => hnew x (List.mem_cons_of_mem _ hx)
    have hbefore : (f e).before d = e.before d := by rw [Entry.before, Entry.before, hdue, hseq]
    have hkept : rest.map (fun d => if d.slot = e.slot then f d else d) = rest :=
      (List.map_congr_left fun (x : Entry) hx => if_neg (hnew x (List.mem_cons_of_mem _ hx))).trans (List.map_id _)
    unfold placeEntry
    rw [hbefore]
    split
    · rw [List.map_cons, List.map_cons, if_pos rfl, if_neg hd, hkept]
    · rw [List.map_cons, if_neg hd, hrest]

end

/-! ## What a port's queue makes of a record -/

theorem Port.offer_records {a b : Port} (r : EchoRecord) (hecho : a.echo = b.echo) (hlost : a.lost = b.lost) :
    (a.offer r).echo = (b.offer r).echo ∧ (a.offer r).lost = (b.offer r).lost := by
  unfold Port.offer Port.levelCheck
  rw [hecho, hlost]
  split
  · dsimp only
    constructor
    · split <;> split <;> rfl
    · split <;> split <;> rfl
  · exact ⟨rfl, rfl⟩

section
variable {s : State} {r : RailId}

/-! ## Decisions that find nothing to do (R69) -/

theorem State.arbitrate_ineligible (h : ∀ e ∈ s.members r, e.eligible s.now = false) : s.arbitrate r = s := by
  have hnone : (s.members r).filter (Entry.eligible s.now) = [] :=
    List.filter_eq_nil_iff.2 fun e he => by rw [h e he]; exact Bool.false_ne_true
  unfold State.arbitrate
  split
  · rfl
  · rw [hnone]
    rfl

/-- Where no RELEASED entry is eligible, the decisions to take change nothing. -/
theorem State.settle_idle (h : ∀ e ∈ s.entries, e.state = .released → e.eligible s.now = false) :
    s.settle = { s with decisions := [] } := by
  have hsteps : ∀ (n : Nat) (l : List RailId), ∃ rest, State.settleUpTo n { s with decisions := l } = { s with decisions := rest } := by
    intro n
    induction n with
    | zero => exact fun l => ⟨l, rfl⟩
    | succ n ih =>
      intro l
      cases l with
      | nil => exact ⟨[], rfl⟩
      | cons q rest =>
        have hdecided : State.arbitrate q { s with decisions := rest } = { s with decisions := rest } :=
          State.arbitrate_ineligible (s := { s with decisions := rest }) fun e he => by
            obtain ⟨hmem, hreleased, -⟩ := State.mem_members.1 he
            exact h e hmem hreleased
        obtain ⟨last, hlast⟩ := ih rest
        refine ⟨last, ?_⟩
        rw [State.settleUpTo]
        dsimp only
        rw [hdecided, hlast]
  obtain ⟨rest, hrest⟩ := hsteps (s.decisions.length + (s.entries.map Entry.strokesLeft).sum + 1) s.decisions
  have hself : ({ s with decisions := s.decisions } : State) = s := rfl
  rw [State.settle, ← hself, hrest]

end

/-! ## An admission that the position releases at once (R32, R33) -/

section
variable {s : State} {a : Ask} {p : PortId} {slot : SlotId} {v : VoiceId} {b : BarId} {form : Byte} {due : Quad}
  {strength tag : Byte} {sustain : Half} {part : StrokePart}

/-- The part with an entry admitted and not yet tested. -/
def State.placed (a : Ask) (p : PortId) (slot : SlotId) (s : State) : State :=
  { s with entries := placeEntry (a.entry p slot s.nextSeq) s.entries, nextSeq := s.nextSeq + 1 }

theorem State.admitEntry_released (hask : s.askRefusal a p = none) (hslot : s.freeSlot = some slot)
    (hnow : s.releasable (a.entry p slot s.nextSeq) = true) :
    s.admitEntry a p = ((s.placed a p slot).release slot, .admitted slot s.nextSeq) := by
  rw [State.admitEntry, hask, hslot]
  show ((if s.releasable (a.entry p slot s.nextSeq) then (s.placed a p slot).release slot else s.placed a p slot), _) = _
  rw [hnow, if_pos rfl]
  rfl

theorem strokeResult_released (hform : form.toNat < 4) (h : s.owns p v = true)
    (hask : s.askRefusal (strokeAsk v b form due strength tag sustain part s) p = none) (hslot : s.freeSlot = some slot)
    (hnow : s.releasable ((strokeAsk v b form due strength tag sustain part s).entry p slot s.nextSeq) = true) :
    strokeResult p (BitVec.ofNat 8 v.1) (BitVec.ofNat 8 b.1) form due strength tag sustain part s =
      (((s.placed (strokeAsk v b form due strength tag sustain part s) p slot).release slot).settle, .ok,
        b1 slot.1 ++ b4 s.nextSeq) := by
  rw [strokeResult_named hform, if_pos h, State.admitEntry_released hask hslot hnow]

theorem State.placed_entryAt (hfree : ∀ e ∈ s.entries, e.slot ≠ slot) :
    (s.placed a p slot).entryAt slot = some (a.entry p slot s.nextSeq) :=
  placeEntry_find (e := a.entry p slot s.nextSeq) hfree

end

end Sys2Proof.Machine
end

section
/-! SUPPORT. A tick expiry that finds one entry and no player in play (R33), and the release tests as they are claimed. -/
namespace Sys2Proof.Machine

/-! ## A tick without a pending period and without a ramp -/

theorem Timeline.tick_steady {t : Timeline} {now : Nat} (hpending : t.pendingPeriod = none) (hramp : t.ramp = none) :
    (t.tick now none).1.period = t.period ∧ ∀ c, (t.tick now none).1.times c = t.times c := by
  have hadvanced : t.advanced = { t with position := t.position + 1 } := by
    have hadopt : t.adoptPending = t := by
      unfold Timeline.adoptPending
      split
      · next p hp => cases hpending.symm.trans hp
      · rfl
    rw [Timeline.advanced, hadopt]
  have hbeat : t.advanced.onBeat now none = { t with position := t.position + 1, syncOutEnd := some (now + 1000) } := by
    unfold Timeline.onBeat Timeline.rampStep
    rw [hadvanced]
    dsimp only
    rw [hramp]
  rw [Timeline.tick_eq]
  split
  · rw [hadvanced]
    exact ⟨rfl, fun c => by cases c <;> rfl⟩
  · split
    · rw [hbeat]
      exact ⟨rfl, fun c => by cases c <;> rfl⟩
    · rw [hbeat]
      exact ⟨rfl, fun c => by cases c <;> rfl⟩

/-! ## The neighbours before and after the calendar's part -/

/-- The queue of a port and its lost mark. -/
def Port.records (q : Port) : List EchoRecord × Bool := (q.echo, q.lost)

/-- What the calendar's part of a tick expiry finds: the neighbours before it have left what it reads. -/
structure State.SameCalendar (s u : State) : Prop where
  now : u.now = s.now
  timeline : u.timeline = s.timeline
  entries : u.entries = s.entries
  decisions : u.decisions = []
  bars : u.bars = s.bars
  strikers : u.strikers = s.strikers
  stage : u.stage = s.stage
  idle : ∀ v, (u.player v).state = .idle
  records : ∀ q, (u.port q).records = (s.port q).records

/-- What a tick expiry gives, once the calendar has taken its part: the entries and the queues, with nothing left to do. -/
structure State.AtRest (l : List Entry) (records : PortId → List EchoRecord × Bool) (u : State) : Prop where
  entries : u.entries = l
  records : ∀ q, (u.port q).records = records q
  idle : ∀ v, (u.player v).state = .idle
  waits : ∀ e ∈ l, u.releasable e = false
  ineligible : ∀ e ∈ l, e.state = .released → e.eligible u.now = false

section
variable {s u : State} {o : Interleaving} {e : Entry} {l : List Entry} {records : PortId → List EchoRecord × Bool}

theorem State.AtRest.settle (h : u.AtRest l records) : u.settle.AtRest l records := by
  rw [State.settle_idle (by rw [h.entries]; exact h.ineligible)]
  exact ⟨h.entries, h.records, h.idle, h.waits, h.ineligible⟩

theorem State.AtRest.settleAtBlock (h : u.AtRest l records) : (u.settleAtBlock o).AtRest l records := by
  unfold State.settleAtBlock
  split
  · exact h
  · exact h.settle

theorem State.AtRest.settleAtJoin (h : u.AtRest l records) : (u.settleAtJoin o).AtRest l records := by
  unfold State.settleAtJoin
  split
  · exact h.settle
  · exact h

theorem State.calendarTick_waits (kind : TickKind) (h : ∀ e ∈ u.entries, u.releasable e = false) :
    u.neighbourTick o kind .calendar = u := by
  have hnone : u.slotsWhere u.releasable = [] := by
    rw [State.slotsWhere, List.filter_eq_nil_iff.2 fun e he => by rw [h e he]; exact Bool.false_ne_true]
    rfl
  unfold State.neighbourTick
  dsimp only
  rw [hnone]
  rfl

theorem State.calendarTick_releases (kind : TickKind) (hentries : u.entries = [e]) (hnow : u.releasable e = true) :
    u.neighbourTick o kind .calendar = (u.release e.slot).settleAtJoin o := by
  have hone : u.slotsWhere u.releasable = [e.slot] := by
    rw [State.slotsWhere, hentries, List.filter_singleton, hnow]
    rfl
  have he : u.entryAt e.slot = some e := by
    rw [State.entryAt, hentries]
    simp
  unfold State.neighbourTick
  dsimp only
  rw [hone, State.releaseAll, State.releaseAll, he]
  exact if_pos hnow

theorem State.neighbourTick_sameCalendar (kind : TickKind) {n : Neighbour} (hn : n ≠ .calendar) (h : s.SameCalendar u) :
    s.SameCalendar (u.neighbourTick o kind n) := by
  cases n with
  | shaper =>
    unfold State.neighbourTick
    dsimp only
    split
    · exact ⟨h.now, h.timeline, h.entries, h.decisions, h.bars, h.strikers, h.stage, h.idle, h.records⟩
    · exact h
  | calendar => exact absurd rfl hn
  | players =>
    have hnone : u.neighbourTick o kind .players = u := State.playersTick_idle fun v _ => h.idle v
    rwa [hnone]
  | dampers => exact ⟨h.now, h.timeline, h.entries, h.decisions, h.bars, h.strikers, h.stage, h.idle, h.records⟩

theorem State.AtRest.neighbourTick (kind : TickKind) (n : Neighbour) (h : u.AtRest l records) :
    (u.neighbourTick o kind n).AtRest l records := by
  cases n with
  | shaper =>
    unfold State.neighbourTick
    dsimp only
    split
    · exact ⟨h.entries, h.records, h.idle, h.waits, h.ineligible⟩
    · exact h
  | calendar =>
    rw [State.calendarTick_waits kind (by rw [h.entries]; exact h.waits)]
    exact h
  | players =>
    have hnone : u.neighbourTick o kind .players = u := State.playersTick_idle fun v _ => h.idle v
    rwa [hnone]
  | dampers => exact ⟨h.entries, h.records, h.idle, h.waits, h.ineligible⟩

theorem State.AtRest.neighboursTick (kind : TickKind) (ns : List Neighbour) (h : u.AtRest l records) :
    (State.neighboursTick o kind ns u).AtRest l records := by
  induction ns generalizing u with
  | nil => exact h
  | cons n rest ih => exact ih (h.neighbourTick kind n).settleAtBlock

/-- The calendar takes its part once, among the others' in whatever order. -/
theorem State.neighboursTick_calendar (kind : TickKind) {ns : List Neighbour} (hmem : Neighbour.calendar ∈ ns)
    (h : s.SameCalendar u) (htick : ∀ x, s.SameCalendar x → (x.neighbourTick o kind .calendar).AtRest l records) :
    (State.neighboursTick o kind ns u).AtRest l records := by
  induction ns generalizing u with
  | nil => cases hmem
  | cons n rest ih =>
    by_cases hn : n = .calendar
    · subst hn
      exact State.AtRest.neighboursTick kind rest (htick u h).settleAtBlock
    · have hsame := State.neighbourTick_sameCalendar (o := o) kind hn h
      rw [State.neighboursTick, State.settleAtBlock_nil hsame.decisions]
      exact ih ((List.mem_cons.1 hmem).resolve_left fun g => hn g.symm) hsame

/-- A whole tick expiry, by what the calendar makes of it. -/
theorem State.expire_calendar (hdecisions : s.decisions = []) (hidle : ∀ v, (s.player v).state = .idle)
    (htick : ∀ (kind : TickKind) (x : State),
      ({ s with timeline := (s.timeline.tick s.now none).1 } : State).SameCalendar x →
      (x.neighbourTick o kind .calendar).AtRest l records) : (s.expire o none).AtRest l records := by
  have hmem : Neighbour.calendar ∈ arrange o.blocks [.shaper, .calendar, .players, .dampers] := mem_arrange.2 (by simp)
  unfold State.expire
  refine (State.neighboursTick_calendar _ hmem ?_ (htick _)).settle
  split
  · refine ⟨rfl, rfl, rfl, hdecisions, rfl, rfl, rfl, hidle, fun q => ?_⟩
    rw [State.raiseAll, State.port, Bank.look_mapWith]
    rfl
  · exact ⟨rfl, rfl, rfl, hdecisions, rfl, rfl, rfl, hidle, fun q => rfl⟩

/-- The queues after an entry has left do not depend on the part's other blocks. -/
theorem State.leave_records {k : SlotId} (out : EntryOutcome) (he : s.entryAt k = some e) (hu : u.entryAt k = some e)
    (h : ∀ q, (u.port q).records = (s.port q).records) (q : PortId) :
    ((u.leave k out).port q).records = ((s.leave k out).port q).records := by
  have hoffered := Port.offer_records (a := u.port e.port) (b := s.port e.port) (e.echo out)
    (congrArg Prod.fst (h e.port)) (congrArg Prod.snd (h e.port))
  rw [State.leave_some he, State.leave_some hu]
  cases e.report with
  | false => exact h q
  | true =>
    show ((u.ports.put e.port ((u.port e.port).offer (e.echo out))).look q).records =
      ((s.ports.put e.port ((s.port e.port).offer (e.echo out))).look q).records
    rw [Bank.look_put, Bank.look_put]
    split
    · exact Prod.ext hoffered.1 hoffered.2
    · exact h q

theorem State.leave_idle {k : SlotId} (out : EntryOutcome) (h : ∀ v, (u.player v).state = .idle) (v : VoiceId) :
    ((u.leave k out).player v).state = .idle := by
  obtain hkept | ⟨hstalled, -⟩ := u.leave_player k out v
  · rw [hkept]
    exact h v
  · exact absurd (hstalled.symm.trans (h v)) nofun

end

/-! ## The release tests as they are claimed -/

/-- Settles O60: the tests in their order, a STRIKE that the position releases at once, and a tick expiry with one entry. -/
theorem releaseFollowsItsTests : Obligations.ReleaseFollowsItsTests := by
  unfold Obligations.ReleaseFollowsItsTests
  intro ideal slip able released
  refine ⟨fun s k e he hslots => ?tests, ?admission, ?tick⟩
  case tests =>
    intro x best chopped late partner joins
    have hslot : e.slot = k := State.entryAt_slot he
    have hpartner : ∀ d, partner d ↔ s.Partner e d := fun d => by
      rw [State.Partner, hslot]
    have hjoins : ∀ u : State, u.entryAt k = some e → able s e.bar → ¬ late →
        u = { s with entries := u.entries, ports := u.ports, players := u.players } →
        s.release k = u.join k (max (s.ideal e) s.now).toNat (s.ideal e + s.slipOf e).toNat → joins u := by
      intro u hu hable hlate hframe hrelease
      obtain ⟨r, hr⟩ := State.Able.rail hable
      have hin : ¬ (s.ideal e + s.slipOf e < s.now) := hlate
      generalize u.entries = l, u.ports = ports, u.players = players at hframe
      subst hframe
      let u : State := { s with entries := l, ports := ports, players := players }
      let target := (max (s.ideal e) s.now).toNat
      let deadline := (s.ideal e + s.slipOf e).toNat
      have hdampers : (u.placeSustain e).dampers = (s.placeSustain e).dampers := State.placeSustain_congr rfl rfl rfl rfl
      have hstate : u.join k target deadline = _ := State.join_state hu hr
      rw [hdampers] at hstate
      refine ⟨u.join k target deadline, target, deadline, r, hrelease, ?_, ?_, hr, ?_, fun hnone => ?_,
        fun n unit hsustain hunit => ⟨fun hpast => ?_, fun hahead => ?_⟩⟩
      · show (((max (s.ideal e) s.now).toNat : Nat) : Int) = max (s.ideal e) s.now
        omega
      · show (((s.ideal e + s.slipOf e).toNat : Nat) : Int) = s.ideal e + s.slipOf e
        omega
      · rw [hstate]
        rfl
      · rw [hstate, State.placeSustain_none hnone]
      · rw [hstate, State.placeSustain_some hsustain hunit, if_pos hpast]
      · rw [hstate, State.placeSustain_some hsustain hunit, if_neg (Nat.not_le.2 hahead)]
        show s.dampers.put unit (Damper.arrive s.now _ (s.damper unit)) = _
        have hroom : (if 16 ≤ (s.damper unit).holds.length then (s.damper unit).holds.drop 1 else (s.damper unit).holds) =
            if (s.damper unit).holds.length < 16 then (s.damper unit).holds else (s.damper unit).holds.drop 1 := by
          by_cases h : (s.damper unit).holds.length < 16
          · rw [if_pos h, if_neg (Nat.not_le.2 h)]
          · rw [if_neg h, if_pos (Nat.le_of_not_lt h)]
        rw [Damper.arrive_eq, admitHold, hroom, insertHold_timed]
        rfl
    refine ⟨fun h => State.release_chopped he h, fun h hnone => State.release_noStriker he h hnone,
      fun h hable hstage => State.release_offStage he h hable hstage, fun h hable hstage => ⟨fun hlate => ?_, fun hlate halone => ?_,
        fun d hlate hsingle hd honly => ?_⟩⟩
    · exact State.release_late he h hable hstage hlate
    · exact hjoins s he hable hlate rfl ((State.release_inTime he h hable hstage hlate).trans
        (State.releaseTimed_joins fun hsingle d hd => halone hsingle d ((hpartner d).2 hd)))
    · intro stays
      have hmerges := (State.release_inTime he h hable hstage hlate).trans (State.releaseTimed_merges hsingle ((hpartner d).1 hd)
        fun y hy => honly y ((hpartner y).2 hy))
      have hne : d.slot ≠ k := hd.2.1
      refine ⟨fun hstays => hmerges.trans (if_pos hstays), fun hgoes => ?_⟩
      exact hjoins (s.leave d.slot .merged) (State.entryAt_leave .merged hne he) hable hlate (State.leave_frame s d.slot .merged)
        (hmerges.trans (if_neg hgoes))
  case admission =>
    intro w p s v b due strength tag sustain slot hready hdecisions hown hlow hhigh hstrength hroom hquota hfree hbelow hnow
      e now best admits leaves
    let z : State := s.taken w p
    let y : State := z.placed (strokeAsk v b 0#8 due strength tag sustain .single s) p slot
    have hslot : z.freeSlot = some slot := State.freeSlot_eq_some hfree hbelow
    have hinside : ¬ AskOutside s (strokeAsk v b 0#8 due strength tag sustain .single s) := by
      rw [strokeAsk_outside_iff]
      rintro (h | h | h | ⟨h, -⟩)
      · omega
      · omega
      · exact hstrength h
      · cases h
    have hticks : (strokeAsk v b 0#8 due strength tag sustain .single s).inTicks = true := by
      rw [strokeAsk_inTicks_iff]
      exact Nat.le_of_lt_succ due.isLt
    have hspace : ¬ z.calendarFull v p = true := fun g => by
      have h := (calendarFull_owned (s := z) (State.owns_iff.1 hown).1).1 g
      have h : 256 ≤ s.entries.length ∨ s.quotas.look p ≤ s.useCount p := h
      omega
    have hask : z.askRefusal (strokeAsk v b 0#8 due strength tag sustain .single s) p = none :=
      (askRefusal_inside (s := z) hinside rfl hticks).trans (if_neg hspace)
    have hreleasable : z.releasable e = true := by
      simp only [State.releasable, Bool.and_eq_true, decide_eq_true_eq]
      exact ⟨rfl, hnow⟩
    have hresult : strokeResult p (BitVec.ofNat 8 v.1) (BitVec.ofNat 8 b.1) 0#8 due strength tag sustain .single z =
        ((y.release slot).settle, .ok, b1 slot.1 ++ b4 s.nextSeq) :=
      strokeResult_released (s := z) (by decide) hown hask hslot hreleasable
    have hy : y.entryAt slot = some e := State.placed_entryAt (s := z) hfree
    have hunchopped : ¬ e.Chopped := by
      rintro ⟨r, hr, -⟩
      cases hr
    have hadmits : ∀ (x : State) (holds : State → Prop), (y.release slot).settle = x → x.nextSeq = s.nextSeq + 1 →
        (∀ t : State, t.entries = x.entries → (t.port p).records = (x.port p).records → holds t) → admits holds := by
      intro x holds hx hseq hholds
      have hreply := request_reply (kind := 0x22#8) (w := w)
        (body := strokeResult p (BitVec.ofNat 8 v.1) (BitVec.ofNat 8 b.1) 0#8 due strength tag sustain .single) hready
      have hstate := request_ready (w := w) (code := 0x22#8)
        (body := strokeResult p (BitVec.ofNat 8 v.1) (BitVec.ofNat 8 b.1) 0#8 due strength tag sustain .single) hready
      rw [hresult] at hreply
      rw [hresult, hx] at hstate
      refine ⟨_, rfl, hreply, ?_, hholds _ ?_ ?_⟩
      · rw [hstate]
        exact hseq
      · rw [hstate]
        rfl
      · rw [hstate, State.modPort_port, if_pos rfl]
        rfl
    have hleaves : ∀ o, y.release slot = y.leave slot o → leaves o := by
      intro o hleave
      have hentries : (y.leave slot o).entries = s.entries := by
        rw [State.leave_entries]
        exact placeEntry_filter (e := e) hfree
      have hport : ((y.leave slot o).port p).records = ((s.port p).offer (e.echo o)).records := by
        have hoffered := Port.offer_records (a := z.port p) (b := s.port p) (e.echo o)
          (by rw [State.taken_port]; rfl) (by rw [State.taken_port]; rfl)
        rw [State.leave_some hy]
        refine (congrArg Port.records (Bank.look_put_same ..)).trans ?_
        exact Prod.ext hoffered.1 hoffered.2
      refine hadmits (y.leave slot o) _ ?_ ?_ fun t ht hrecords => ⟨ht.trans hentries, ?_, ?_⟩
      · rw [hleave, State.settle_leave (s := y) hdecisions]
      · rw [State.leave_frame]
        rfl
      · exact congrArg Prod.fst (hrecords.trans hport)
      · exact congrArg Prod.snd (hrecords.trans hport)
    refine ⟨fun hnone => hleaves _ (State.release_noStriker hy hunchopped hnone),
      fun hable hstage => hleaves _ (State.release_offStage hy hunchopped hable hstage),
      fun hable hstage hlate => hleaves _ (State.release_late hy hunchopped hable hstage hlate),
      fun r hable hstage hahead hrail hempty => ?_⟩
    have hbest : y.ideal e = best := rfl
    have hyslip : y.slipOf e = slip s e := rfl
    have hynow : y.now = now := rfl
    have hlate : ¬ y.Late e := by
      unfold State.Late
      rw [hbest, hynow]
      omega
    have hmax : (max (y.ideal e) y.now).toNat = best.toNat := by
      rw [hbest, hynow]
      omega
    have hnobody : ∀ d ∈ s.entries, d.state = .released → d.bar ≠ b := fun d hd hreleased hbar => by
      have hmember : d ∈ s.members r := State.mem_members.2 ⟨hd, hreleased, by rw [hbar]; exact hrail⟩
      rw [hempty] at hmember
      cases hmember
    have hentries : y.entries = placeEntry e s.entries := rfl
    have halone : ∀ d, ¬ y.Partner e d := by
      rintro d ⟨hd, hne, hreleased, -, hbar, -⟩
      rw [hentries] at hd
      obtain rfl | hd := List.mem_cons.1 ((placeEntry_perm e s.entries).mem_iff.1 hd)
      · exact hne rfl
      · exact hnobody d hd hreleased hbar
    let d : Entry := released best.toNat (best + slip s e).toNat false e
    have hnotYet : decide (best.toNat ≤ now) = false := decide_eq_false (by omega)
    have hjoin : y.release slot = { y with entries := placeEntry d s.entries, decisions := [r] } := by
      rw [State.release_inTime hy hunchopped hable hstage hlate, State.releaseTimed_joins (fun _ => halone),
        State.join_state (r := r) hy hrail, State.placeSustain_none (.inl rfl), hmax, hbest, hyslip, hynow,
        show y.decisions = [] from hdecisions, hentries]
      have hplaced := placeEntry_map (e := e) (l := s.entries) (f := Entry.joined now best.toNat (best + slip s e).toNat)
        hfree rfl rfl
      have hd : e.joined now best.toNat (best + slip s e).toNat = d := by
        unfold Entry.joined
        rw [hnotYet]
      rw [hd] at hplaced
      exact congrArg (fun l => { y with entries := l, decisions := [r] }) hplaced
    have hsettle : (y.release slot).settle = { y with entries := placeEntry d s.entries } := by
      rw [hjoin]
      refine (State.settle_one (r := r) (t := { y with entries := placeEntry d s.entries, decisions := [] }) rfl
        (State.arbitrate_ineligible fun x hx => ?_) rfl).trans ?_
      · obtain ⟨hmem, hreleased, hbar⟩ := State.mem_members.1 hx
        obtain rfl | hmem := List.mem_cons.1 ((placeEntry_perm d s.entries).mem_iff.1 hmem)
        · refine Bool.eq_false_iff.2 fun h => ?_
          obtain ⟨⟨t, ht, hle⟩, -⟩ := Entry.eligible_iff.1 h
          have hle : t ≤ now := hle
          cases ht
          omega
        · have hmember : x ∈ s.members r := State.mem_members.2 ⟨hmem, hreleased, hbar⟩
          rw [hempty] at hmember
          cases hmember
      · exact congrArg (fun l => { y with entries := placeEntry d s.entries, decisions := l }) (hdecisions : y.decisions = []).symm
    exact hadmits _ _ hsettle rfl fun t ht _ => ht
  case tick =>
    intro w s e expiry hreset hdecisions hentries hwaiting hidle hstate hdue hsource hrange hpending hramp
      now position best chopped gives leaves reached
    let u : State := s.reach (max ((expiry + 4) / 8) w.time)
    let t : State := { u with timeline := (u.timeline.tick u.now none).1 }
    obtain ⟨hperiod, htimes⟩ := Timeline.tick_steady (t := u.timeline) (now := u.now) hpending hramp
    have hposition : t.timeline.position = position := (u.timeline.tick_frame u.now none).2.1
    have hexec := (exec_tickExpiry_ticks (w := w) hreset hdue hsource).trans (congrArg Host.Outcome.next
      (State.counterTick_below (s := u) (o := w.order) (due := expiry) hstate hrange))
    have he : s.entryAt e.slot = some e := by
      rw [State.entryAt, hentries]
      simp
    have hat : ∀ x, t.SameCalendar x → x.entryAt e.slot = some e := fun x h => by
      rw [State.entryAt, h.entries]
      exact he
    have hbar : ∀ x, t.SameCalendar x → ∀ c, x.bar c = s.bar c := fun x h c => congrArg (·.look c) h.bars
    have hable : ∀ x, t.SameCalendar x → (x.Able e.bar ↔ able s e.bar) := fun x h => by
      unfold State.Able
      rw [hbar x h]
      simp only [State.striker, h.strikers]
      exact Iff.rfl
    have hreleasable : ∀ x, t.SameCalendar x → (x.releasable e = true ↔ reached) := fun x h => by
      simp only [State.releasable, hbar x h, h.timeline, hposition, Bool.and_eq_true, decide_eq_true_eq, hwaiting, true_and]
      show e.due - ((u.timeline.tick u.now none).1.times _).leadTicks ≤ position ↔ _
      rw [htimes]
      exact Iff.rfl
    have hideal : ∀ x, t.SameCalendar x → x.ideal e = best ∧ x.slipOf e = slip s e ∧ x.now = now := fun x h => by
      refine ⟨?_, ?_, h.now⟩
      · unfold State.ideal
        rw [h.now, h.timeline, hbar x h, hposition]
        show (u.now : Int) + ((e.due : Int) - position) * ((u.timeline.tick u.now none).1.period : Int) / 8 -
          (((u.timeline.tick u.now none).1.times (s.bar e.bar).cls).lead : Int) = best
        rw [hperiod, htimes]
        rfl
      · unfold State.slipOf
        rw [h.timeline, hbar x h]
        show ((u.timeline.tick u.now none).1.times (s.bar e.bar).cls).slip = slip s e
        rw [htimes]
        rfl
    have hgives : ∀ (l : List Entry) (records : PortId → List EchoRecord × Bool) (holds : State → Prop),
        (∀ (kind : TickKind) (x : State), t.SameCalendar x → (x.neighbourTick w.order kind .calendar).AtRest l records) →
        (∀ y : State, y.entries = l → (∀ q, (y.port q).records = records q) → holds y) → gives holds := by
      intro l records holds htick hholds
      have hrest := State.expire_calendar (s := u) (o := w.order) hdecisions hidle htick
      exact ⟨_, hexec, hholds _ hrest.entries hrest.records⟩
    have hleaves : ∀ out, reached → (∀ x, t.SameCalendar x → x.release e.slot = x.leave e.slot out) → leaves out := by
      intro out hreached hrelease
      refine hgives [] (fun q => ((s.leave e.slot out).port q).records) _ (fun kind x h => ?_) fun y hy hrecords =>
        ⟨hy, fun q => ⟨congrArg Prod.fst (hrecords q), congrArg Prod.snd (hrecords q)⟩⟩
      have hxentries : x.entries = [e] := h.entries.trans hentries
      rw [State.calendarTick_releases kind hxentries ((hreleasable x h).2 hreached), hrelease x h,
        State.settleAtJoin_nil ((State.leave_decisions ..).trans h.decisions)]
      refine ⟨?_, State.leave_records out he (hat x h) fun q => h.records q, State.leave_idle out h.idle,
        fun d hd => absurd hd List.not_mem_nil, fun d hd => absurd hd List.not_mem_nil⟩
      rw [State.leave_entries, hxentries]
      simp
    refine ⟨fun hnot => ?_, fun hreached hchopped => ?_, fun hreached hunchopped hnone => ?_,
      fun hreached hunchopped hyes hstage => ?_, fun hreached hunchopped hyes hstage => ⟨fun hlate => ?_, fun hahead => ?_⟩⟩
    · refine hgives [e] (fun q => (s.port q).records) _ (fun kind x h => ?_) fun y hy _ => hy
      have hwaits : ∀ d ∈ x.entries, x.releasable d = false := fun d hd => by
        rw [h.entries, show t.entries = [e] from hentries, List.mem_singleton] at hd
        rw [hd]
        exact Bool.eq_false_iff.2 fun g => hnot ((hreleasable x h).1 g)
      rw [State.calendarTick_waits kind hwaits]
      refine ⟨h.entries.trans hentries, h.records, h.idle, ?_, fun d hd hreleased => ?_⟩
      · rw [← show x.entries = [e] from h.entries.trans hentries]
        exact hwaits
      · rw [List.mem_singleton.1 hd, hwaiting] at hreleased
        cases hreleased
    · exact hleaves _ hreached fun x h => State.release_chopped (hat x h) hchopped
    · exact hleaves _ hreached fun x h => State.release_noStriker (hat x h) hunchopped (mt (hable x h).1 hnone)
    · exact hleaves _ hreached fun x h => State.release_offStage (hat x h) hunchopped ((hable x h).2 hyes)
        (by rw [h.stage]; exact hstage)
    · refine hleaves _ hreached fun x h => State.release_late (hat x h) hunchopped ((hable x h).2 hyes)
        (by rw [h.stage]; exact hstage) ?_
      obtain ⟨hbest, hslip, hnow⟩ := hideal x h
      unfold State.Late
      rw [hbest, hslip, hnow]
      exact hlate
    · refine hgives [released best.toNat (best + slip s e).toNat false e] (fun q => (s.port q).records) _ (fun kind x h => ?_)
        fun y hy _ => hy
      obtain ⟨hbest, hslip, hnow⟩ := hideal x h
      have hxentries : x.entries = [e] := h.entries.trans hentries
      have hlate : ¬ x.Late e := by
        unfold State.Late
        rw [hbest, hnow]
        omega
      have halone : ∀ d, ¬ x.Partner e d := by
        rintro d ⟨hd, hne, -⟩
        rw [hxentries, List.mem_singleton] at hd
        exact hne (by rw [hd])
      obtain ⟨r, hr⟩ := State.Able.rail ((hable x h).2 hyes)
      have hmax : (max (x.ideal e) x.now).toNat = best.toNat := by
        rw [hbest, hnow]
        omega
      have hnotYet : decide (best.toNat ≤ x.now) = false := decide_eq_false (by rw [hnow]; omega)
      rw [State.calendarTick_releases kind hxentries ((hreleasable x h).2 hreached),
        State.release_inTime (hat x h) hunchopped ((hable x h).2 hyes) (by rw [h.stage]; exact hstage) hlate,
        State.releaseTimed_joins (fun _ => halone), State.join_state (hat x h) hr, hmax, hbest, hslip]
      refine State.AtRest.settleAtJoin ⟨?_, h.records, h.idle, fun d hd => ?_, fun d hd _ => ?_⟩
      · rw [hxentries]
        show [if e.slot = e.slot then e.joined x.now best.toNat (best + slip s e).toNat else e] = _
        rw [if_pos rfl, Entry.joined, hnotYet]
      · rw [List.mem_singleton.1 hd]
        rfl
      · rw [List.mem_singleton.1 hd]
        refine Bool.eq_false_iff.2 fun g => ?_
        obtain ⟨⟨target, htarget, hle⟩, -⟩ := Entry.eligible_iff.1 g
        have hle : target ≤ x.now := hle
        cases htarget
        rw [hnow] at hle
        omega

end Sys2Proof.Machine
end

section
/-! SUPPORT. Results in bytes (R195), PEEK (R113), and the status requests (R192 to R194), which read and change nothing. -/
namespace Sys2Proof.Machine

/-! ## Results in bytes (R195) -/

/-- Byte `k` of a figure. -/
def digit (n k : Nat) : Byte := BitVec.ofNat 8 (n / 256 ^ k)

theorem extractLsb'_digit {m : Nat} (n k : Nat) (hk : 8 * k + 8 ≤ m) : (BitVec.ofNat m n).extractLsb' (8 * k) 8 = digit n k := by
  have hpow : 256 ^ k = 2 ^ (8 * k) := by
    rw [Nat.pow_mul]
  refine BitVec.eq_of_getLsbD_eq fun i hi => ?_
  rw [BitVec.getLsbD_extractLsb', digit, BitVec.getLsbD_ofNat, BitVec.getLsbD_ofNat, hpow, Nat.testBit_div_two_pow,
    Nat.add_comm i]
  have hin : 8 * k + i < m := by omega
  simp [hi, hin]

theorem b1_eq (n : Nat) : b1 n = [digit n 0] := by
  rw [digit, Nat.pow_zero, Nat.div_one]
  rfl

theorem b2_eq (n : Nat) : b2 n = [digit n 0, digit n 1] := by
  rw [← extractLsb'_digit (m := 16) n 0 (by decide), ← extractLsb'_digit (m := 16) n 1 (by decide)]
  rfl

theorem b4_eq (n : Nat) : b4 n = [digit n 0, digit n 1, digit n 2, digit n 3] := by
  rw [← extractLsb'_digit (m := 32) n 0 (by decide), ← extractLsb'_digit (m := 32) n 1 (by decide),
    ← extractLsb'_digit (m := 32) n 2 (by decide), ← extractLsb'_digit (m := 32) n 3 (by decide)]
  rfl

theorem bSigned_eq {i : Int} (hlow : -2147483648 ≤ i) (hhigh : i ≤ 2147483647) :
    bSigned i = b4 (if i < 0 then i + 4294967296 else i).toNat := by
  have hword : BitVec.ofInt 32 i = BitVec.ofNat 32 (if i < 0 then i + 4294967296 else i).toNat := by
    refine BitVec.eq_of_toNat_eq ?_
    rw [BitVec.toNat_ofInt, BitVec.toNat_ofNat]
    split <;> omega
  rw [bSigned, hword]
  rfl

theorem EchoFlags.byte_toNat (f : EchoFlags) : f.byte.toNat = (if f.derated then 1 else 0) + (if f.damped then 2 else 0) +
    (if f.silent then 4 else 0) + (if f.noListen then 8 else 0) + (if f.lost then 16 else 0) := by
  obtain ⟨derated, damped, silent, noListen, lost⟩ := f
  revert derated damped silent noListen lost
  decide

/-! ## PEEK (R113) -/

section
variable {s : State} {w : When} {p : PortId} {address : Half} {count : Byte}

theorem peekResult_range (h : count.toNat < 1 ∨ 56 < count.toNat ∨ 32768 < address.toNat + count.toNat) :
    peekResult address count s = refuse .range s := if_pos (by simpa [or_assoc] using h)

theorem peekResult_inside (h : ¬ (count.toNat < 1 ∨ 56 < count.toNat ∨ 32768 < address.toNat + count.toNat)) :
    peekResult address count s = (s, .ok, (List.range count.toNat).map (fun i => memRead s.mem (address.toNat + i))) :=
  (if_neg (by simpa [or_assoc] using h)).trans rfl

/-! ## Status requests (R192) -/

/-- A request that reads is answered with the wall count and its contents, and changes nothing. -/
theorem exec_reads {c : Instr} {kind : Byte} {contents : State → List Byte} {body : State → Result} {read : List Byte}
    (hexec : exec c s = .next (request w p kind body s)) (hready : s.ready p = true)
    (hbody : body (s.taken w p) = statusOk contents (s.taken w p)) (hread : contents (s.taken w p) = read) :
    exec c s = .next (s.answering w p kind .ok (b4 (max s.now w.time % 4294967296) ++ read)) := by
  rw [← hread]
  exact exec_answers (u := s) hexec hready hbody

theorem statusOf_named {n : Nat} (hn : n ≤ 256) (i : Fin n) (contents : Fin n → State → List Byte) :
    statusOf n (BitVec.ofNat 8 i.1) contents s = statusOk (contents i) s := by
  rw [statusOf, fieldId_ofNat hn]

theorem senseStatusResult_named (k : Option PickupId) : senseStatusResult (fieldOf k) s = statusOk (senseContents k) s := by
  rw [senseStatusResult, optionalId_fieldOf (by decide)]

theorem senseStatusResult_beyond {b : Byte} (h : 24 ≤ b.toNat) (hnamed : b ≠ 0xFF#8) :
    senseStatusResult b s = refuse .range s := by
  have hnone : optionalId 24 b = none := by
    simp [optionalId, hnamed, fieldId, numbered, Nat.not_lt.2 h]
  rw [senseStatusResult, hnone]

/-! ## The contents that are not in the claims' own words -/

theorem entryContents_free {k : SlotId} (h : s.entryAt k = none) : entryContents k s = [0#8] := by
  unfold entryContents
  rw [h]
  rfl

theorem entryContents_held {k : SlotId} {e : Entry} (h : s.entryAt k = some e) : entryContents k s = s.entryBytes e := by
  unfold entryContents
  rw [h]

theorem Bank.toList_flatMap {α : Type} {n : Nat} (v : Bank α n) (f : α → List Byte) :
    v.toList.flatMap f = (List.finRange n).flatMap (fun i => f (v.look i)) := by
  have hlist : v.toList = (List.finRange n).map v.look := by
    refine List.ext_getElem (by simp) fun i _ _ => ?_
    simp [Bank.look]
  rw [hlist, List.flatMap_map]

theorem filter_flatMap {α β : Type} (l : List α) (q : α → Bool) (f : α → List β) :
    (l.filter q).flatMap f = l.flatMap (fun x => if q x then f x else []) := by
  induction l with
  | nil => rfl
  | cons x rest ih =>
    rw [List.flatMap_cons, ← ih, List.filter_cons]
    cases q x <;> simp

/-- The part outputs' states that STAGE_STATUS reports, outside RESET (R148, R160). -/
theorem stage_outputs (hpower : s.power.inReset = false) : s.permission = decide (s.stage.stage = .playing) ∧
    s.alert = (decide (s.stage.stage = .guarded) || decide (s.stage.stage = .fault)) := by
  simp [State.permission, State.alert, hpower]

theorem fitted_flatMap (f : Rail → List Byte) : (s.rails.toList.filter (·.fitted)).flatMap f =
    (List.finRange 6).flatMap (fun r => if (s.rail r).fitted then f (s.rail r) else []) := by
  rw [filter_flatMap, Bank.toList_flatMap]
  rfl

theorem Player.bytes_eq (q : Player) (area : Option Area) : q.bytes area =
    b1 q.state.code ++ b1 q.mode.code ++ b1 q.loops ++ b1 q.passes ++ b4 q.start ++ b2 q.horizon ++
      (if q.mode = .stream then o2 (area.map (·.read)) else b2 q.nextAddress) ++
      o4 q.nextDue ++ o2 q.returnPoint ++ b2 q.refused ++ b1 q.endReason.code := by
  unfold Player.bytes
  cases q.mode <;> rfl

theorem members_length (r : RailId) : (s.members r).length =
    s.entries.countP (fun e => e.state = .released && (s.bar e.bar).rail = some r) := List.countP_eq_length_filter.symm

theorem curveContents_eq (c : TableId) : curveContents c s =
    (List.finRange 16).flatMap (fun k => b2 ((s.table c).live.look k)) ++
      (List.finRange 16).flatMap (fun k => b2 ((s.table c).staging.look k)) ++ bBool (s.table c).commitPending ++
      b1 s.shaper.mode.code := by
  show (s.table c).live.toList.flatMap b2 ++ (s.table c).staging.toList.flatMap b2 ++ _ ++ _ = _
  rw [Bank.toList_flatMap, Bank.toList_flatMap]

theorem voiceContents_eq (v : VoiceId) : voiceContents v s = b1 (s.voice v).state.code ++ oId (s.voice v).owner ++
    b1 (s.voice v).priority ++ b1 (s.voice v).low ++ b1 (s.voice v).high ++ b1 (s.voiceCount v) ++
    (s.player v).bytes (s.voice v).area ++ areaBytes (s.voice v).area := rfl

theorem railContents_eq (r : RailId) : railContents r s = bBool (s.rail r).fitted ++ b1 (s.rail r).state.code ++
    o2 (s.rail r).lastSample ++ b1 (s.rail r).recent.length ++ bBool (s.rail r).spacingEnd.isSome ++
    b2 (s.members r).length ++ bBool (s.rail r).fitted ++ b2 (s.rail r).spacing ++ b4 (s.rail r).window ++
    b1 (s.rail r).count ++ b2 (s.rail r).nominal ++ b1 (s.rail r).floor ++ s.remaining (s.rail r).spacingEnd ++
    b1 (s.rail r).lowRun := rfl

theorem stageContents_eq (hpower : s.power.inReset = false) : s.stageContents =
    b1 s.stage.stage.code ++ b1 (targetCode s.stage.target) ++ bBool s.stage.guardClosed ++
      bBool (s.stage.stage = .playing) ++ bBool (decide (s.stage.stage = .guarded) || decide (s.stage.stage = .fault)) ++
      b1 s.stage.cause.code ++ b2 s.stage.settleMs ++ b2 s.stage.timeoutMs ++
      s.remaining (s.stage.chargeDue.or s.stage.dischargeDue) ++
      (List.finRange 6).flatMap (fun r => if (s.rail r).fitted then
        s.since 4294967294 (s.rail r).settleSince ++ bBool (s.rail r).bled else []) := by
  obtain ⟨hpermission, halert⟩ := stage_outputs hpower
  rw [← fitted_flatMap fun d => s.since 4294967294 d.settleSince ++ bBool d.bled, ← hpermission, ← halert]
  rfl

end

/-- Settles O37: PEEK, the contents of every status reply, and the members that no numbering holds. -/
theorem readingChangesNothing : Obligations.ReadingChangesNothing := by
  unfold Obligations.ReadingChangesNothing
  refine ⟨?codes, ?empty, ?peek, ?status⟩
  case codes =>
    refine ⟨fun n => ⟨b1_eq n, b2_eq n, b4_eq n, rfl, rfl, rfl⟩, rfl, rfl, rfl, fun i hlow hhigh => bSigned_eq hlow hhigh,
      rfl, rfl, EchoFlags.byte_toNat, rfl, rfl, rfl, rfl, ?_⟩
    exact ⟨rfl, rfl, rfl, rfl, rfl, rfl, rfl, rfl, rfl, fun _ => rfl, rfl, rfl, fun _ => rfl, fun _ => rfl, rfl, rfl, rfl⟩
  case empty =>
    intro w p s address count hready hcount
    refine exec_refused rfl hready (peekResult_range ?_)
    obtain rfl | h := hcount
    · exact .inl Nat.zero_lt_one
    · exact .inr (.inl h)
  case peek =>
    intro w p s address count hready hlow hhigh
    refine ⟨fun hpast => exec_refused rfl hready (peekResult_range ?_), fun hin =>
      exec_answers (u := s) rfl hready (peekResult_inside ?_)⟩
    · omega
    · omega
  case status =>
    intro w p s hready now reads remaining since signed x g times
    have hpower : s.power.inReset = false := by
      simp only [State.ready, State.held, Bool.and_eq_true, Bool.not_eq_true', Bool.or_eq_false_iff] at hready
      exact hready.1.1.1
    refine ⟨exec_reads rfl hready rfl rfl, exec_reads rfl hready rfl rfl,
      fun k => ⟨fun hfree => exec_reads rfl hready (statusOf_named (by decide) k _) (entryContents_free hfree),
        fun e he => exec_reads (contents := entryContents k) rfl hready (statusOf_named (by decide) k _) ?entry⟩,
      fun v => exec_reads rfl hready (statusOf_named (by decide) v _) ?voice,
      fun b => exec_reads rfl hready (statusOf_named (by decide) b _) rfl,
      fun n => exec_reads rfl hready (statusOf_named (by decide) n _) rfl,
      fun r => exec_reads rfl hready (statusOf_named (by decide) r _) ?rail,
      fun c => exec_reads rfl hready (statusOf_named (by decide) c _) ?curve,
      fun u => exec_reads rfl hready (statusOf_named (by decide) u _) rfl,
      fun k => exec_reads rfl hready (senseStatusResult_named k) ?sense,
      exec_reads rfl hready rfl ?stage, fun b => ?beyond⟩
    case entry =>
      exact (entryContents_held (s := s.taken w p) he).trans rfl
    case voice =>
      rw [voiceContents_eq, Player.bytes_eq]
      rfl
    case rail =>
      rw [railContents_eq, members_length]
      rfl
    case curve =>
      rw [curveContents_eq]
      rfl
    case sense => cases k <;> rfl
    case stage =>
      rw [stageContents_eq (s := s.taken w p) hpower]
      rfl
    case beyond =>
      have beyond_of {n : Nat} (h : n ≤ b.toNat) : beyond n b = true := decide_eq_true h
      exact ⟨fun h => exec_refused rfl hready (statusOf_beyond _ (beyond_of h)),
        fun h => exec_refused rfl hready (statusOf_beyond _ (beyond_of h)),
        fun h => exec_refused rfl hready (statusOf_beyond _ (beyond_of h)),
        fun h => exec_refused rfl hready (statusOf_beyond _ (beyond_of h)),
        fun h => exec_refused rfl hready (statusOf_beyond _ (beyond_of h)),
        fun h => exec_refused rfl hready (statusOf_beyond _ (beyond_of h)),
        fun h hnamed => exec_refused rfl hready (senseStatusResult_beyond h hnamed)⟩

end Sys2Proof.Machine
end

section
/-! SUPPORT. The stage leaving PLAYING (R155): what becomes of each entry, and of the strikers and the dampers. -/
namespace Sys2Proof.Machine

/-! ## One entry's way with the stage -/

/-- What a cut leaves of an entry whose stroke drives or holds (R41): a ROLL leaves whole, a stroke with a window open stays. -/
def State.cutFate (s : State) (e : Entry) : Option Entry :=
  if e.part.isRoll then none else if s.windowFor e.slot then some { e with wasCut := true } else none

/-- What the stage leaving PLAYING leaves of an entry (R155): none where it leaves. -/
def State.fate (s : State) (e : Entry) : Option Entry :=
  match e.state with
  | .waiting => some e
  | .released => none
  | .firing => if (s.strikerOf e.slot).isSome then s.cutFate e else some e

/-- One entry's part of the stage leaving PLAYING; `before` is the state at the report. -/
def State.stopped (before : State) (k : SlotId) (s : State) : State :=
  match before.entryAt k with
  | some e => match e.state with
    | .released => s.leave k .droppedStage
    | .firing => if (before.strikerOf k).isSome then s.cutEntry k else s
    | .waiting => s
  | none => s

theorem State.dropOrCut_cons (before : State) (k : SlotId) (rest : List SlotId) (s : State) :
    State.dropOrCut before (k :: rest) s = State.dropOrCut before rest (before.stopped k s) := rfl

section
variable {before s u : State} {k : SlotId} {e : Entry}

theorem State.stopped_waiting (he : before.entryAt k = some e) (h : e.state = .waiting) : before.stopped k s = s := by
  simp only [State.stopped, he, h]

theorem State.stopped_released (he : before.entryAt k = some e) (h : e.state = .released) :
    before.stopped k s = s.leave k .droppedStage := by
  simp only [State.stopped, he, h]

theorem State.stopped_cut (he : before.entryAt k = some e) (h : e.state = .firing) (hcut : (before.strikerOf k).isSome = true) :
    before.stopped k s = s.cutEntry k := by
  simp only [State.stopped, he, h, hcut, if_true]

theorem State.stopped_uncut (he : before.entryAt k = some e) (h : e.state = .firing) (hcut : (before.strikerOf k).isSome = false) :
    before.stopped k s = s := by
  simp only [State.stopped, he, h, hcut, Bool.false_eq_true, if_false]

theorem State.cutEntry_roll (he : s.entryAt k = some e) (hroll : e.part.isRoll = true) :
    s.cutEntry k = (s.modEntry k (Entry.modRoll (fun r => { r with missed := r.missed + 1 }))).leave k .wasCut := by
  simp only [State.cutEntry, he, hroll, if_true]

theorem State.cutEntry_window (he : s.entryAt k = some e) (hroll : e.part.isRoll = false) (hwindow : s.windowFor k = true) :
    s.cutEntry k = s.modEntry k (fun d => { d with wasCut := true }) := by
  simp only [State.cutEntry, he, hroll, hwindow, Bool.false_eq_true, if_false, if_true]

theorem State.cutEntry_leaves (he : s.entryAt k = some e) (hroll : e.part.isRoll = false) (hwindow : s.windowFor k = false) :
    s.cutEntry k = s.leave k .wasCut := by
  simp only [State.cutEntry, he, hroll, hwindow, Bool.false_eq_true, if_false]

theorem State.cutFate_roll (hroll : e.part.isRoll = true) : s.cutFate e = none := if_pos hroll

theorem State.cutFate_window (hroll : e.part.isRoll = false) (hwindow : s.windowFor e.slot = true) :
    s.cutFate e = some { e with wasCut := true } := by
  simp only [State.cutFate, hroll, hwindow, Bool.false_eq_true, if_false, if_true]

theorem State.cutFate_leaves (hroll : e.part.isRoll = false) (hwindow : s.windowFor e.slot = false) : s.cutFate e = none := by
  simp only [State.cutFate, hroll, hwindow, Bool.false_eq_true, if_false]

theorem State.fate_slot {d : Entry} (h : s.fate e = some d) : d.slot = e.slot := by
  unfold State.fate State.cutFate at h
  split at h
  · cases h
    rfl
  · cases h
  · split at h
    · split at h
      · cases h
      · split at h
        · cases h
          rfl
        · cases h
    · cases h
      rfl

/-! ## The entries -/

/-- A change to what is left of the entry in one slot. -/
def fateAt (k : SlotId) (o : Option Entry) (d : Entry) : Option Entry := if d.slot = k then o else some d

theorem filterMap_fateAt_none (l : List Entry) : l.filterMap (fateAt k none) = l.filter (fun d => d.slot ≠ k) := by
  rw [← List.filterMap_eq_filter]
  refine List.filterMap_congr fun d _ => ?_
  by_cases h : d.slot = k <;> simp [fateAt, h, Option.guard]

theorem State.leave_fateAt (he : s.entryAt k = some e) (o : EntryOutcome) :
    (s.leave k o).entries = s.entries.filterMap (fateAt k none) := by
  rw [State.leave_some he, filterMap_fateAt_none]

theorem State.modEntry_fateAt (hslots : (s.entries.map (·.slot)).Nodup) (he : s.entryAt k = some e) (f : Entry → Entry) :
    (s.modEntry k f).entries = s.entries.filterMap (fateAt k (some (f e))) := by
  rw [State.modEntry, ← List.filterMap_eq_map]
  refine List.filterMap_congr fun d hd => ?_
  by_cases h : d.slot = k
  · rw [State.eq_of_slot hslots he hd h]
    simp [fateAt, State.entryAt_slot he]
  · simp [fateAt, h]

theorem State.stay_fateAt (hslots : (s.entries.map (·.slot)).Nodup) (he : s.entryAt k = some e) :
    s.entries = s.entries.filterMap (fateAt k (some e)) := by
  refine (List.filterMap_some.symm).trans (List.filterMap_congr fun d hd => ?_)
  by_cases h : d.slot = k
  · rw [State.eq_of_slot hslots he hd h]
    simp [fateAt, State.entryAt_slot he]
  · simp [fateAt, h]

theorem Entry.modRoll_slot (f : RollPart → RollPart) (d : Entry) : (d.modRoll f).slot = d.slot := by
  unfold Entry.modRoll
  split <;> rfl

variable (hslots : (s.entries.map (·.slot)).Nodup) (he : s.entryAt k = some e) (hwindow : s.windowFor k = before.windowFor k)
include hslots he hwindow

theorem State.cutEntry_entries : (s.cutEntry k).entries = s.entries.filterMap (fateAt k (before.cutFate e)) := by
  have hslot : before.windowFor e.slot = s.windowFor k := by rw [State.entryAt_slot he, hwindow]
  cases hroll : e.part.isRoll with
  | true =>
    have hmod := State.entryAt_modEntry (f := Entry.modRoll (fun r => { r with missed := r.missed + 1 }))
      (fun d hd => (Entry.modRoll_slot _ d).trans hd) he
    rw [State.cutEntry_roll he hroll, State.leave_fateAt hmod, State.cutFate_roll hroll, filterMap_fateAt_none,
      filterMap_fateAt_none]
    exact State.filter_modEntry fun d hd => (Entry.modRoll_slot _ d).trans hd
  | false =>
    cases hopen : s.windowFor k with
    | true => rw [State.cutEntry_window he hroll hopen, State.modEntry_fateAt hslots he, State.cutFate_window hroll (hslot.trans hopen)]
    | false => rw [State.cutEntry_leaves he hroll hopen, State.leave_fateAt he, State.cutFate_leaves hroll (hslot.trans hopen)]

theorem State.stopped_entries (hbefore : before.entryAt k = some e) :
    (before.stopped k s).entries = s.entries.filterMap (fateAt k (before.fate e)) := by
  have hslot := State.entryAt_slot he
  cases hstate : e.state with
  | waiting =>
    rw [State.stopped_waiting hbefore hstate, State.fate, hstate]
    exact State.stay_fateAt hslots he
  | released =>
    rw [State.stopped_released hbefore hstate, State.fate, hstate]
    exact State.leave_fateAt he _
  | firing =>
    rw [State.fate, hstate, hslot]
    cases hcut : (before.strikerOf k).isSome with
    | true =>
      rw [State.stopped_cut hbefore hstate hcut]
      exact State.cutEntry_entries hslots he hwindow
    | false =>
      rw [State.stopped_uncut hbefore hstate hcut]
      exact State.stay_fateAt hslots he

end

section
variable {before s : State}

theorem slots_sublist {f : Entry → Option Entry} (hf : ∀ d x, f d = some x → x.slot = d.slot) (l : List Entry) :
    ((l.filterMap f).map (·.slot)).Sublist (l.map (·.slot)) := by
  induction l with
  | nil => exact List.nil_sublist _
  | cons d rest ih =>
    rw [List.filterMap_cons]
    split
    · exact ih.cons _
    · next x hx =>
      rw [List.map_cons, List.map_cons, hf d x hx]
      exact ih.cons_cons _

theorem find_fateAt {k j : SlotId} {o : Option Entry} (ho : ∀ x, o = some x → x.slot = k) (hj : j ≠ k) (l : List Entry) :
    (l.filterMap (fateAt k o)).find? (fun d => d.slot = j) = l.find? (fun d => d.slot = j) := by
  induction l with
  | nil => rfl
  | cons d rest ih =>
    by_cases hd : d.slot = k
    · have hne : ¬ d.slot = j := fun h => hj (h.symm.trans hd)
      rw [List.find?_cons_of_neg (by simpa using hne), ← ih, List.filterMap_cons, fateAt, if_pos hd]
      cases o with
      | none => rfl
      | some x => exact List.find?_cons_of_neg (by simpa [ho x rfl] using hj.symm)
    · rw [List.filterMap_cons, fateAt, if_neg hd]
      show List.find? _ (d :: _) = _
      rw [List.find?_cons, List.find?_cons, ih]

/-- The entries that the stage's leaving PLAYING has gone through. -/
def State.fates (before : State) (l : List SlotId) (d : Entry) : Option Entry := if d.slot ∈ l then before.fate d else some d

theorem State.fateAt_fates {k : SlotId} {e : Entry} {rest : List SlotId} (hslot : e.slot = k) (hk : k ∉ rest) :
    (fateAt k (before.fate e) e).bind (before.fates rest) = before.fates (k :: rest) e := by
  rw [fateAt, if_pos hslot, State.fates, hslot, if_pos List.mem_cons_self]
  cases hfate : before.fate e with
  | none => rfl
  | some x =>
    have hx : x.slot ∉ rest := by rwa [State.fate_slot hfate, hslot]
    exact if_neg hx

theorem State.dropOrCut_entries {l : List SlotId} (hl : l.Nodup) (hslots : (s.entries.map (·.slot)).Nodup)
    (hentries : ∀ k ∈ l, s.entryAt k = before.entryAt k) (hsense : s.sense = before.sense) :
    (State.dropOrCut before l s).entries = s.entries.filterMap (before.fates l) := by
  induction l generalizing s with
  | nil =>
    refine (List.filterMap_some.symm).trans (List.filterMap_congr fun d _ => ?_)
    exact (if_neg List.not_mem_nil).symm
  | cons k rest ih =>
    obtain ⟨hk, hrest⟩ := List.nodup_cons.1 hl
    rw [State.dropOrCut_cons]
    cases hbefore : before.entryAt k with
    | none =>
      have hstop : before.stopped k s = s := by simp only [State.stopped, hbefore]
      rw [hstop, ih hrest hslots (fun j hj => hentries j (List.mem_cons_of_mem _ hj)) hsense]
      refine List.filterMap_congr fun d hd => ?_
      have hne : d.slot ≠ k := fun h => by
        have hat := State.entryAt_of_mem hslots hd
        rw [h, hentries k List.mem_cons_self, hbefore] at hat
        cases hat
      simp [State.fates, hne]
    | some e =>
      have he : s.entryAt k = some e := (hentries k List.mem_cons_self).trans hbefore
      have hslot := State.entryAt_slot he
      have hwindow : s.windowFor k = before.windowFor k := by rw [State.windowFor, State.windowFor, hsense]
      have hstop := State.stopped_entries hslots he hwindow hbefore
      have hfate : ∀ x, before.fate e = some x → x.slot = k := fun x hx => (State.fate_slot hx).trans hslot
      rw [ih hrest, hstop, List.filterMap_filterMap]
      · refine List.filterMap_congr fun d hd => ?_
        by_cases hdk : d.slot = k
        · rw [State.eq_of_slot hslots he hd hdk]
          exact State.fateAt_fates hslot hk
        · simp [fateAt, State.fates, hdk]
      · rw [hstop]
        refine (slots_sublist (fun d x hx => ?_) _).nodup hslots
        unfold fateAt at hx
        split at hx
        · next hd => exact (hfate x hx).trans hd.symm
        · cases hx
          rfl
      · intro j hj
        have hjk : j ≠ k := fun h => hk (h ▸ hj)
        rw [← hentries j (List.mem_cons_of_mem _ hj), State.entryAt, hstop]
        exact find_fateAt hfate hjk _
      · exact (State.dropOrCut_calendarKept s before [k]).sense.trans hsense

end

/-! ## The whole of it -/

/-- Two states alike in what the stage's leaving PLAYING concerns and in what it must leave. -/
structure State.SameParts (s x : State) : Prop where
  entries : x.entries = s.entries
  strikers : x.strikers = s.strikers
  dampers : x.dampers = s.dampers
  windows : x.sense.windows = s.sense.windows
  closing : x.sense.closing = s.sense.closing
  records : ∀ q, (x.port q).records = (s.port q).records
  mem : x.mem = s.mem
  timeline : x.timeline = s.timeline
  voices : x.voices = s.voices
  bars : x.bars = s.bars
  shaper : x.shaper = s.shaper

/-- What the stage's leaving PLAYING at `now` makes of a state, but for the stage and the rails. -/
structure State.Departed (s : State) (now : Nat) (t : State) : Prop where
  clock : t.now = now
  entries : t.entries = s.entries.filterMap s.fate
  records : ∀ e, s.entries = [e] → ∀ q, (t.port q).records = ((s.stopped e.slot s).port q).records
  strikers : ∀ n, t.striker n = (s.striker n).cut now
  dampers : ∀ u, t.damper u = (s.damper u).springReturn now
  mem : t.mem = s.mem
  timeline : t.timeline = s.timeline
  voices : t.voices = s.voices
  bars : t.bars = s.bars
  shaper : t.shaper = s.shaper

section
variable {s x t : State}

theorem State.SameParts.windowFor (h : s.SameParts x) (k : SlotId) : x.windowFor k = s.windowFor k := by
  rw [State.windowFor, State.windowFor, h.windows, h.closing]

theorem State.SameParts.entryAt (h : s.SameParts x) (k : SlotId) : x.entryAt k = s.entryAt k := by
  rw [State.entryAt, State.entryAt, h.entries]

theorem State.SameParts.strikerOf (h : s.SameParts x) (k : SlotId) : x.strikerOf k = s.strikerOf k := by
  unfold State.strikerOf State.striker
  rw [h.strikers]

theorem State.SameParts.fate (h : s.SameParts x) : x.fate = s.fate := by
  funext e
  unfold State.fate State.cutFate
  simp only [h.strikerOf, h.windowFor]

theorem State.SameParts.stopped (h : s.SameParts x) (k : SlotId) : x.stopped k = s.stopped k := by
  funext u
  unfold State.stopped
  simp only [h.entryAt, h.strikerOf]

/-- Every drive and hold cut. -/
def State.cutAll (s : State) : State := { s with strikers := s.strikers.mapWith (fun _ k => k.cut s.now) }

/-- The records of one entry's way do not depend on the part's other blocks. -/
theorem State.stopped_records {k : SlotId} {u : State} (hentries : u.entries = s.entries) (hwindow : u.windowFor k = s.windowFor k)
    (h : ∀ q, (u.port q).records = (s.port q).records) (q : PortId) :
    ((s.stopped k u).port q).records = ((s.stopped k s).port q).records := by
  have hat : u.entryAt k = s.entryAt k := by rw [State.entryAt, State.entryAt, hentries]
  cases he : s.entryAt k with
  | none => simpa only [State.stopped, he] using h q
  | some e =>
    have hu := hat.trans he
    cases hstate : e.state with
    | waiting =>
      rw [State.stopped_waiting he hstate, State.stopped_waiting he hstate]
      exact h q
    | released =>
      rw [State.stopped_released he hstate, State.stopped_released he hstate]
      exact State.leave_records _ he hu h q
    | firing =>
      cases hcut : (s.strikerOf k).isSome with
      | false =>
        rw [State.stopped_uncut he hstate hcut, State.stopped_uncut he hstate hcut]
        exact h q
      | true =>
        rw [State.stopped_cut he hstate hcut, State.stopped_cut he hstate hcut]
        cases hroll : e.part.isRoll with
        | true =>
          have hslot (d : Entry) (hd : d.slot = k) : (d.modRoll (fun r => { r with missed := r.missed + 1 })).slot = k :=
            (Entry.modRoll_slot _ d).trans hd
          rw [State.cutEntry_roll he hroll, State.cutEntry_roll hu hroll]
          exact State.leave_records _ (State.entryAt_modEntry hslot he) (State.entryAt_modEntry hslot hu) h q
        | false =>
          cases hopen : s.windowFor k with
          | true =>
            rw [State.cutEntry_window he hroll hopen, State.cutEntry_window hu hroll (hwindow.trans hopen)]
            exact h q
          | false =>
            rw [State.cutEntry_leaves he hroll hopen, State.cutEntry_leaves hu hroll (hwindow.trans hopen)]
            exact State.leave_records _ he hu h q

theorem State.leave_dampers (u : State) (k : SlotId) (o : EntryOutcome) : (u.leave k o).dampers = u.dampers := by
  rw [State.leave_frame]

theorem State.cutEntry_dampers (u : State) (k : SlotId) : (u.cutEntry k).dampers = u.dampers := by
  unfold State.cutEntry
  repeat' split
  · rfl
  · exact State.leave_dampers _ _ _
  · rfl
  · exact State.leave_dampers _ _ _

theorem State.dropOrCut_dampers (before u : State) (l : List SlotId) : (State.dropOrCut before l u).dampers = u.dampers := by
  induction l generalizing u with
  | nil => rfl
  | cons k rest ih =>
    refine (ih _).trans ?_
    repeat' split
    · exact u.leave_dampers _ _
    · exact u.cutEntry_dampers _
    · rfl
    · rfl
    · rfl

theorem State.leavePlaying_departed (hslots : (s.entries.map (·.slot)).Nodup) (h : s.SameParts x) :
    s.Departed x.now x.leavePlaying := by
  have hkept := x.leavePlaying_kept
  have hcalendar := State.dropOrCut_calendarKept x.cutAll x (x.entries.map (·.slot))
  refine ⟨hkept.now, ?_, fun e he q => ?_, fun n => ?_, fun u => ?_, hkept.mem.trans h.mem, hkept.timeline.trans h.timeline,
    hcalendar.voices.trans h.voices, hkept.bars.trans h.bars, hkept.shaper.trans h.shaper⟩
  · show (State.dropOrCut x (x.entries.map (·.slot)) x.cutAll).entries = _
    rw [← h.entries] at hslots
    rw [State.dropOrCut_entries (before := x) (s := x.cutAll) hslots hslots (fun _ _ => rfl) rfl, ← h.fate, ← h.entries]
    exact List.filterMap_congr fun d hd => if_pos (List.mem_map_of_mem hd)
  · show ((State.dropOrCut x (x.entries.map (·.slot)) x.cutAll).port q).records = _
    rw [h.entries, he]
    show ((x.stopped e.slot x.cutAll).port q).records = _
    rw [h.stopped]
    exact State.stopped_records (u := x.cutAll) h.entries (h.windowFor _) h.records q
  · refine (hcalendar.striker n).trans ((Bank.look_mapWith ..).trans ?_)
    rw [h.strikers]
    rfl
  · refine (Bank.look_mapWith ..).trans ?_
    rw [State.dropOrCut_dampers]
    exact congrArg (fun v : Bank Damper 4 => (v.look u).springReturn x.now) h.dampers

theorem State.Departed.after {now : Nat} (h : s.Departed now x) (hsame : x.SameParts t) (hnow : t.now = x.now) :
    s.Departed now t where
  clock := hnow.trans h.clock
  entries := hsame.entries.trans h.entries
  records e he q := (hsame.records q).trans (h.records e he q)
  strikers n := (congrArg (·.look n) hsame.strikers).trans (h.strikers n)
  dampers u := (congrArg (·.look u) hsame.dampers).trans (h.dampers u)
  mem := hsame.mem.trans h.mem
  timeline := hsame.timeline.trans h.timeline
  voices := hsame.voices.trans h.voices
  bars := hsame.bars.trans h.bars
  shaper := hsame.shaper.trans h.shaper

/-! ## What the claims ask of it -/

theorem State.fate_state {e d : Entry} (h : s.fate e = some d) : d.state ≠ .released := by
  unfold State.fate State.cutFate at h
  split at h
  · next hstate =>
    cases h
    rw [hstate]
    nofun
  · cases h
  · next hstate =>
    split at h
    · split at h
      · cases h
      · split at h
        · cases h
          exact fun hx => absurd (hstate.symm.trans hx) nofun
        · cases h
    · cases h
      rw [hstate]
      nofun

theorem Striker.cut_eq (now : Nat) (k : Striker) : k.cut now = if k.state = .drive ∨ k.state = .hold then
    { k with state := .recover, driveEnd := none, holdEnd := none, recoveryEnd := some (now + k.recovery), playing := none }
    else k := by
  unfold Striker.cut
  exact if_congr (by simp) rfl rfl

theorem Damper.springReturn_eq (now : Nat) (d : Damper) : d.springReturn now =
    if d.state = .lifting ∨ d.state = .opened then
      { d with
        holds := [], state := .clamping, clampEnd := some (now + d.clamp), liftEnd := none, openSince := none
        minPassed := false }
    else { d with holds := [] } := by
  unfold Damper.springReturn
  exact if_congr (by simp) rfl rfl

theorem State.fate_waiting {e : Entry} (h : e.state = .waiting) : s.fate e = some e := by
  simp only [State.fate, h]

theorem State.fate_released {e : Entry} (h : e.state = .released) : s.fate e = none := by
  simp only [State.fate, h]

theorem State.fate_firing {e : Entry} (h : e.state = .firing) :
    s.fate e = if (s.strikerOf e.slot).isSome then s.cutFate e else some e := by
  simp only [State.fate, h]

theorem State.strikerOf_isSome {k : SlotId} : (s.strikerOf k).isSome = true ↔
    ∃ n, (s.striker n).playing = some k ∧ ((s.striker n).state = .drive ∨ (s.striker n).state = .hold) := by
  rw [State.strikerOf, List.find?_isSome]
  simp

theorem Port.raise_announced (q : Port) : (q.raise .stageChange).pendingNotices &&& 4#8 ≠ 0#8 := by
  intro h
  have hbit := congrArg (·.getLsbD 2) h
  simp [Port.raise, Notice.mask] at hbit

/-! ### Changes that leave the parts alike -/

theorem State.SameParts.trans {u : State} (h : s.SameParts x) (g : x.SameParts u) : s.SameParts u :=
  ⟨g.entries.trans h.entries, g.strikers.trans h.strikers, g.dampers.trans h.dampers, g.windows.trans h.windows,
    g.closing.trans h.closing, fun q => (g.records q).trans (h.records q), g.mem.trans h.mem, g.timeline.trans h.timeline,
    g.voices.trans h.voices, g.bars.trans h.bars, g.shaper.trans h.shaper⟩

theorem State.modPort_sameParts (p : PortId) {f : Port → Port} (hf : ∀ q, (f q).records = q.records) :
    s.SameParts (s.modPort p f) := by
  refine ⟨rfl, rfl, rfl, rfl, rfl, fun q => ?_, rfl, rfl, rfl, rfl, rfl⟩
  rw [State.modPort_port]
  split
  · next h => exact (hf _).trans (by rw [h])
  · rfl

theorem State.raiseAll_sameParts (n : Notice) : s.SameParts (s.raiseAll n) :=
  ⟨rfl, rfl, rfl, rfl, rfl, fun q => by rw [State.raiseAll_port]; rfl, rfl, rfl, rfl, rfl, rfl⟩

theorem State.modStage_sameParts (f : StageControl → StageControl) : s.SameParts (s.modStage f) :=
  ⟨rfl, rfl, rfl, rfl, rfl, fun _ => rfl, rfl, rfl, rfl, rfl, rfl⟩

theorem State.fittedRails_sameParts (f : Rail → Rail) : s.SameParts (s.fittedRails f) :=
  ⟨rfl, rfl, rfl, rfl, rfl, fun _ => rfl, rfl, rfl, rfl, rfl, rfl⟩

theorem State.enterStage_sameParts (g : Stage) : s.SameParts (s.enterStage g) :=
  (State.modStage_sameParts _).trans (State.raiseAll_sameParts _)

theorem State.taken_sameParts (w : When) (p : PortId) : s.SameParts (s.taken w p) :=
  State.SameParts.trans (x := s.reach w.time) ⟨rfl, rfl, rfl, rfl, rfl, fun _ => rfl, rfl, rfl, rfl, rfl, rfl⟩
    (State.modPort_sameParts p fun _ => rfl)

theorem State.answered_sameParts (p : PortId) (kind : Byte) (st : Status) (results : List Byte) :
    s.SameParts (s.modPort p (Port.answer kind st results)) := State.modPort_sameParts p fun _ => rfl

theorem State.delivered_sameParts (t : Nat) (r : RailId) (f : Rail → Rail) : s.SameParts ((s.railDelivered t).modRail r f) :=
  ⟨rfl, rfl, rfl, rfl, rfl, fun _ => rfl, rfl, rfl, rfl, rfl, rfl⟩

theorem State.answered_pending (p q : PortId) (kind : Byte) (st : Status) (results : List Byte) :
    ((s.modPort p (Port.answer kind st results)).port q).pendingNotices = (s.port q).pendingNotices := by
  rw [State.modPort_port]
  split
  · next h => rw [h]; rfl
  · rfl

theorem State.enterStage_announced (g : Stage) (q : PortId) : ((s.enterStage g).port q).pendingNotices &&& 4#8 ≠ 0#8 := by
  rw [State.enterStage, State.raiseAll_port]
  exact Port.raise_announced _

/-! ### The ways out of PLAYING -/

theorem State.leavePlaying_rails : s.leavePlaying.rails = s.rails := (State.dropOrCut_calendarKept s.cutAll s _).rails

section
variable (h : s.stage.stage = .playing)
include h

theorem State.stageRest_playing : s.stageRest = s.leavePlaying.enterStage .standby := by
  rw [State.stageRest, h]

theorem State.stageDown_playing : s.stageDown =
    (s.leavePlaying.fittedRails (fun r => { r with state := .off, settleSince := none, bled := false })).modStage (fun c => { c with
      stage := .discharging, target := none, chargeDue := none, dischargeDue := some (s.leavePlaying.now + 5000000) }) := by
  rw [State.stageDown, h]
  show s.startDischarge = _
  rw [State.startDischarge, if_pos h]

theorem State.guardMoved_playing : s.guardMoved false =
    (s.modStage (fun c => { c with guardClosed := false })).leavePlaying.enterStage .guarded := by
  unfold State.guardMoved
  simp only [State.modStage, h]

theorem State.enterFault_playing (cause : FaultCause) : s.enterFault cause =
    ((s.leavePlaying.fittedRails (fun r => { r with state := if r.state = .fault then .fault else .off })).modStage
      (fun c => { c with target := none, chargeDue := none, cause := cause })).enterStage .fault := by
  rw [State.enterFault_eq, State.faulted, State.left, if_pos h]

theorem State.enterFault_sameParts (cause : FaultCause) : s.leavePlaying.SameParts (s.enterFault cause) := by
  rw [State.enterFault_playing h]
  exact (State.fittedRails_sameParts _).trans ((State.modStage_sameParts _).trans (State.enterStage_sameParts _))

theorem State.enterFault_now (cause : FaultCause) : (s.enterFault cause).now = s.leavePlaying.now := by
  rw [State.enterFault_playing h]
  rfl

theorem State.enterFault_power (cause : FaultCause) : (s.enterFault cause).power = s.power := by
  rw [State.enterFault_playing h]
  exact s.leavePlaying_kept.power

theorem State.enterFault_stage (cause : FaultCause) : (s.enterFault cause).stage =
    { s.stage with stage := .fault, target := none, chargeDue := none, cause := cause } := by
  rw [State.enterFault_playing h]
  exact congrArg (fun g : StageControl => { g with stage := .fault, target := none, chargeDue := none, cause := cause })
    s.leavePlaying_kept.stage

theorem State.enterFault_rail (cause : FaultCause) (q : RailId) : (s.enterFault cause).rail q = if (s.rail q).fitted then
    { s.rail q with state := if (s.rail q).state = .fault then .fault else .off } else s.rail q := by
  rw [State.enterFault_playing h]
  refine (State.fittedRails_rail _ _ _).trans ?_
  rw [State.rail, State.leavePlaying_rails]
  rfl

theorem State.enterFault_alert (hreset : s.power.inReset = false) (cause : FaultCause) : (s.enterFault cause).alert = true :=
  (State.alert_iff ((congrArg Power.inReset (State.enterFault_power h cause)).trans hreset)).2
    (.inr (congrArg StageControl.stage (State.enterFault_stage h cause)))

end

/-! ### A single entry -/

section
variable {now : Nat} {e : Entry} (h : s.Departed now t) (he : s.entries = [e])
include h he

theorem State.Departed.alone_entries : t.entries = (s.fate e).toList := by
  rw [h.entries, he, List.filterMap_cons]
  cases s.fate e <;> rfl

/-- A single entry that one command takes out as another does. -/
theorem State.Departed.alone_gone {u : State} (hfate : s.fate e = none) (hstop : s.stopped e.slot s = u) :
    t.entries = [] ∧ ∀ q, (t.port q).records = (u.port q).records :=
  ⟨(h.alone_entries he).trans (congrArg Option.toList hfate), hstop ▸ h.records e he⟩

/-- A single entry that stays, changed or not. -/
theorem State.Departed.alone_stays {d : Entry} {u : State} (hfate : s.fate e = some d) (hstop : s.stopped e.slot s = u)
    (hports : u.ports = s.ports) : t.entries = [d] ∧ ∀ q, (t.port q).records = (s.port q).records :=
  ⟨(h.alone_entries he).trans (congrArg Option.toList hfate),
    fun q => (h.records e he q).trans (by rw [hstop, State.port, hports]; rfl)⟩

end

end

/-- Settles O33: each way out of PLAYING is `State.leavePlaying`, then its own stage. -/
theorem leavingPlayingStopsEverything : Obligations.LeavingPlayingStopsEverything := by
  intro w p s hreset hstage hslots soon echoes outcome left announced
  have hleft : ∀ {now : Nat} {g : Stage} {t : State}, s.Departed now t → t.stage.stage = g → g ≠ .playing → left now g t := by
    intro now g t h hg hne
    refine ⟨h.clock, hg, by simp [State.permission, hg, hne], fun e he => ?outcome, fun n => (h.strikers n).trans (Striker.cut_eq _ _),
      fun e hmem => ?gone, fun e hmem hwaits => ?waits, fun u => (h.dampers u).trans (Damper.springReturn_eq _ _), h.mem, h.timeline,
      h.voices, h.bars, h.shaper⟩
    case gone =>
      rw [h.entries] at hmem
      obtain ⟨d, -, hd⟩ := List.mem_filterMap.1 hmem
      exact State.fate_state hd
    case waits =>
      rw [h.entries]
      exact List.mem_filterMap.2 ⟨e, hmem, State.fate_waiting hwaits⟩
    case outcome =>
      have hat : s.entryAt e.slot = some e := State.entryAt_of_mem hslots (he ▸ List.mem_singleton_self e)
      have hechoes {u : State} {l : List Entry} (g : t.entries = l ∧ ∀ q, (t.port q).records = (u.port q).records) :
          t.entries = l ∧ echoes t u := ⟨g.1, fun q => ⟨congrArg Prod.fst (g.2 q), congrArg Prod.snd (g.2 q)⟩⟩
      refine ⟨fun hreleased => ?_, fun n hfiring hdrives hplays => ?_, fun hfiring hnone => ?_⟩
      · exact hechoes (h.alone_gone he (State.fate_released hreleased) (State.stopped_released hat hreleased))
      · have hcut : (s.strikerOf e.slot).isSome = true := State.strikerOf_isSome.2 ⟨n, hplays, hdrives⟩
        have hfate : s.fate e = s.cutFate e := (State.fate_firing hfiring).trans (if_pos hcut)
        have hstop := State.stopped_cut (s := s) hat hfiring hcut
        refine ⟨fun r hr => ?_, fun hroll hshut => ?_, fun hroll hopen => ?_⟩
        · have hroll : e.part.isRoll = true := by rw [hr]; rfl
          refine hechoes (h.alone_gone he (hfate.trans (State.cutFate_roll hroll)) (hstop.trans ((State.cutEntry_roll hat hroll).trans ?_)))
          rw [State.modEntry, he, List.map_singleton, if_pos rfl, Entry.modRoll, hr]
        · exact hechoes (h.alone_gone he (hfate.trans (State.cutFate_leaves hroll hshut))
            (hstop.trans (State.cutEntry_leaves hat hroll hshut)))
        · exact hechoes (h.alone_stays he (hfate.trans (State.cutFate_window hroll hopen))
            (hstop.trans (State.cutEntry_window hat hroll hopen)) rfl)
      · have huncut : (s.strikerOf e.slot).isSome = false := by
          refine Bool.eq_false_iff.2 fun hsome => ?_
          obtain ⟨n, hplays, hdrives⟩ := State.strikerOf_isSome.1 hsome
          exact hnone n hdrives hplays
        exact hechoes (h.alone_stays he ((State.fate_firing hfiring).trans (by rw [huncut]; rfl))
          (State.stopped_uncut hat hfiring huncut) rfl)
  have hout : ∀ {x : State}, s.SameParts x → s.Departed x.now x.leavePlaying := State.leavePlaying_departed hslots
  refine ⟨fun hready => ?_, fun hready => ?_, fun hclosed => ?_,
    fun c r level hconv hinput hwaiting hdecisions hstate hrun hlow => ?_⟩
  · have hexec : exec (.rest w p) s = .next (request w p 0x43#8 restResult s) := rfl
    have hreply := request_reply (w := w) (kind := 0x43#8) (body := restResult) hready
    rw [request_ready hready, restResult, stageResult, State.stageRest_playing (s := s.taken w p) hstage] at hexec hreply
    refine ⟨_, hexec, hleft ((hout (State.taken_sameParts w p)).after
      ((State.enterStage_sameParts _).trans (State.answered_sameParts ..)) rfl) rfl nofun, fun q => ?_,
      State.leavePlaying_rails, ?_⟩
    · rw [State.answered_pending]
      exact State.enterStage_announced _ q
    · have hsame : (s.taken w p).leavePlaying.stage = s.stage := (s.taken w p).leavePlaying_kept.stage
      rw [← hsame]
      exact hreply
  · have hexec : exec (.down w p) s = .next (request w p 0x44#8 downResult s) := rfl
    have hreply := request_reply (w := w) (kind := 0x44#8) (body := downResult) hready
    rw [request_ready hready, downResult, stageResult, State.stageDown_playing (s := s.taken w p) hstage] at hexec hreply
    refine ⟨_, hexec, hleft ((hout (State.taken_sameParts w p)).after
      ((State.fittedRails_sameParts _).trans ((State.modStage_sameParts _).trans (State.answered_sameParts ..))) rfl) rfl nofun,
      hreply, ?_, fun r hr => ?_⟩
    · show some ((s.taken w p).leavePlaying.now + 5000000) = _
      rw [(s.taken w p).leavePlaying_kept.now]
      rfl
    · have hoff : ∀ t : State, t.rails = s.rails → ((t.fittedRails (fun x =>
          { x with state := .off, settleSince := none, bled := false })).rail r) =
            { s.rail r with state := .off, settleSince := none, bled := false } := fun t ht => by
        rw [State.fittedRails_rail, State.rail, ht]
        exact if_pos hr
      have hrail := hoff _ (State.leavePlaying_rails (s := s.taken w p))
      exact ⟨congrArg Rail.state hrail, congrArg Rail.bled hrail⟩
  · have hexec := exec_guardEdge w (closed := false) hreset (by rw [hclosed]; nofun)
    rw [State.guardMoved_playing (s := (s.guardLevel false).reach w.time) hstage] at hexec
    have hparts : s.SameParts (((s.guardLevel false).reach w.time).modStage (fun c => { c with guardClosed := false })) :=
      ⟨rfl, rfl, rfl, rfl, rfl, fun _ => rfl, rfl, rfl, rfl, rfl, rfl⟩
    have hkept := State.leavePlaying_kept (((s.guardLevel false).reach w.time).modStage (fun c => { c with guardClosed := false }))
    refine ⟨_, hexec, hleft ((hout hparts).after (State.enterStage_sameParts _) rfl) rfl nofun, State.enterStage_announced _,
      State.leavePlaying_rails, congrArg StageControl.guardClosed hkept.stage, (State.alert_iff ?_).2 (.inl rfl)⟩
    exact (congrArg Power.inReset hkept.power).trans hreset
  · let x := (s.railDelivered (max c.done w.time)).modRail r (Rail.sampled (level.toNat / 10))
    have hparts : s.SameParts x := State.delivered_sameParts _ _ _
    have hbroken : (s.rail r).sampled (level.toNat / 10) =
        { s.rail r with lastSample := some (level.toNat / 10), state := .fault, lowRun := 0 } :=
      (railSampled_table _ _).2.1 hstate (by rw [if_pos hlow, hrun])
    have hexec := exec_railConversion (w := w) (level := level) hreset hconv hinput hwaiting
    rw [State.railSample_breaks (s := s.railDelivered _) hstate (by exact congrArg Rail.state hbroken) (.inr (.inr hstage)),
      State.settle_of_nil (s := x.enterFault (.railFault r)) (by rwa [State.enterFault_decisions])] at hexec
    have hdeparted := (hout hparts).after (State.enterFault_sameParts (s := x) hstage _)
      (State.enterFault_now (s := x) hstage (.railFault r))
    have hfaulted := State.enterFault_stage (s := x) hstage (.railFault r)
    refine ⟨_, hexec, hleft hdeparted (congrArg StageControl.stage hfaulted) (by decide), State.enterStage_announced _, hfaulted,
      State.enterFault_alert (s := x) hstage hreset _, ?_, fun q hq => ?_⟩
    · rw [State.enterFault_rail (s := x) hstage, show x.rail r = _ from (State.modRail_same _).trans hbroken]
      simp only [if_true, ite_self]
    · rw [State.enterFault_rail (s := x) hstage, show x.rail q = s.rail q from (State.modRail_rail ..).trans (if_neg hq)]

end Sys2Proof.Machine
end

section
/-! SUPPORT. Port resets (R27, R175): voices that close one after another, with their entries, players and holds. -/
namespace Sys2Proof.Machine

/-! ## Entries that leave one after another -/

section
variable {s : State} {o : EntryOutcome}

theorem State.entryAt_leave_ne {j k : SlotId} (hne : j ≠ k) : (s.leave j o).entryAt k = s.entryAt k := by
  rw [State.entryAt, State.leave_entries, List.find?_filter]
  refine congrArg (fun q => s.entries.find? q) (funext fun d => ?_)
  by_cases hd : d.slot = k
  · simp [hd, hne.symm]
  · simp [hd]

theorem State.leave_port {e : Entry} (he : s.entryAt e.slot = some e) (q : PortId) : (s.leave e.slot o).port q =
    ([e].filter (fun e => e.port = q && e.report)).foldl (fun x e => x.offer (e.echo o)) (s.port q) := by
  rw [State.leave_some he, State.port]
  cases hreport : e.report with
  | false => simp [State.port, hreport]
  | true =>
    by_cases hq : e.port = q
    · subst hq
      simp [hreport]
    · simp [State.port, hreport, hq, Bank.look_put_ne _ (Ne.symm hq)]

theorem State.leave_told {e : Entry} (he : s.entryAt e.slot = some e) (v : VoiceId) : (s.leave e.slot o).player v =
    if (s.player v).state = .stalled ∧ s.concerns e v = true then { s.player v with told := true } else s.player v := by
  rw [State.leave_some he, State.player, Bank.look_mapWith]
  exact if_congr (by simp [State.player]) rfl rfl

theorem State.leave_concerns (k : SlotId) (e : Entry) (v : VoiceId) : (s.leave k o).concerns e v = s.concerns e v := by
  rw [State.leave_frame]
  rfl

theorem State.leave_later {e : Entry} {rest : List Entry} (he : e.slot ∉ rest.map (·.slot))
    (hat : ∀ d ∈ e :: rest, s.entryAt d.slot = some d) (d : Entry) (hd : d ∈ rest) :
    (s.leave e.slot o).entryAt d.slot = some d := by
  have hne : e.slot ≠ d.slot := fun h => he (List.mem_map.2 ⟨d, hd, h.symm⟩)
  exact (State.entryAt_leave_ne hne).trans (hat d (List.mem_cons_of_mem _ hd))

variable {es : List Entry} (hes : (es.map (·.slot)).Nodup) (hat : ∀ e ∈ es, s.entryAt e.slot = some e)
include hes hat

theorem State.leaving_port (q : PortId) : (es.foldl (fun t (e : Entry) => t.leave e.slot o) s).port q =
    (es.filter (fun e => e.port = q && e.report)).foldl (fun x e => x.offer (e.echo o)) (s.port q) := by
  induction es generalizing s with
  | nil => rfl
  | cons e rest ih =>
    obtain ⟨he, hrest⟩ := List.nodup_cons.1 hes
    rw [List.foldl_cons, ih hrest (State.leave_later he hat), State.leave_port (hat e List.mem_cons_self), ← List.foldl_append, ← List.filter_append]
    rfl

theorem State.leaving_player (v : VoiceId) : (es.foldl (fun t (e : Entry) => t.leave e.slot o) s).player v =
    if (s.player v).state = .stalled ∧ ∃ e ∈ es, s.concerns e v = true then { s.player v with told := true } else s.player v := by
  induction es generalizing s with
  | nil => exact (if_neg (by simp)).symm
  | cons e rest ih =>
    obtain ⟨he, hrest⟩ := List.nodup_cons.1 hes
    rw [List.foldl_cons, ih hrest (State.leave_later he hat), State.leave_told (hat e List.mem_cons_self)]
    simp only [State.leave_concerns, List.mem_cons, exists_eq_or_imp]
    by_cases hstalled : (s.player v).state = .stalled <;> by_cases hconcerns : s.concerns e v = true <;>
      simp [hstalled, hconcerns]

end

/-! ## Entries of voices that end (R47) -/

/-- An entry that leaves with the voices a test picks: WAITING or RELEASED. -/
def Entry.ended (c : VoiceId → Bool) (e : Entry) : Bool := c e.voice && e.state ≠ .firing

/-- An entry that stays when the voices a test picks end: a FIRING ROLL of theirs receives the flush mark. -/
def Entry.endMarked (c : VoiceId → Bool) (e : Entry) : Entry :=
  if c e.voice && e.state = .firing then e.modRoll (fun r => { r with flushMark := true }) else e

/-- The calendar when the voices a test picks have ended. -/
def calendarAfter (c : VoiceId → Bool) (l : List Entry) : List Entry := (l.filter (fun e => !e.ended c)).map (Entry.endMarked c)

section
variable (c : VoiceId → Bool) (e : Entry)

theorem Entry.modRoll_modRoll (f : RollPart → RollPart) (hf : ∀ r, f (f r) = f r) : (e.modRoll f).modRoll f = e.modRoll f := by
  cases h : e.part <;> simp [Entry.modRoll, h, hf]

theorem Entry.endMarked_eq : e.endMarked c = { e with part := (e.endMarked c).part } := by
  unfold Entry.endMarked
  split
  · exact e.modRoll_eq _
  · rfl

@[simp] theorem Entry.endMarked_voice : (e.endMarked c).voice = e.voice := by rw [Entry.endMarked_eq]
@[simp] theorem Entry.endMarked_state : (e.endMarked c).state = e.state := by rw [Entry.endMarked_eq]
@[simp] theorem Entry.endMarked_port : (e.endMarked c).port = e.port := by rw [Entry.endMarked_eq]
@[simp] theorem Entry.endMarked_slot : (e.endMarked c).slot = e.slot := by rw [Entry.endMarked_eq]

@[simp] theorem Entry.endMarked_report : (e.endMarked c).report = e.report := by rw [Entry.endMarked_eq]

theorem Entry.ended_endMarked (d : VoiceId → Bool) : (e.endMarked c).ended d = e.ended d := by
  simp [Entry.ended]

theorem Entry.endMarked_of_not {e : Entry} (h : c e.voice = false) : e.endMarked c = e := by
  simp [Entry.endMarked, h]

theorem Entry.endMarked_endMarked (d : VoiceId → Bool) : (e.endMarked c).endMarked d = e.endMarked (fun v => c v || d v) := by
  have hmarked : (e.endMarked c).endMarked d = if d e.voice && e.state = .firing then
      (e.endMarked c).modRoll (fun r => { r with flushMark := true }) else e.endMarked c := by
    rw [Entry.endMarked, Entry.endMarked_voice, Entry.endMarked_state]
  have hagain := e.modRoll_modRoll (fun r => { r with flushMark := true }) fun _ => rfl
  rw [hmarked, Entry.endMarked, Entry.endMarked]
  cases c e.voice <;> cases d e.voice <;> cases decide (e.state = .firing) <;> simp [hagain]

theorem Entry.flushMarked_endMarked (v : VoiceId) : e.flushMarked v = e.endMarked (fun u => u = v) := by
  rw [Entry.flushMarked_roll, Entry.endMarked, Entry.modRoll]
  cases e.part <;> simp

theorem calendarAfter_calendarAfter (d : VoiceId → Bool) (l : List Entry) :
    calendarAfter d (calendarAfter c l) = calendarAfter (fun v => c v || d v) l := by
  have hended : (fun e : Entry => !e.ended d) ∘ Entry.endMarked c = fun e => !e.ended d :=
    funext fun e => congrArg (!·) (e.ended_endMarked c d)
  have hmarked : Entry.endMarked d ∘ Entry.endMarked c = Entry.endMarked (fun v => c v || d v) :=
    funext fun e => e.endMarked_endMarked c d
  rw [calendarAfter, calendarAfter, calendarAfter, List.filter_map, hended, List.map_map, hmarked, List.filter_filter]
  refine congrArg _ (List.filter_congr fun e _ => ?_)
  simp only [Entry.ended]
  cases c e.voice <;> cases d e.voice <;> simp

end

/-- A player told where it is STALLED and a condition holds (R121). -/
def Player.tellIf (c : Prop) [Decidable c] (q : Player) : Player :=
  if q.state = .stalled ∧ c then { q with told := true } else q

/-- A halted player (R126). -/
def Player.halted (q : Player) : Player := { q with state := .idle, nextDue := none, told := false }

section
variable {a b : Prop} [Decidable a] [Decidable b] (q : Player)

theorem Player.tellIf_congr (h : a ↔ b) : q.tellIf a = q.tellIf b := if_congr (and_congr_right fun _ => h) rfl rfl

theorem Player.tellIf_of_not (h : ¬ a) : q.tellIf a = q := if_neg fun g => h g.2

theorem Player.halted_tellIf : (q.tellIf a).halted = q.halted := by
  unfold Player.tellIf
  split <;> rfl

theorem Player.tellIf_halted : q.halted.tellIf a = q.halted := if_neg fun h => absurd h.1 nofun

theorem Player.tellIf_tellIf : (q.tellIf a).tellIf b = q.tellIf (a ∨ b) := by
  unfold Player.tellIf
  by_cases hstalled : q.state = .stalled <;> by_cases ha : a <;> simp [hstalled, ha]

end

section
variable {s : State} (v : VoiceId)

theorem State.flushMarks_flushable : (s.flushMarks v).entries.filter (Entry.flushable v) = s.entries.filter (Entry.flushable v) := by
  have hflushable : Entry.flushable v ∘ Entry.flushMarked v = Entry.flushable v := funext fun e => e.flushable_flushMarked v v
  rw [State.flushMarks, List.filter_map, hflushable]
  refine (List.map_congr_left fun e he => ?_).trans (List.map_id _)
  have hwaits : e.state ≠ .firing := (by simpa [Entry.flushable] using (List.mem_filter.1 he).2 : e.voice = v ∧ _).2
  simp [Entry.flushMarked, Entry.markable, hwaits]

variable (hslots : (s.entries.map (·.slot)).Nodup)
include hslots

theorem State.flushVoice_leaving : ((s.entries.filter (Entry.flushable v)).map (·.slot)).Nodup ∧
    ∀ e ∈ s.entries.filter (Entry.flushable v), (s.flushMarks v).entryAt e.slot = some e := by
  have hmarked : ((s.flushMarks v).entries.map (·.slot)).Nodup := by
    have hslot : (fun e : Entry => e.slot) ∘ Entry.flushMarked v = fun e : Entry => e.slot := funext fun e => e.flushMarked_slot v
    simpa only [State.flushMarks, List.map_map, hslot] using hslots
  refine ⟨(List.filter_sublist.map _).nodup hslots, fun e he => ?_⟩
  rw [← State.flushMarks_flushable] at he
  exact State.entryAt_of_mem hmarked (List.mem_filter.1 he).1

theorem State.flushVoice_calendar : (s.flushVoice v).1.entries = calendarAfter (fun u => u = v) s.entries := by
  rw [State.flushVoice_entries _ _ hslots]
  exact List.map_congr_left fun e _ => e.flushMarked_endMarked v

theorem State.flushVoice_port (q : PortId) : (s.flushVoice v).1.port q =
    (s.entries.filter (fun e => e.ended (fun u => u = v) && (e.port = q && e.report))).foldl
      (fun x e => x.offer (e.echo .flushed)) (s.port q) := by
  obtain ⟨hleaving, hat⟩ := State.flushVoice_leaving v hslots
  rw [State.flushVoice_eq, State.afterLeaving, State.flushMarks_flushable, State.leaving_port hleaving hat, List.filter_filter]
  exact congrArg (fun l => List.foldl _ _ l) (List.filter_congr fun e _ => Bool.and_comm ..)

theorem State.flushVoice_told (u : VoiceId) : (s.flushVoice v).1.player u =
    (s.player u).tellIf (∃ e ∈ s.entries, e.ended (fun u => u = v) = true ∧ s.concerns e u = true) := by
  obtain ⟨hleaving, hat⟩ := State.flushVoice_leaving v hslots
  rw [State.flushVoice_eq, State.afterLeaving, State.flushMarks_flushable, State.leaving_player hleaving hat]
  refine Player.tellIf_congr _ (exists_congr fun e => ?_)
  rw [List.mem_filter, and_assoc]
  rfl

end

/-! ## Voices that close one after another -/

/-- A closed voice (R26). -/
def Voice.closed (d : Voice) : Voice := { d with state := .closed, owner := none, area := none }

/-- What closing a list of voices makes of the voices, the dampers and all else, but for the calendar, the ports and the players. -/
structure State.Ended (l : List VoiceId) (s t : State) : Prop where
  voice : ∀ v, t.voice v = if v ∈ l then (s.voice v).closed else s.voice v
  damper : ∀ u, t.damper u = (s.damper u).drop s.now (fun h => h.endTick.isNone && decide (h.voice ∈ l))
  frame : t = { s with ports := t.ports, voices := t.voices, entries := t.entries, players := t.players, dampers := t.dampers }

/-- What closing a list of voices makes of the calendar, the ports and the players. -/
structure State.EndedCalendar (l : List VoiceId) (s t : State) : Prop where
  entries : t.entries = calendarAfter (fun v => v ∈ l) s.entries
  player : ∀ v, t.player v = if v ∈ l then (s.player v).halted
    else (s.player v).tellIf (v ≠ chimeVoice ∧ ∃ e ∈ s.entries, e.ended (fun v => v ∈ l) = true ∧ (s.voice v).owner = some e.port)
  port : ∀ q, t.port q = (l.flatMap (fun v => s.entries.filter (fun e =>
    e.ended (fun u => u = v) && (e.port = q && e.report)))).foldl (fun x e => x.offer (e.echo .flushed)) (s.port q)

section
variable (now : Nat) {a b : Hold → Bool} {d : Damper}

theorem Damper.drop_none (h : ∀ x ∈ d.holds, a x = false) : d.drop now a = d :=
  if_neg (by simpa using h)

theorem Damper.drop_some (h : d.holds.any a = true) : d.drop now a = { d with holds := d.holds.filter (fun x => !a x) }.settleOpen now :=
  if_pos h

theorem Damper.settleOpen_held (h : d.holds ≠ []) : d.settleOpen now = d := by
  rw [Damper.settleOpen_eq, if_neg (by simp [h])]

theorem Damper.drop_congr (h : ∀ x ∈ d.holds, a x = b x) : d.drop now a = d.drop now b := by
  have hany : d.holds.any a = d.holds.any b := by
    rw [Bool.eq_iff_iff, List.any_eq_true, List.any_eq_true]
    exact exists_congr fun x => and_congr_right fun hx => by rw [h x hx]
  have hleft : d.holds.filter (fun x => !a x) = d.holds.filter (fun x => !b x) :=
    List.filter_congr fun x hx => congrArg (!·) (h x hx)
  rw [Damper.drop, Damper.drop, hany, hleft]

/-- Holds that leave a unit by two tests one after the other leave it by both at once. -/
theorem Damper.drop_or (a b : Hold → Bool) (d : Damper) : (d.drop now a).drop now b = d.drop now (fun h => a h || b h) := by
  have hboth : (d.holds.filter (fun x => !a x)).filter (fun x => !b x) = d.holds.filter (fun x => !(a x || b x)) := by
    rw [List.filter_filter]
    exact List.filter_congr fun x _ => by rw [Bool.not_or, Bool.and_comm]
  by_cases ha : d.holds.any a = true
  · have hany : d.holds.any (fun h => a h || b h) = true := by
      obtain ⟨x, hx, hax⟩ := List.any_eq_true.1 ha
      exact List.any_eq_true.2 ⟨x, hx, by rw [hax]; rfl⟩
    rw [Damper.drop_some now hany, ← hboth, Damper.drop_some now ha]
    by_cases hempty : d.holds.filter (fun x => !a x) = []
    · rw [Damper.drop_none now, hempty]
      · rfl
      · intro x hx
        rw [Damper.settleOpen_holds, hempty] at hx
        exact absurd hx List.not_mem_nil
    · rw [Damper.settleOpen_held (d := { d with holds := _ }) now hempty]
      by_cases hb : (d.holds.filter (fun x => !a x)).any b = true
      · exact Damper.drop_some (d := { d with holds := _ }) now hb
      · have hkept : (d.holds.filter (fun x => !a x)).filter (fun x => !b x) = d.holds.filter (fun x => !a x) :=
          List.filter_eq_self.2 (by simpa using hb)
        rw [hkept, Damper.settleOpen_held (d := { d with holds := _ }) now hempty]
        exact if_neg hb
  · have hnone : ∀ x ∈ d.holds, a x = false := by simpa using ha
    rw [Damper.drop_none now hnone]
    exact Damper.drop_congr now fun x hx => by rw [hnone x hx]; rfl

end

section
variable {s : State} {l : List VoiceId}

theorem State.closeVoice_voice (v u : VoiceId) : (s.closeVoice v).1.voice u =
    if u = v then (s.voice v).closed else s.voice u := by
  rw [State.closeVoice_eq]
  exact Bank.look_put ..

theorem State.closeVoice_damper (v : VoiceId) (u : UnitId) : (s.closeVoice v).1.damper u =
    (s.damper u).drop s.now (Hold.pedalOf v) := by
  rw [State.closeVoice_eq, Damper.drop_eq_without]
  exact Bank.look_mapWith ..

theorem State.closeVoice_frame (v : VoiceId) : (s.closeVoice v).1 = { s with
    ports := (s.closeVoice v).1.ports, voices := (s.closeVoice v).1.voices, entries := (s.closeVoice v).1.entries
    players := (s.closeVoice v).1.players, dampers := (s.closeVoice v).1.dampers } := by
  rw [State.closeVoice_eq, State.flushVoice_frame]

theorem State.closeVoice_now (v : VoiceId) : (s.closeVoice v).1.now = s.now := by
  rw [State.closeVoice_frame]

theorem State.closeVoices_ended : s.Ended l (State.closeVoices l s) := by
  induction l generalizing s with
  | nil =>
    exact ⟨fun v => rfl, fun u => (Damper.drop_none _ fun h _ => by simp).symm, rfl⟩
  | cons v rest ih =>
    obtain ⟨hvoice, hdamper, hframe⟩ := ih (s := (s.closeVoice v).1)
    refine ⟨fun u => (hvoice u).trans ?_, fun u => (hdamper u).trans ?_, hframe.trans ?_⟩
    · rw [State.closeVoice_voice]
      by_cases huv : u = v
      · subst huv
        rw [if_pos rfl, if_pos List.mem_cons_self]
        exact ite_self _
      · rw [if_neg huv]
        exact if_congr (by simp [huv]) rfl rfl
    · rw [State.closeVoice_damper, State.closeVoice_now, Damper.drop_or]
      refine Damper.drop_congr _ fun h _ => ?_
      rw [Hold.pedalOf, Bool.eq_iff_iff]
      simp only [Bool.or_eq_true, Bool.and_eq_true, decide_eq_true_eq, List.mem_cons]
      tauto
    · have hclosed := s.closeVoice_frame v
      simp only [State.closeVoices]
      generalize State.closeVoices rest (s.closeVoice v).1 = t
      generalize (s.closeVoice v).1 = x at hclosed
      rw [hclosed]

theorem State.closeVoice_entries (v : VoiceId) : (s.closeVoice v).1.entries = (s.flushVoice v).1.entries := by
  rw [State.closeVoice_eq]

theorem State.closeVoice_port (v : VoiceId) (q : PortId) : (s.closeVoice v).1.port q = (s.flushVoice v).1.port q := by
  rw [State.closeVoice_eq]
  rfl

theorem State.closeVoice_player (v u : VoiceId) : (s.closeVoice v).1.player u =
    if u = v then (s.player v).halted else (s.flushVoice v).1.player u := by
  rw [State.closeVoice_eq]
  exact Bank.look_put ..

theorem calendarAfter_slots (c : VoiceId → Bool) {l : List Entry} (h : (l.map (·.slot)).Nodup) :
    ((calendarAfter c l).map (·.slot)).Nodup := by
  have hslot : (fun e : Entry => e.slot) ∘ Entry.endMarked c = fun e : Entry => e.slot := funext fun e => e.endMarked_slot c
  rw [calendarAfter, List.map_map, hslot]
  exact (List.filter_sublist.map _).nodup h

/-- The entries that leave with one voice do not depend on the end of another. -/
theorem calendarAfter_other {u v : VoiceId} (h : u ≠ v) (q : PortId) (l : List Entry) :
    (calendarAfter (fun x => x = v) l).filter (fun e => e.ended (fun x => x = u) && (e.port = q && e.report)) =
      l.filter (fun e => e.ended (fun x => x = u) && (e.port = q && e.report)) := by
  have hpick : (fun e : Entry => e.ended (fun x => x = u) && (decide (e.port = q) && e.report)) ∘ Entry.endMarked (fun x => x = v) =
      fun e => e.ended (fun x => x = u) && (decide (e.port = q) && e.report) := funext fun e => by
    rw [Function.comp_apply, Entry.ended_endMarked, Entry.endMarked_port, Entry.endMarked_report]
  rw [calendarAfter, List.filter_map, hpick, List.filter_filter]
  have hvoice : ∀ e : Entry, e.ended (fun x => x = u) = true → (decide (e.voice = v)) = false := by
    intro e he
    simp only [Entry.ended, Bool.and_eq_true, decide_eq_true_eq] at he
    simp [he.1, h]
  refine ((List.map_congr_left fun e he => ?_).trans (List.map_id _)).trans (List.filter_congr fun e _ => ?_)
  · obtain ⟨-, hmem⟩ := List.mem_filter.1 he
    simp only [Bool.and_eq_true] at hmem
    exact Entry.endMarked_of_not _ (hvoice e hmem.1.1)
  · cases hended : e.ended (fun x => x = u) with
    | false => rfl
    | true =>
      have hnot : e.ended (fun x => x = v) = false := by simp only [Entry.ended, hvoice e hended, Bool.false_and]
      simp [hnot]

theorem exists_calendarAfter {v : VoiceId} {rest : List VoiceId} (hv : v ∉ rest) (p : PortId → Prop) (l : List Entry) :
    (∃ e ∈ calendarAfter (fun x => x = v) l, e.ended (fun x => x ∈ rest) = true ∧ p e.port) ↔
      ∃ e ∈ l, e.ended (fun x => x ∈ rest) = true ∧ p e.port := by
  constructor
  · rintro ⟨e, he, hended, hport⟩
    obtain ⟨d, hd, rfl⟩ := List.mem_map.1 he
    rw [Entry.ended_endMarked] at hended
    rw [Entry.endMarked_port] at hport
    exact ⟨d, (List.mem_filter.1 hd).1, hended, hport⟩
  · rintro ⟨d, hd, hended, hport⟩
    have hvoice : d.voice ≠ v := fun h => by simp [Entry.ended, h, hv] at hended
    refine ⟨d.endMarked _, List.mem_map_of_mem (List.mem_filter.2 ⟨hd, ?_⟩), by rwa [Entry.ended_endMarked], by rwa [Entry.endMarked_port]⟩
    simp [Entry.ended, hvoice]

theorem Entry.ended_cons {v : VoiceId} {rest : List VoiceId} (e : Entry) : e.ended (fun x => x ∈ v :: rest) = true ↔
    e.ended (fun x => x = v) = true ∨ e.ended (fun x => x ∈ rest) = true := by
  simp only [Entry.ended, List.mem_cons, Bool.and_eq_true, decide_eq_true_eq]
  tauto

theorem State.closeVoices_calendar (hl : l.Nodup) (hchime : chimeVoice ∉ l) (hslots : (s.entries.map (·.slot)).Nodup) :
    s.EndedCalendar l (State.closeVoices l s) := by
  induction l generalizing s with
  | nil =>
    refine ⟨?_, fun v => ?_, fun q => rfl⟩
    · rw [calendarAfter, List.filter_eq_self.2 fun e _ => by simp [Entry.ended],
        List.map_congr_left fun e _ => Entry.endMarked_of_not _ (by simp), List.map_id']
      rfl
    · rw [if_neg List.not_mem_nil, Player.tellIf_of_not _ fun h => by simp [Entry.ended] at h]
      rfl
  | cons v rest ih =>
    obtain ⟨hv, hrest⟩ := List.nodup_cons.1 hl
    have hentries : (s.closeVoice v).1.entries = calendarAfter (fun u => u = v) s.entries :=
      (s.closeVoice_entries v).trans (State.flushVoice_calendar v hslots)
    obtain ⟨hentries', hplayer, hport⟩ := ih (s := (s.closeVoice v).1) hrest (fun h => hchime (List.mem_cons_of_mem _ h))
      (hentries ▸ calendarAfter_slots _ hslots)
    refine ⟨?_, fun u => (hplayer u).trans ?_, fun q => (hport q).trans ?_⟩
    · refine hentries'.trans ?_
      rw [hentries, calendarAfter_calendarAfter]
      refine congrArg (fun c => calendarAfter c s.entries) (funext fun u => ?_)
      simp
    · rw [State.closeVoice_player]
      by_cases huv : u = v
      · subst huv
        rw [if_neg hv, if_pos rfl, if_pos List.mem_cons_self, Player.tellIf_halted]
      have hmem : u ∈ v :: rest ↔ u ∈ rest := by simp [huv]
      rw [if_neg huv, State.flushVoice_told v hslots]
      by_cases hu : u ∈ rest
      · rw [if_pos hu, if_pos (hmem.2 hu), Player.halted_tellIf]
      rw [if_neg hu, if_neg fun h => hu (hmem.1 h), Player.tellIf_tellIf]
      refine Player.tellIf_congr _ ?_
      rw [State.closeVoice_voice, if_neg huv, hentries, exists_calendarAfter hv (fun q => (s.voice u).owner = some q)]
      have hconcerns : ∀ e : Entry, e.ended (fun x => x = v) = true → (s.concerns e u = true ↔ u ≠ chimeVoice ∧
          (s.voice u).owner = some e.port) := fun e he => by
        have hvoice : e.voice ≠ chimeVoice := by
          simp only [Entry.ended, Bool.and_eq_true, decide_eq_true_eq] at he
          exact fun h => hchime (by rw [← h, he.1]; exact List.mem_cons_self)
        simp [State.concerns, hvoice]
      constructor
      · rintro (⟨e, he, hended, hc⟩ | ⟨hne, e, he, hended, ho⟩)
        · obtain ⟨hne, ho⟩ := (hconcerns e hended).1 hc
          exact ⟨hne, e, he, e.ended_cons.2 (.inl hended), ho⟩
        · exact ⟨hne, e, he, e.ended_cons.2 (.inr hended), ho⟩
      · rintro ⟨hne, e, he, hended, ho⟩
        obtain h | h := e.ended_cons.1 hended
        · exact .inl ⟨e, he, h, (hconcerns e h).2 ⟨hne, ho⟩⟩
        · exact .inr ⟨hne, e, he, h, ho⟩
    · rw [State.closeVoice_port, State.flushVoice_port v hslots, ← List.foldl_append, List.flatMap_cons, hentries]
      refine congrArg (fun l => List.foldl _ _ (_ ++ l)) (List.flatMap_congr fun u hu => ?_)
      exact calendarAfter_other (fun h : u = v => hv (h ▸ hu)) q _

end

end Sys2Proof.Machine
end

section
/-! SUPPORT. The whole of a port reset (R27, R175): the port's voices, the chime, the conductor role and the port itself. -/
namespace Sys2Proof.Machine

/-! ## The chime (R27) -/

/-- An entry of the chime that leaves without a record. -/
def Entry.chimeCleared (e : Entry) : Entry := if e.ended (fun v => v = chimeVoice) then { e with report := false } else e

section
variable {s : State} {p : PortId}

/-- The chime halted, with the report marks of its entries cleared. -/
def State.chimeHalted (s : State) : State := (s.haltPlayer chimeVoice).clearChimeMarks

theorem State.chimeHalted_entries : s.chimeHalted.entries = s.entries.map Entry.chimeCleared := rfl

theorem State.chimeHalted_player (v : VoiceId) :
    s.chimeHalted.player v = if v = chimeVoice then (s.player v).halted else s.player v := by
  refine (Bank.look_put ..).trans ?_
  by_cases h : v = chimeVoice
  · subst h
    rfl
  · rw [if_neg h, if_neg h]
    rfl

theorem State.dropChime_held (h : s.chimePort = some p) :
    s.dropChime p = { (s.chimeHalted.flushVoice chimeVoice).1 with chimePort := none } := if_pos h

theorem State.dropChime_other (h : s.chimePort ≠ some p) : s.dropChime p = s := if_neg h

theorem State.dropChime_frame : s.dropChime p = { s with
    ports := (s.dropChime p).ports, entries := (s.dropChime p).entries, players := (s.dropChime p).players
    chimePort := if s.chimePort = some p then none else s.chimePort } := by
  by_cases h : s.chimePort = some p
  · rw [State.dropChime_held h, State.flushVoice_frame, if_pos h]
    rfl
  · rw [State.dropChime_other h, if_neg h]

theorem Entry.chimeCleared_slot (e : Entry) : e.chimeCleared.slot = e.slot := by
  unfold Entry.chimeCleared
  split <;> rfl

theorem Entry.chimeCleared_ended (c : VoiceId → Bool) (e : Entry) : e.chimeCleared.ended c = e.ended c := by
  unfold Entry.chimeCleared
  split <;> rfl

theorem Entry.chimeCleared_voice (e : Entry) : e.chimeCleared.voice = e.voice := by
  unfold Entry.chimeCleared
  split <;> rfl

theorem Entry.chimeCleared_of_ended {e : Entry} (h : e.ended (fun v => v = chimeVoice) = true) : e.chimeCleared.report = false := by
  rw [Entry.chimeCleared, if_pos h]

theorem Entry.chimeCleared_of_not {e : Entry} (h : e.ended (fun v => v = chimeVoice) = false) : e.chimeCleared = e :=
  if_neg (by rw [h]; exact Bool.false_ne_true)

variable (hchime : s.chimePort = some p) (hslots : (s.entries.map (·.slot)).Nodup)
include hslots

theorem State.chimeHalted_slots : (s.chimeHalted.entries.map (·.slot)).Nodup := by
  have hslot : (fun e : Entry => e.slot) ∘ Entry.chimeCleared = fun e : Entry => e.slot := funext fun e => e.chimeCleared_slot
  rwa [State.chimeHalted_entries, List.map_map, hslot]

include hchime

theorem State.dropChime_entries : (s.dropChime p).entries = calendarAfter (fun v => v = chimeVoice) s.entries := by
  rw [State.dropChime_held hchime]
  refine (State.flushVoice_calendar _ (State.chimeHalted_slots hslots)).trans ?_
  have hended : (fun e : Entry => !e.ended (fun v => v = chimeVoice)) ∘ Entry.chimeCleared =
      fun e => !e.ended (fun v => v = chimeVoice) := funext fun e => congrArg (!·) (e.chimeCleared_ended _)
  rw [calendarAfter, State.chimeHalted_entries, List.filter_map, hended, List.map_map]
  refine List.map_congr_left fun e he => congrArg _ (Entry.chimeCleared_of_not ?_)
  simpa using (List.mem_filter.1 he).2

theorem State.dropChime_port (q : PortId) : (s.dropChime p).port q = s.port q := by
  have hport : (s.dropChime p).port q = (s.chimeHalted.flushVoice chimeVoice).1.port q := by rw [State.dropChime_held hchime]; rfl
  have hnone : s.chimeHalted.entries.filter (fun e => e.ended (fun u => u = chimeVoice) && (e.port = q && e.report)) = [] := by
    rw [State.chimeHalted_entries, List.filter_eq_nil_iff]
    intro e he
    obtain ⟨d, -, rfl⟩ := List.mem_map.1 he
    rw [Entry.chimeCleared_ended]
    cases h : d.ended (fun u => u = chimeVoice) with
    | false => simp
    | true => simp [Entry.chimeCleared_of_ended h]
  rw [hport, State.flushVoice_port _ (State.chimeHalted_slots hslots), hnone]
  rfl

theorem State.dropChime_player (v : VoiceId) :
    (s.dropChime p).player v = if v = chimeVoice then (s.player v).halted else s.player v := by
  have hplayer : (s.dropChime p).player v = (s.chimeHalted.flushVoice chimeVoice).1.player v := by
    rw [State.dropChime_held hchime]
    rfl
  rw [hplayer, State.flushVoice_told _ (State.chimeHalted_slots hslots), State.chimeHalted_player]
  by_cases h : v = chimeVoice
  · rw [if_pos h, Player.tellIf_halted]
  · rw [if_neg h, Player.tellIf_of_not]
    rintro ⟨e, -, hended, hconcerns⟩
    simp only [Entry.ended, Bool.and_eq_true, decide_eq_true_eq] at hended
    simp [State.concerns, hended.1, h] at hconcerns

end

/-! ## The port reset -/

/-- An entry that no longer reports to a reset port (R27). -/
def Entry.unreported (p : PortId) (e : Entry) : Entry := if e.port = p then { e with report := false } else e

/-- The voices that a port's reset ends: its own, and the chime where it is the chime port. -/
def State.endsWith (s : State) (p : PortId) (v : VoiceId) : Bool := s.owns p v || (v = chimeVoice && s.chimePort = some p)

/-- The voices that a port owns. -/
def State.owned (s : State) (p : PortId) : List VoiceId := portVoices.filter (fun v => s.owns p v)

section
variable (p : PortId) (e : Entry)

theorem Entry.unreported_eq : e.unreported p = { e with report := (e.unreported p).report } := by
  unfold Entry.unreported
  split <;> rfl

@[simp] theorem Entry.unreported_slot : (e.unreported p).slot = e.slot := by rw [Entry.unreported_eq]
@[simp] theorem Entry.unreported_voice : (e.unreported p).voice = e.voice := by rw [Entry.unreported_eq]
@[simp] theorem Entry.unreported_port : (e.unreported p).port = e.port := by rw [Entry.unreported_eq]
@[simp] theorem Entry.unreported_state : (e.unreported p).state = e.state := by rw [Entry.unreported_eq]

theorem Entry.unreported_ended (c : VoiceId → Bool) : (e.unreported p).ended c = e.ended c := by simp [Entry.ended]

theorem Entry.unreported_other {e : Entry} (h : e.port ≠ p) : e.unreported p = e := if_neg h

end

section
variable {s : State} {p : PortId}

theorem State.mem_owned {v : VoiceId} : v ∈ s.owned p ↔ s.owns p v = true := by
  rw [State.owned, portVoices, List.filter_filter, List.mem_filter, State.owns_iff]
  simp [State.owns]
  tauto

theorem State.owned_nodup : (s.owned p).Nodup := ((List.nodup_finRange 16).filter _).filter _

theorem State.chime_not_owned : chimeVoice ∉ s.owned p := fun h => (State.owns_iff.1 (State.mem_owned.1 h)).1 rfl

/-- The part after the port's voices have closed. -/
def State.voicesReset (p : PortId) (s : State) : State := State.closeVoices (s.owned p) (s.clearMarks p)

theorem State.portReset_eq : s.portReset p = (((s.voicesReset p).dropChime p).dropConductor p).modPort p Port.reset := rfl

theorem State.dropConductor_eq : s.dropConductor p = { s with
    timeline := { s.timeline with conductor := if s.timeline.conductor = some p then none else s.timeline.conductor } } := by
  unfold State.dropConductor
  split
  · rfl
  · rfl

theorem State.voicesReset_ended : (s.clearMarks p).Ended (s.owned p) (s.voicesReset p) := State.closeVoices_ended

theorem State.portReset_voice (v : VoiceId) :
    (s.portReset p).voice v = if s.owns p v then { s.voice v with state := .closed, owner := none, area := none } else s.voice v := by
  have hvoice := (State.voicesReset_ended (s := s) (p := p)).voice v
  rw [State.portReset_eq, State.dropConductor_eq, State.dropChime_frame]
  exact hvoice.trans (if_congr State.mem_owned rfl rfl)

theorem State.portReset_damper (u : UnitId) : (s.portReset p).damper u =
    if (s.damper u).holds.any (fun h => h.endTick.isNone && s.owns p h.voice) then
      (s.damper u).without s.now (fun h => h.endTick.isNone && s.owns p h.voice) else s.damper u := by
  have hdamper := (State.voicesReset_ended (s := s) (p := p)).damper u
  rw [State.portReset_eq, State.dropConductor_eq, State.dropChime_frame, ← Damper.drop_eq_without]
  refine hdamper.trans (Damper.drop_congr _ fun h _ => ?_)
  rw [Bool.eq_iff_iff]
  simp [State.mem_owned]

theorem State.portReset_frame : s.portReset p = { s with
    ports := (s.portReset p).ports, voices := (s.portReset p).voices, entries := (s.portReset p).entries
    players := (s.portReset p).players, dampers := (s.portReset p).dampers
    chimePort := if s.chimePort = some p then none else s.chimePort
    timeline := { s.timeline with conductor := if s.timeline.conductor = some p then none else s.timeline.conductor } } := by
  have hframe := (State.voicesReset_ended (s := s) (p := p)).frame
  rw [State.portReset_eq, State.dropConductor_eq, State.dropChime_frame]
  generalize s.voicesReset p = x at hframe
  generalize x.dropChime p = y
  rw [hframe]
  rfl

theorem State.portReset_own : (s.portReset p).port p = (((s.voicesReset p).dropChime p).port p).reset := by
  rw [State.portReset_eq, State.modPort_port, if_pos rfl, State.dropConductor_eq]
  rfl

theorem State.portReset_port {q : PortId} (h : q ≠ p) : (s.portReset p).port q = ((s.voicesReset p).dropChime p).port q := by
  rw [State.portReset_eq, State.modPort_port, if_neg h, State.dropConductor_eq]
  rfl

/-! ### What the port keeps of its line -/

/-- What a port's line has done so far. -/
def Port.line (q : Port) : Nat × Bool × Option Nat := (q.gapStart, q.lineLow, q.highSince)

/-- A port as power-on leaves it, on a line that has done this much. -/
def Port.freshOn (line : Nat × Bool × Option Nat) : Port :=
  { Port.initial with gapStart := line.1, lineLow := line.2.1, highSince := line.2.2 }

theorem Port.offer_line (r : EchoRecord) (q : Port) : (q.offer r).line = q.line := by
  unfold Port.offer Port.levelCheck
  repeat' split
  all_goals rfl

theorem State.leave_line (k : SlotId) (o : EntryOutcome) (q : PortId) : ((s.leave k o).port q).line = (s.port q).line := by
  cases he : s.entryAt k with
  | none => rw [State.leave_none he]
  | some e =>
    rw [State.leave_some he]
    cases e.report with
    | false => rfl
    | true =>
      show ((s.ports.put e.port ((s.port e.port).offer (e.echo o))).look q).line = _
      rw [Bank.look_put]
      split
      · next h =>
        subst h
        exact Port.offer_line _ _
      · rfl

theorem State.flushVoice_line (v : VoiceId) (q : PortId) : ((s.flushVoice v).1.port q).line = (s.port q).line := by
  rw [State.flushVoice_eq, ← State.leaveAll_slotsWhere]
  have hleft : ∀ (l : List SlotId) (t : State), ((State.leaveAll .flushed l t).port q).line = (t.port q).line := by
    intro l
    induction l with
    | nil => exact fun _ => rfl
    | cons k rest ih => exact fun t => (ih _).trans (t.leave_line k _ q)
  exact hleft _ _

theorem State.closeVoices_line (l : List VoiceId) (q : PortId) : ((State.closeVoices l s).port q).line = (s.port q).line := by
  induction l generalizing s with
  | nil => rfl
  | cons v rest ih =>
    refine (ih (s := (s.closeVoice v).1)).trans ?_
    rw [State.closeVoice_port]
    exact s.flushVoice_line v q

theorem State.dropChime_line (q : PortId) : ((s.dropChime p).port q).line = (s.port q).line := by
  by_cases h : s.chimePort = some p
  · rw [State.dropChime_held h]
    exact State.flushVoice_line (s := s.chimeHalted) _ q
  · rw [State.dropChime_other h]

theorem State.portReset_own_line : (s.portReset p).port p = { Port.initial with
    gapStart := (s.port p).gapStart, lineLow := (s.port p).lineLow, highSince := (s.port p).highSince } := by
  have hline : (((s.voicesReset p).dropChime p).port p).line = (s.port p).line :=
    (State.dropChime_line p).trans (State.closeVoices_line (s := s.clearMarks p) _ p)
  rw [State.portReset_own]
  exact congrArg Port.freshOn hline

/-! ### The calendar, the players and the other ports -/

theorem State.clearMarks_entries : (s.clearMarks p).entries = s.entries.map (Entry.unreported p) := rfl

theorem State.voicesReset_chimePort : (s.voicesReset p).chimePort = s.chimePort := by
  rw [State.voicesReset_ended.frame]
  rfl

theorem State.exists_unreported (c : VoiceId → Bool) (P : PortId → Prop) :
    (∃ e ∈ (s.clearMarks p).entries, e.ended c = true ∧ P e.port) ↔ ∃ e ∈ s.entries, e.ended c = true ∧ P e.port := by
  rw [State.clearMarks_entries]
  constructor
  · rintro ⟨e, he, hended, hport⟩
    obtain ⟨d, hd, rfl⟩ := List.mem_map.1 he
    rw [Entry.unreported_ended] at hended
    rw [Entry.unreported_port] at hport
    exact ⟨d, hd, hended, hport⟩
  · rintro ⟨d, hd, hended, hport⟩
    exact ⟨d.unreported p, List.mem_map_of_mem hd, by rwa [Entry.unreported_ended], by rwa [Entry.unreported_port]⟩

theorem Entry.ended_owned (e : Entry) : e.ended (fun v => v ∈ s.owned p) = true ↔
    e.ended (s.endsWith p) = true ∧ e.voice ≠ chimeVoice := by
  simp only [Entry.ended, State.endsWith, State.mem_owned, Bool.and_eq_true, Bool.or_eq_true, decide_eq_true_eq]
  have hne : s.owns p e.voice = true → e.voice ≠ chimeVoice := fun h => (State.owns_iff.1 h).1
  tauto

/-- A voice's entries that leave with records for another port. -/
theorem State.clearMarks_reporting {q : PortId} (h : q ≠ p) (v : VoiceId) :
    (s.clearMarks p).entries.filter (fun e => e.ended (fun u => u = v) && (e.port = q && e.report)) =
      s.entries.filter (fun e => e.ended (fun u => u = v) && (e.port = q && e.report)) := by
  have hpick : (fun e : Entry => e.ended (fun u => u = v) && (decide (e.port = q) && e.report)) ∘ Entry.unreported p =
      fun e => e.ended (fun u => u = v) && (decide (e.port = q) && e.report) := funext fun e => by
    by_cases he : e.port = q
    · rw [Function.comp_apply, Entry.unreported_other p (fun g => h (he.symm.trans g))]
    · simp [he]
  rw [State.clearMarks_entries, List.filter_map, hpick]
  refine (List.map_congr_left fun e he => Entry.unreported_other p fun g => ?_).trans (List.map_id _)
  have hq : e.port = q := (by simpa using (List.mem_filter.1 he).2 : e.ended _ = true ∧ e.port = q ∧ e.report = true).2.1
  exact h (hq.symm.trans g)

variable (hslots : (s.entries.map (·.slot)).Nodup)
include hslots

theorem State.clearMarks_slots : ((s.clearMarks p).entries.map (·.slot)).Nodup := by
  have hslot : (fun e : Entry => e.slot) ∘ Entry.unreported p = fun e : Entry => e.slot := funext fun e => e.unreported_slot p
  rwa [State.clearMarks_entries, List.map_map, hslot]

theorem State.voicesReset_calendar : (s.clearMarks p).EndedCalendar (s.owned p) (s.voicesReset p) :=
  State.closeVoices_calendar State.owned_nodup State.chime_not_owned (State.clearMarks_slots hslots)

theorem State.voicesReset_slots : ((s.voicesReset p).entries.map (·.slot)).Nodup := by
  rw [(State.voicesReset_calendar hslots).entries]
  exact calendarAfter_slots _ (State.clearMarks_slots hslots)

theorem State.portReset_entries : (s.portReset p).entries =
    (s.entries.filter (fun e => !e.ended (s.endsWith p))).map (fun e => (e.unreported p).endMarked (s.endsWith p)) := by
  have hall : ((s.voicesReset p).dropChime p).entries = calendarAfter (s.endsWith p) (s.clearMarks p).entries := by
    by_cases hchime : s.chimePort = some p
    · rw [State.dropChime_entries (State.voicesReset_chimePort.trans hchime) (State.voicesReset_slots hslots),
        (State.voicesReset_calendar hslots).entries, calendarAfter_calendarAfter]
      refine congrArg (fun c => calendarAfter c _) (funext fun v => ?_)
      simp [State.endsWith, hchime, State.mem_owned]
    · rw [State.dropChime_other (fun h => hchime (State.voicesReset_chimePort.symm.trans h)), (State.voicesReset_calendar hslots).entries]
      refine congrArg (fun c => calendarAfter c _) (funext fun v => ?_)
      simp [State.endsWith, hchime, State.mem_owned]
  have hended : (fun e : Entry => !e.ended (s.endsWith p)) ∘ Entry.unreported p = fun e => !e.ended (s.endsWith p) :=
    funext fun e => congrArg (!·) (e.unreported_ended p _)
  have hportReset : (s.portReset p).entries = ((s.voicesReset p).dropChime p).entries := by
    rw [State.portReset_eq, State.dropConductor_eq]
    rfl
  rw [hportReset, hall, calendarAfter, State.clearMarks_entries, List.filter_map, hended, List.map_map]
  rfl

theorem State.voicesReset_player (v : VoiceId) : (s.voicesReset p).player v = if s.owns p v then (s.player v).halted
    else (s.player v).tellIf (v ≠ chimeVoice ∧ ∃ e ∈ s.entries, e.ended (s.endsWith p) = true ∧ e.voice ≠ chimeVoice ∧
      (s.voice v).owner = some e.port) := by
  refine ((State.voicesReset_calendar hslots).player v).trans ?_
  refine (if_congr State.mem_owned rfl (Player.tellIf_congr _ (and_congr_right fun _ => ?_))).trans rfl
  refine (State.exists_unreported _ fun q => (s.voice v).owner = some q).trans (exists_congr fun e => and_congr_right fun _ => ?_)
  rw [Entry.ended_owned, and_assoc]

theorem State.portReset_player (v : VoiceId) : (s.portReset p).player v = if s.endsWith p v then (s.player v).halted
    else (s.player v).tellIf (v ≠ chimeVoice ∧ ∃ e ∈ s.entries, e.ended (s.endsWith p) = true ∧ e.voice ≠ chimeVoice ∧
      (s.voice v).owner = some e.port) := by
  have hplayer : (s.portReset p).player v = ((s.voicesReset p).dropChime p).player v := by
    rw [State.portReset_eq, State.dropConductor_eq]
    rfl
  rw [hplayer]
  by_cases hchime : s.chimePort = some p
  · rw [State.dropChime_player (State.voicesReset_chimePort.trans hchime) (State.voicesReset_slots hslots),
      State.voicesReset_player hslots]
    by_cases hv : v = chimeVoice
    · have hends : s.endsWith p v = true := by simp [State.endsWith, hv, hchime]
      have howns : ¬ s.owns p v = true := fun h => (State.owns_iff.1 h).1 hv
      rw [if_pos hv, if_pos hends, if_neg howns, Player.halted_tellIf]
    · have hends : s.endsWith p v = s.owns p v := by simp [State.endsWith, hv]
      rw [if_neg hv, hends]
  · have hends : s.endsWith p v = s.owns p v := by simp [State.endsWith, hchime]
    rw [State.dropChime_other (fun h => hchime (State.voicesReset_chimePort.symm.trans h)), State.voicesReset_player hslots, hends]

theorem State.portReset_records {q : PortId} (h : q ≠ p) : (s.portReset p).port q =
    ((List.finRange 16).flatMap (fun v => s.entries.filter (fun e =>
      e.voice = v && s.owns p v && e.state ≠ .firing && e.port = q && e.report))).foldl
        (fun x e => x.offer (e.echo .flushed)) (s.port q) := by
  have hport : (s.portReset p).port q = (s.voicesReset p).port q := by
    rw [State.portReset_port h]
    by_cases hchime : s.chimePort = some p
    · exact State.dropChime_port (State.voicesReset_chimePort.trans hchime) (State.voicesReset_slots hslots) q
    · rw [State.dropChime_other (fun g => hchime (State.voicesReset_chimePort.symm.trans g))]
  rw [hport, (State.voicesReset_calendar hslots).port]
  refine congrArg (fun l => List.foldl _ _ l) ?_
  rw [State.owned, portVoices, List.filter_filter, filter_flatMap]
  refine List.flatMap_congr fun v _ => ?_
  cases howns : s.owns p v with
  | false => simp
  | true =>
    have hv := (State.owns_iff.1 howns).1
    rw [Bool.true_and, if_pos (by simpa using hv), State.clearMarks_reporting h]
    exact List.filter_congr fun e _ => by simp [Entry.ended, Bool.and_assoc]

end

/-- The entries that stay are marked in the claims' words: they are FIRING where their voice has ended. -/
theorem Entry.endMarked_kept {c : VoiceId → Bool} {e : Entry} (h : e.ended c = false) : e.endMarked c = match e.part with
    | .roll r => if c e.voice then { e with part := .roll { r with flushMark := true } } else e
    | _ => e := by
  unfold Entry.endMarked Entry.modRoll
  unfold Entry.ended at h
  cases hc : c e.voice with
  | false => cases e.part <;> simp
  | true =>
    have hfiring : e.state = .firing := by simpa [hc] using h
    cases e.part <;> simp [hfiring]

/-- Settles O9: both ways to a port reset, and what each block keeps. -/
theorem portResetLeavesNoTrace : Obligations.PortResetLeavesNoTrace := by
  unfold Obligations.PortResetLeavesNoTrace
  intro resets w p s hreset
  have hresets : ∀ (now : Nat) (t : State), t = { (s.reach now).portReset p with ports := t.ports } →
      (∀ q, q ≠ p → t.port q = ((s.reach now).portReset p).port q) →
      t.port p = { Port.initial with
        gapStart := (s.port p).gapStart, lineLow := (t.port p).lineLow, highSince := (s.port p).highSince } → resets p s t := by
    intro now t ht hother hown
    have hframe := State.portReset_frame (s := s.reach now) (p := p)
    have hnow : t.now = (s.reach now).now := by rw [ht, hframe]
    have hplayer : ∀ v, t.player v = ((s.reach now).portReset p).player v := fun v => by rw [ht]; rfl
    refine ⟨hown, fun v => ?_, fun u => ?_, fun hslots => ⟨?_, fun v => ?_, fun q hq => ?_⟩, ?_⟩
    · rw [ht]
      exact State.portReset_voice (s := s.reach now) v
    · rw [hnow, ht]
      exact State.portReset_damper (s := s.reach now) u
    · rw [ht]
      refine (State.portReset_entries (s := s.reach now) hslots).trans (List.map_congr_left fun e he => ?_)
      exact Entry.endMarked_kept ((e.unreported_ended p _).trans (by simpa using (List.mem_filter.1 he).2))
    · rw [hplayer]
      exact State.portReset_player (s := s.reach now) hslots v
    · rw [hother q hq]
      exact State.portReset_records (s := s.reach now) hslots hq
    · generalize (s.reach now).portReset p = y at ht hframe
      rw [ht, hframe]
      rfl
  have hnow : ∀ now, ((s.reach now).portReset p).now = max s.now now := fun now => by
    rw [State.portReset_frame]
    rfl
  refine ⟨fun hfill hlow => ?_, fun d hdue => ?_⟩
  · have hbroken : ((s.reach w.time).held || ((s.reach w.time).port p).lineLow) = false := by
      show (s.power.inReset || decide (s.power.fill ≠ .none) || (s.port p).lineLow) = false
      simp [hreset, hfill, hlow]
    have hlineLow : ((((s.reach w.time).portReset p).modPort p (fun q => { q with lineLow := true })).port p).lineLow = true := by
      rw [State.modPort_port, if_pos rfl]
    refine ⟨((s.reach w.time).portReset p).modPort p (fun q => { q with lineLow := true }), ?_, hresets w.time _ rfl (fun q hq => ?_) ?_,
      hlineLow, ?_, hnow _⟩
    · rw [exec_lineBreak, execLineBreak, event_open hreset, hbroken, if_neg Bool.false_ne_true]
    · rw [State.modPort_port, if_neg hq]
    · rw [State.modPort_port, if_pos rfl, State.portReset_own_line]
      rfl
    · rw [State.ready, hlineLow]
      simp
  · refine ⟨(s.reach (max d w.time)).portReset p, ?_, hresets (max d w.time) _ rfl (fun q _ => rfl) ?_, ?_, hnow _⟩
    · rw [exec_silenceExpiry, hdue, timerEvent_open hreset]
    · rw [State.portReset_own_line]
      rfl
    · rw [State.portReset_own_line]
      rfl

end Sys2Proof.Machine
end
